-- ==== Sys2Proof/Word.lean ====
section
/-! DEFINITION. The names and bounds every other file counts in: bytes of the link, the numbers of
arms, meters and injectors (00_scope.md, "numbering"), and the limits at which counters saturate. -/

namespace Sys2Proof

/-- A byte of a frame on the station link, or of the settings memory. -/
abbrev Byte := BitVec 8

/-- Arm `n + 1` of the manual, for `n` from 0 to 7. -/
abbrev ArmId := Fin 8

/-- Meter (and temperature channel) `m + 1` of the manual, for `m` from 0 to 15. -/
abbrev MeterId := Fin 16

/-- Injector `i + 1` of the manual, for `i` from 0 to 11. -/
abbrev InjId := Fin 12

/-- The greatest value of a total, of an unassigned volume and of a stroke count (R4, R54, R152). -/
abbrev u32Max : Nat := 4294967295

/-- The greatest value of a pulse count, a debt and the link error counter (R47, R151, R182). -/
abbrev u16Max : Nat := 65535

/-- Addition that stays at `top` once it is reached ("saturates", 00_scope.md). -/
def satAdd (top a b : Nat) : Nat := min top (a + b)

end Sys2Proof
end

