-- ==== Sys2Proof/Config.lean ====
section
/-! DEFINITION. What the spec leaves open, as constants without a body. -/

namespace Sys2Proof.Config

/-- FREE VALUE. The temperature (0.01 °C) a sample computation uses for a channel that has no valid
value at the moment given. R61 and R70 say that an AVAILABLE arm never meets the case; a state that
breaks that rule still runs, on a number nothing is known of (log entry 20). -/
opaque absentTemperature : MeterId → Nat → Int

end Sys2Proof.Config
end

