-- ==== Sys2Proof/Machine/Bytes.lean ====
section
/-! DEFINITION. Byte order, two's complement, the CRC of R181, and the three roundings of 00_scope.md. -/

namespace Sys2Proof.Machine

/-- Byte `k` of `n`, counted from the least significant. -/
def byteOf (n k : Nat) : Byte := BitVec.ofNat 8 (n / 256 ^ k)

/-- Two bytes, high byte first (R192). -/
def be16 (n : Nat) : List Byte := [byteOf n 1, byteOf n 0]

/-- Three bytes, high byte first: the width the model gives an item in the settings memory (log entry 5). -/
def be24 (n : Nat) : List Byte := [byteOf n 2, byteOf n 1, byteOf n 0]

/-- Four bytes, high byte first (R192). -/
def be32 (n : Nat) : List Byte := [byteOf n 3, byteOf n 2, byteOf n 1, byteOf n 0]

/-- One byte. -/
def byte1 (n : Nat) : List Byte := [byteOf n 0]

/-- The number a run of bytes spells, high byte first (R192). -/
def fromBytes (bs : List Byte) : Nat := bs.foldl (fun a b => a * 256 + b.toNat) 0

/-- A signed field of two bytes, in two's complement (R192). -/
def signed16 (z : Int) : List Byte := be16 (BitVec.ofInt 16 z).toNat

/-- A signed field of four bytes, in two's complement (R192). -/
def signed32 (z : Int) : List Byte := be32 (BitVec.ofInt 32 z).toNat

/-- `z` brought to the nearer end of the range of a signed field of four bytes (R192, READ LOAD). -/
def clampSigned32 (z : Int) : Int := max (-2147483648) (min 2147483647 z)

/-- Bits of a byte from a list of eight, bit 0 first. -/
def bits (bs : List Bool) : Nat := bs.foldr (fun b a => (if b then 1 else 0) + 2 * a) 0

/-- One bit of the CRC: shift left, and take the polynomial x^16 + x^12 + x^5 + 1 off (R181). -/
def crcBit (r : BitVec 16) : BitVec 16 :=
  if r.getLsbD 15 then (r <<< 1) ^^^ 0x1021#16 else r <<< 1

/-- `k` bits of the CRC. -/
def crcBits : Nat → BitVec 16 → BitVec 16
  | 0, r => r
  | k + 1, r => crcBits k (crcBit r)

/-- One byte of the CRC, most significant bit first (R181). -/
def crcByte (r : BitVec 16) (b : Byte) : BitVec 16 :=
  crcBits 8 (r ^^^ ((b.setWidth 16) <<< 8))

/-- The CRC of R181: the register starts at all ones and is not inverted at the end. -/
def crc (bs : List Byte) : BitVec 16 := bs.foldl crcByte 0xFFFF#16

/-- The two CRC bytes, high byte first (R181). -/
def crcBytes (bs : List Byte) : List Byte := be16 (crc bs).toNat

/-- `a / d` rounded to nearest, halves away from zero (00_scope.md). -/
def roundAway (a : Int) (d : Nat) : Int :=
  let m : Int := ((2 * a.natAbs + d) / (2 * d) : Nat)
  if a < 0 then -m else m

/-- `a / d` rounded to nearest, halves up, for values that are not negative (00_scope.md). -/
def roundUp (a d : Nat) : Nat := (2 * a + d) / (2 * d)

/-- `a / d` truncated toward zero (00_scope.md). -/
def truncDiv (a : Int) (d : Nat) : Int := a.tdiv d

end Sys2Proof.Machine
end

