-- ==== Sys2Proof/Syntax.lean ====
section
/-! DEFINITION. The commands of the KL-82: one constructor for each row of spec/opcode_table.json, with
the data that reaches the part with it. A host request carries the payload bytes of its frame, so that
its length N is one more than the payload's (R183, R192). -/

namespace Sys2Proof

/-- The two bays: arms 1 to 4, and arms 5 to 8. -/
inductive Bay
  | a | b
deriving DecidableEq, Repr

/-- The fourteen permissive inputs (R162). -/
inductive Permissive
  | estop
  | headerPress
  | ground (bay : Bay)
  | overfill (bay : Bay)
  | armConnected (arm : ArmId)
deriving DecidableEq, Repr

/-- One level per permissive input, `true` for met (lead high, R162). -/
structure PermLevels where
  estop : Bool
  headerPress : Bool
  groundA : Bool
  overfillA : Bool
  groundB : Bool
  overfillB : Bool
  connected : Vector Bool 8
deriving DecidableEq, Repr

/-- One level per push-button, `true` for pressed: lead STBn and lead SPBn of each arm (R103). -/
structure ButtonLevels where
  start : Vector Bool 8
  stop : Vector Bool 8
deriving DecidableEq, Repr

/-- A change of the filtered level of an arm's push-button, `pressed` or released (R103). -/
structure ButtonChange where
  arm : ArmId
  pressed : Bool
deriving DecidableEq, Repr

/-- The leads as they stand at entry to RUNNING or UNCONFIGURED (R103, R163). -/
structure Leads where
  permissives : PermLevels
  buttons : ButtonLevels
deriving DecidableEq, Repr

/-- One channel's report of a converter read: a temperature in 0.01 °C and the converter's good mark. -/
structure TempReport where
  value : Int
  good : Bool
deriving DecidableEq, Repr

/-- A frame in progress: whether its mark was 0 (broadcast), and the bytes since the mark (R179, R180). -/
structure RxFrame where
  broadcast : Bool
  bytes : List Byte
deriving DecidableEq, Repr

/-- Why a frame in progress is discarded (R180). `abandoned b` is an address mark for this station
(`b = false`) or for broadcast (`b = true`) before the frame was complete. -/
inductive DiscardReason
  | framingError
  | badLength
  | abandoned (broadcast : Bool)
  | crcMismatch
deriving DecidableEq, Repr

/-- The commands, in the order of the opcode table. -/
inductive Instr
  /-- POWER_UP (R193). -/
  | powerUp
  /-- POWER_DOWN (R193). -/
  | powerDown
  /-- RESET_LOW (R193). -/
  | resetLow
  /-- RESET_RELEASE (R193). -/
  | resetRelease
  /-- POWER_ON_END (R195): the strap leads ADR4 to ADR0 as sampled. -/
  | powerOnEnd (straps : BitVec 5)
  /-- LOADING_END (R196): how many of the three attempts at areas M and L met a byte the memory did not
  acknowledge or a byte spoiled on the line, and the permissive, push-button and strap leads as they stand. -/
  | loadingEnd (spoiledM spoiledL : Nat) (leads : Leads) (straps : BitVec 5)
  /-- STRAP_CHANGE (R195): the new filtered strap number. -/
  | strapChange (straps : BitVec 5)
  /-- PERMISSIVE_LOSS (R164). -/
  | permissiveLoss (p : Permissive)
  /-- PERMISSIVE_RESTORE (R163). -/
  | permissiveRestore (p : Permissive)
  /-- START_BUTTON_EDGE (R13, R103): the filtered level of lead STBn changes. A release, which gives no edge and
  has no row of its own, is this row with `pressed` false (log entry 38). -/
  | startButtonEdge (b : ButtonChange)
  /-- STOP_BUTTON_EDGE (R103), as START_BUTTON_EDGE for lead SPBn. -/
  | stopButtonEdge (b : ButtonChange)
  /-- METER_A_EDGE (R45), with the level of channel B at the edge. -/
  | meterAEdge (m : MeterId) (bHigh : Bool)
  /-- METER_B_EDGE (R51). -/
  | meterBEdge (m : MeterId)
  /-- VERIFY_PULSE (R151). -/
  | verifyPulse (i : InjId)
  /-- TEMP_READ_START (R60). -/
  | tempReadStart (bay : Bay)
  /-- TEMP_READ_END (R60): the eight reports, or nothing when the check values disagree. -/
  | tempReadEnd (bay : Bay) (reports : Option (Vector TempReport 8))
  /-- CHECKING_TIMEOUT (R81). -/
  | checkingTimeout (n : ArmId)
  /-- SAMPLE_EVENT (R84). -/
  | sampleEvent (n : ArmId)
  /-- STROKE_TIME_END (R151). -/
  | strokeTimeEnd (i : InjId)
  /-- VERIFY_TAIL_END (R152). -/
  | verifyTailEnd (i : InjId)
  /-- SETTLE_EXPIRY (R93). -/
  | settleExpiry (n : ArmId)
  /-- FINISH_TIMEOUT (R121). -/
  | finishTimeout (n : ArmId)
  /-- HOLD_LIMIT_EXPIRY (R17), of the record with the load number. -/
  | holdLimitExpiry (load : Nat)
  /-- STATION_STATUS (R190). -/
  | stationStatus (payload : List Byte)
  /-- READ_ARM (R191). -/
  | readArm (payload : List Byte)
  /-- STAGE_LOAD (R9). -/
  | stageLoad (payload : List Byte)
  /-- START_LOAD (R12). -/
  | startLoad (payload : List Byte)
  /-- HOLD_LOAD (R18). -/
  | holdLoad (payload : List Byte)
  /-- RESUME_LOAD (R16). -/
  | resumeLoad (payload : List Byte)
  /-- AMEND_PRESET (R20). -/
  | amendPreset (payload : List Byte)
  /-- ABORT_LOAD (R19). -/
  | abortLoad (payload : List Byte)
  /-- READ_LOAD (R22). -/
  | readLoad (payload : List Byte)
  /-- RETIRE_LOAD (R24). -/
  | retireLoad (payload : List Byte)
  /-- LIST_LOADS (R23). -/
  | listLoads (payload : List Byte)
  /-- DEFINE_RECIPE (R35). -/
  | defineRecipe (payload : List Byte)
  /-- AMEND_RECIPE (R36). -/
  | amendRecipe (payload : List Byte)
  /-- RETIRE_RECIPE (R37). -/
  | retireRecipe (payload : List Byte)
  /-- READ_RECIPE (R38). -/
  | readRecipe (payload : List Byte)
  /-- LIST_RECIPES (R39). -/
  | listRecipes (payload : List Byte)
  /-- CLEAR_ALARMS (R173). -/
  | clearAlarms (payload : List Byte)
  /-- READ_SETTING (R197). -/
  | readSetting (payload : List Byte)
  /-- WRITE_SETTING (R198). -/
  | writeSetting (payload : List Byte)
  /-- SAVE_SETTINGS (R199). -/
  | saveSettings (payload : List Byte)
  /-- SAVE_BYTE_DONE (R199): whether the memory acknowledged the byte access. -/
  | saveByteDone (acked : Bool)
  /-- RESTART (R200). -/
  | restart (payload : List Byte)
  /-- HOLD_ALL (R186). -/
  | holdAll
  /-- UNKNOWN_REQUEST (R183): the request code and payload of the frame. -/
  | unknownRequest (code : Byte) (payload : List Byte)
  /-- BROADCAST_IGNORED (R186): the request code and payload of the frame. -/
  | broadcastIgnored (code : Byte) (payload : List Byte)
  /-- FRAME_DISCARD (R180): why, and the frame in progress that is discarded. -/
  | frameDiscard (reason : DiscardReason) (frame : RxFrame)
  /-- FRAME_IDLE_TIMEOUT (R180): the incomplete frame that is discarded. -/
  | frameIdleTimeout (frame : RxFrame)
  /-- PENDING_FRAME_DISCARD (R185). -/
  | pendingFrameDiscard
  /-- REPLY_BEGIN (R184). -/
  | replyBegin
  /-- REPLY_END (R188). -/
  | replyEnd
  /-- LINK_SILENCE (R187). -/
  | linkSilence
  /-- FRAME_FOR_OTHER_STATION (R179): the marked value, and the frame for this station or broadcast that
  began since the last command and is still in progress, if there is one. -/
  | frameForOtherStation (mark : Byte) (begun : Option RxFrame)
deriving DecidableEq, Repr

end Sys2Proof
end

