-- ==== Sys2Proof/Machine/Types.lean ====
section
/-! DEFINITION. The data the blocks of the KL-82 hold (00_scope.md, "blocks"; the state table at the head
of each chapter). Moments are in ms of the model's clock (log entry 1). -/

namespace Sys2Proof.Machine

/-! ## Settings (R201) -/

/-- The class of an arm alarm kind (R167). -/
inductive AlarmClass
  | stop | warn | off
deriving DecidableEq, Repr

/-- What silence supervision does at its expiry (R187). -/
inductive SilenceAction
  | hold | carryOn
deriving DecidableEq, Repr

/-- Items 1 to 19 of one arm (R201). -/
structure ArmSettings where
  inService : Bool
  period : Nat
  lowRate : Nat
  highRate : Nat
  lowStart : Nat
  taper : Nat
  settle : Nat
  deadband : Nat
  noFlow : Nat
  gasComp : Nat
  overrunLimit : Nat
  leakLimit : Nat
  eMax : Nat
  catchUp : Nat
  monitorStart : Nat
  allowance : Nat
  ratioDelay : Nat
  ethComp : Nat
  finishTimeout : Nat
deriving DecidableEq, Repr

/-- Items 30 to 43 of one meter (R201). -/
structure MeterSettings where
  security : Bool
  reverseLimit : Nat
  window : Nat
  tolerance : Nat
  kFactor : Nat
  q1 : Nat
  q2 : Nat
  q3 : Nat
  q4 : Nat
  f1 : Nat
  f2 : Nat
  f3 : Nat
  f4 : Nat
  alpha : Nat
deriving DecidableEq, Repr

/-- Items 50 to 57 of one injector (R144, R201). `arm` is 0 for unused, or 1 to 8. -/
structure InjSettings where
  arm : Nat
  code : Nat
  stroke : Nat
  strokeTime : Nat
  tail : Nat
  pulses : Nat
  tolerance : Nat
  catchUp : Nat
deriving DecidableEq, Repr

/-- Items 70 to 76 and 80 (R201). `classes` holds the classes of kinds 1 to 10; kind 11 is fixed (R167). -/
structure StationSettings where
  holdLimit : Nat
  tempHold : Nat
  capacity : Nat
  lineSpeed : Nat
  linkAddress : Nat
  silenceTime : Nat
  silenceAction : SilenceAction
  classes : Vector AlarmClass 10
deriving DecidableEq, Repr

/-- The working settings: area M (arms, meters, injectors) and area L (station) (R196). -/
structure Settings where
  arms : Vector ArmSettings 8
  meters : Vector MeterSettings 16
  injectors : Vector InjSettings 12
  station : StationSettings
deriving DecidableEq, Repr

/-! ## Load table (01_load_records.md) -/

inductive LoadState
  | staged | ready | delivering | held | ended
deriving DecidableEq, Repr

inductive Phase
  | headerWait | low | high | taper | finish | settle
deriving DecidableEq, Repr

inductive HoldCause
  | host | stopButton | permissive | alarm | linkSilence | broadcast
deriving DecidableEq, Repr

inductive EndReason
  | complete | aborted | holdExpired
deriving DecidableEq, Repr

/-- The set of end flags of a record (R26). -/
structure EndFlags where
  offRatio : Bool
  additiveShort : Bool
  tempHeld : Bool
  finishCut : Bool
  overrunHigh : Bool
deriving DecidableEq, Repr

/-- An additive entry of a record (R5). -/
structure AddEntry where
  code : Nat
  injector : InjId
  interval : Nat
  due : Nat
  issued : Nat
  verified : Nat
  injected : Nat
deriving DecidableEq, Repr

/-- A load record. Absent fields are `none` (R2). The two temperature sums are those of R75; `holdTimer`
is the expiry of the hold-limit timer, if it runs (R17). -/
structure Load where
  number : Nat
  arm : ArmId
  recipe : Nat
  preset : Nat
  state : LoadState
  phase : Option Phase
  upgradePending : Option Bool
  abortTaken : Option Bool
  gasGross : Nat
  gasNet : Nat
  ethGross : Nat
  ethNet : Nat
  gasTempSum : Int
  ethTempSum : Int
  gasAverage : Option Int
  ethAverage : Option Int
  entries : List AddEntry
  holdCount : Nat
  lastCause : Option HoldCause
  endReason : Option EndReason
  flags : EndFlags
  achieved : Option Nat
  overrun : Option Int
  holdTimer : Option Nat
deriving DecidableEq, Repr

/-! ## Recipe table (02_blend_recipes.md) -/

inductive RecipeState
  | active | retiring
deriving DecidableEq, Repr

/-- An additive entry of a recipe: code, and dose in mL per 1,000 L. -/
structure RecipeEntry where
  code : Nat
  dose : Nat
deriving DecidableEq, Repr

structure Recipe where
  number : Nat
  state : RecipeState
  fraction : Nat
  tolerance : Nat
  entries : List RecipeEntry
  count : Nat
deriving DecidableEq, Repr

/-! ## Meter channels and temperature port (03, 04) -/

/-- A meter channel (R44) with the carries of the volume arithmetic (R64). -/
structure Meter where
  pending : Nat
  debt : Nat
  windowA : Nat
  windowB : Nat
  mismatches : Nat
  unassigned : Nat
  carryI : Nat
  carryG : Nat
  carryN : Nat
deriving DecidableEq, Repr

/-- The latest sample of a channel: value, good mark, delivery time. -/
structure TempSample where
  value : Int
  good : Bool
  time : Nat
deriving DecidableEq, Repr

/-- A temperature channel (R59). -/
structure TempChannel where
  latest : Option TempSample
  lastValid : Option Int
  lastValidTime : Option Nat
  validCount : Nat
deriving DecidableEq, Repr

/-- The converter line: the next read of each bay, and whether a read is under way (TCSA, TCSB). -/
structure TempPort where
  nextA : Option Nat
  nextB : Option Nat
  readingA : Bool
  readingB : Bool
deriving DecidableEq, Repr

/-! ## Arm sequencer, ratio controller, header arbiter (05, 06, 07) -/

inductive ArmMode
  | outOfService | checking | available
deriving DecidableEq, Repr

inductive Valve
  | close | hold | openFurther
deriving DecidableEq, Repr

inductive Stalled
  | gas | ethanol | both
deriving DecidableEq, Repr

inductive SettleTimer
  | stopped
  | running (due : Nat)
  | expired
deriving DecidableEq, Repr

/-- The four learned gas compensations, oldest first (R106). -/
structure History where
  h1 : Nat
  h2 : Nat
  h3 : Nat
  h4 : Nat
deriving DecidableEq, Repr

/-- An arm sequencer (R79). Timers hold the moment at which they run out, a run the moment it began. -/
structure ArmSeq where
  mode : ArmMode
  checkTimer : Option Nat
  sampleClock : Option Nat
  gasTarget : Nat
  valve : Valve
  qGas : Nat
  qEth : Nat
  gasRun : Option Nat
  ethRun : Option Nat
  stalled : Option Stalled
  settle : SettleTimer
  history : History
  holdDrain : Nat
deriving DecidableEq, Repr

/-- A ratio controller (R111). -/
structure Ratio where
  setpoint : Nat
  devRun : Option Nat
  finishTimer : Option Nat
deriving DecidableEq, Repr

inductive ResLevel
  | none | low | high
deriving DecidableEq, Repr

/-- An arm's reservation at the header arbiter (R129). -/
structure Reservation where
  level : ResLevel
  amount : Nat
  lowAmount : Nat
deriving DecidableEq, Repr

inductive RequestKind
  | low | upgrade
deriving DecidableEq, Repr

/-- A request of the grant queue (R134). -/
structure HeaderRequest where
  arm : ArmId
  kind : RequestKind
  amount : Nat
deriving DecidableEq, Repr

/-! ## Injector controllers (08) -/

inductive InjState
  | masked | idle | stroking | verifying
deriving DecidableEq, Repr

/-- A stroke in flight: the load number of the record whose entry it was issued for, or `none` once that
record has been retired (R24, R152). The entry is the record's entry bound to the injector. -/
structure Stroke where
  load : Option Nat
deriving DecidableEq, Repr

/-- An injector controller (R148). `timer` is the end of the stroke time or of the verify tail. -/
structure Injector where
  state : InjState
  mask : Bool
  stroke : Option Stroke
  pulses : Nat
  endIssued : Nat
  timer : Option Nat
deriving DecidableEq, Repr

/-! ## Permissive and alarm unit (09) -/

inductive AlarmKind
  | noFlow | unauthFlow | pulseGas | pulseEth | reverseFlow | ratioDev | addShort | tempFault
  | overrunHigh | offRatio | permitLoss
deriving DecidableEq, Repr

inductive StationAlarm
  | linkSilence | configDefaulted | addressChanged | restarted | saveFailed
deriving DecidableEq, Repr

/-- A permissive as an arm sees it, without its bay or arm (R164). -/
inductive LossSource
  | estop | headerPress | ground | overfill | armConnected
deriving DecidableEq, Repr

/-- What is latched on an arm: sets as lists without repeats (R172). -/
structure ArmAlarms where
  latched : List AlarmKind
  first : Option AlarmKind
  sources : List LossSource
deriving DecidableEq, Repr

/-! ## Station link interface (10) -/

inductive Receiver
  | wait | receive | skip
deriving DecidableEq, Repr

inductive AddressSource
  | straps | setting
deriving DecidableEq, Repr

/-- The result codes (R192). -/
inductive Result
  | ok | badLength | unknownRequest | badField | notFound | duplicate | tableFull | armQueueFull | inUse
  | wrongState | notPermitted | noInjector | doseTooHigh | tooLow | busy | unconfigured
deriving DecidableEq, Repr

/-- The reply to a taken request: echoed code, result and payload. -/
structure Reply where
  code : Byte
  result : Result
  payload : List Byte
deriving DecidableEq, Repr

/-- The station link interface (R176). `reply` is the pending reply; `sending` the reply frame on the
line, LDE being on while it is present (R177); `speed` the line speed in force. -/
structure Link where
  receiver : Receiver
  frame : Option RxFrame
  address : Nat
  source : AddressSource
  reply : Option Reply
  overrun : Bool
  silence : Option Nat
  errors : Nat
  speed : Nat
  sending : Option (List Byte)
deriving DecidableEq, Repr

/-! ## Settings store controller (11) -/

inductive StationMode
  | powerOn | loading | running | unconfigured
deriving DecidableEq, Repr

inductive ResetCause
  | powerOn | resetPin | hostRestart
deriving DecidableEq, Repr

inductive MemLine
  | idle | reading | saving
deriving DecidableEq, Repr

inductive Area
  | m | l
deriving DecidableEq, Repr

/-- Save progress (R199): the area and byte reached, whether that byte is being written (else read), and
the tries left on that byte. -/
structure SaveProgress where
  area : Area
  byte : Nat
  writing : Bool
  tries : Nat
deriving DecidableEq, Repr

/-- The settings store controller. `startTimer` is the end of POWER_ON, absent while the supply is down
or RESETn is low (R193); `mixedM` and `mixedL` say that the area holds the image of a save stopped between
its first changed byte and its CRC (R199); `restart` that an accepted RESTART waits for its reply's end. -/
structure Store where
  mode : StationMode
  cause : ResetCause
  line : MemLine
  save : Option SaveProgress
  sampledStraps : BitVec 5
  filteredStraps : BitVec 5
  startTimer : Option Nat
  supplyUp : Bool
  resetLow : Bool
  restart : Bool
  mixedM : Bool
  mixedL : Bool
deriving DecidableEq, Repr

/-- The settings memory as a list of (address, byte) pairs in canonical form (Machine/Memory.lean). -/
abbrev Memory := List Host.Cell

end Sys2Proof.Machine
end

