-- ==== Sys2Proof/Machine/Defaults.lean ====
section
/-! DEFINITION. The values the blocks hold at every start, and the defaults of the settings table (R201).
State.lean builds `State.reset` from them. -/

namespace Sys2Proof.Machine

/-! ## Defaults of the settings (R201) -/

def ArmSettings.default : ArmSettings where
  inService := false
  period := 100
  lowRate := 400
  highRate := 2400
  lowStart := 200
  taper := 400
  settle := 3
  deadband := 2
  noFlow := 10
  gasComp := 15
  overrunLimit := 5
  leakLimit := 10
  eMax := 600
  catchUp := 10
  monitorStart := 100
  allowance := 5
  ratioDelay := 5
  ethComp := 1000
  finishTimeout := 10

def MeterSettings.default : MeterSettings where
  security := true
  reverseLimit := 20
  window := 1000
  tolerance := 5
  kFactor := 100000
  q1 := 250
  q2 := 1000
  q3 := 2000
  q4 := 3000
  f1 := 10000
  f2 := 10000
  f3 := 10000
  f4 := 10000
  alpha := 1200

def InjSettings.default : InjSettings where
  arm := 0
  code := 1
  stroke := 100
  strokeTime := 250
  tail := 200
  pulses := 400
  tolerance := 10
  catchUp := 3

/-- Kinds 9 (OVERRUN_HIGH) and 10 (OFF_RATIO) are WARN by default, the others STOP (R167). -/
def StationSettings.default : StationSettings where
  holdLimit := 20
  tempHold := 5
  capacity := 0
  lineSpeed := 19200
  linkAddress := 1
  silenceTime := 30
  silenceAction := .hold
  classes := #v[.stop, .stop, .stop, .stop, .stop, .stop, .stop, .stop, .warn, .warn]

def Settings.default : Settings where
  arms := Vector.replicate 8 ArmSettings.default
  meters := Vector.replicate 16 MeterSettings.default
  injectors := Vector.replicate 12 InjSettings.default
  station := StationSettings.default

/-! ## Start values of the blocks -/

/-- R44, R64. -/
def Meter.start : Meter where
  pending := 0
  debt := 0
  windowA := 0
  windowB := 0
  mismatches := 0
  unassigned := 0
  carryI := 0
  carryG := 0
  carryN := 0

/-- R59. -/
def TempChannel.start : TempChannel where
  latest := none
  lastValid := none
  lastValidTime := none
  validCount := 0

/-- R59: no reads in POWER_ON and LOADING. -/
def TempPort.start : TempPort where
  nextA := none
  nextB := none
  readingA := false
  readingB := false

/-- Four copies of one compensation (R79, R106). -/
def History.all (v : Nat) : History := ⟨v, v, v, v⟩

/-- R79, R44 (hold drain). The history is set again when the station leaves LOADING (R79). -/
def ArmSeq.start (h : History) : ArmSeq where
  mode := .outOfService
  checkTimer := none
  sampleClock := none
  gasTarget := 0
  valve := .close
  qGas := 0
  qEth := 0
  gasRun := none
  ethRun := none
  stalled := none
  settle := .stopped
  history := h
  holdDrain := 0

/-- R111. -/
def Ratio.start : Ratio where
  setpoint := 0
  devRun := none
  finishTimer := none

/-- R129. -/
def Reservation.start : Reservation where
  level := .none
  amount := 0
  lowAmount := 0

/-- R148. -/
def Injector.start : Injector where
  state := .masked
  mask := true
  stroke := none
  pulses := 0
  endIssued := 0
  timer := none

/-- R172. -/
def ArmAlarms.start : ArmAlarms where
  latched := []
  first := none
  sources := []

/-- No permissive has been read: every level lost. R163 takes the levels from the leads at entry to
RUNNING or UNCONFIGURED; nothing reads them before (log entry 4). -/
def PermLevels.none : PermLevels where
  estop := false
  headerPress := false
  groundA := false
  overfillA := false
  groundB := false
  overfillB := false
  connected := Vector.replicate 8 false

/-- No push-button has been read: every button released. R103 takes the levels from the leads at entry to
RUNNING; no record that a button could act on stands before (log entry 4). -/
def ButtonLevels.none : ButtonLevels where
  start := Vector.replicate 8 false
  stop := Vector.replicate 8 false

/-- The gas compensation history before the first LOADING: the default setting of 15 L (log entry 4). -/
def History.reset : History := History.all (1000 * ArmSettings.default.gasComp)

end Sys2Proof.Machine
end

