-- ==== Sys2Proof/Machine/State.lean ====
section
/-! DEFINITION. The state of the machine, its stops, and the state right after reset. -/

namespace Sys2Proof.Machine

/-- Everything the spec gives the KL-82, block by block, the queue of waiting commands, and the clock.

`now` is the model's own clock in ms (log entry 1). `pending` is the queue of commands (the model's own).
The attention count (R1), the free capacity (R130) and the outputs (R97, R115, R148, R177) are functions
of these fields (Machine/Ops.lean, Machine/Outputs.lean). -/
structure State where
  now : Nat
  pending : List Instr
  store : Store
  settings : Settings
  memory : Memory
  link : Link
  loads : List Load
  recipes : List Recipe
  arms : Vector ArmSeq 8
  ratios : Vector Ratio 8
  reservations : Vector Reservation 8
  queue : List HeaderRequest
  meters : Vector Meter 16
  channels : Vector TempChannel 16
  port : TempPort
  injectors : Vector Injector 12
  levels : PermLevels
  buttons : ButtonLevels
  alarms : Vector ArmAlarms 8
  stationAlarms : List StationAlarm
deriving DecidableEq, Repr

/-- The faults. -/
inductive Fault
  /-- Raised by SAVE_BYTE_DONE when the save progress names a byte its area does not have, with the address such
  a byte would follow at. Safe: no run from reset reaches such a progress (log entry 39). -/
  | noSuchMemoryByte (address : Nat)
deriving DecidableEq, Repr

/-- The refusals. -/
inductive Refusal
  /-- Raised by `exec` for a command that has no meaning yet. Safe. No command is left so. -/
  | notModelled (mnemonic : String)
deriving DecidableEq, Repr

/-- The link right after reset (R176). Address, source and speed are log entry 4. -/
def Link.reset : Link where
  receiver := .wait
  frame := none
  address := 1
  source := .setting
  reply := none
  overrun := false
  silence := none
  errors := 0
  speed := 19200
  sending := none

/-- The store controller right after reset: a start with cause POWER_ON has begun at moment 0 (R193). -/
def Store.reset : Store where
  mode := .powerOn
  cause := .powerOn
  line := .idle
  save := none
  sampledStraps := 0
  filteredStraps := 0
  startTimer := some 100
  supplyUp := true
  resetLow := false
  restart := false
  mixedM := false
  mixedL := false

/-- The machine right after reset: every block in its start state (R194), a start under way, the settings
memory as nothing has written it. -/
def State.reset : State where
  now := 0
  pending := []
  store := Store.reset
  settings := Settings.default
  memory := []
  link := Link.reset
  loads := []
  recipes := []
  arms := Vector.replicate 8 (ArmSeq.start History.reset)
  ratios := Vector.replicate 8 Ratio.start
  reservations := Vector.replicate 8 Reservation.start
  queue := []
  meters := Vector.replicate 16 Meter.start
  channels := Vector.replicate 16 TempChannel.start
  port := TempPort.start
  injectors := Vector.replicate 12 Injector.start
  levels := PermLevels.none
  buttons := ButtonLevels.none
  alarms := Vector.replicate 8 ArmAlarms.start
  stationAlarms := []

end Sys2Proof.Machine
end

