-- ==== Sys2Proof/Machine/Ops.lean ====
section
/-! DEFINITION. The named operations over State that every meaning is built from: reading and writing one
arm, meter, channel or injector, the numbering of 00_scope.md, the load and recipe tables, the permissive
levels, the temperature port's answer, and the model's clock. -/

namespace Sys2Proof.Machine

/-! ## One update per field of State -/

def State.withNow (s : State) (x : Nat) : State := { s with now := x }

def State.withPending (s : State) (x : List Instr) : State := { s with pending := x }

def State.withStore (s : State) (x : Store) : State := { s with store := x }

def State.withSettings (s : State) (x : Settings) : State := { s with settings := x }

def State.withMemory (s : State) (x : Memory) : State := { s with memory := x }

def State.withLink (s : State) (x : Link) : State := { s with link := x }

def State.withLoads (s : State) (x : List Load) : State := { s with loads := x }

def State.withRecipes (s : State) (x : List Recipe) : State := { s with recipes := x }

def State.withQueue (s : State) (x : List HeaderRequest) : State := { s with queue := x }

def State.withPort (s : State) (x : TempPort) : State := { s with port := x }

def State.withLevels (s : State) (x : PermLevels) : State := { s with levels := x }

def State.withButtons (s : State) (x : ButtonLevels) : State := { s with buttons := x }

def State.withStationAlarms (s : State) (x : List StationAlarm) : State := { s with stationAlarms := x }

/-! ## Reading and writing one arm, meter, channel or injector -/

def State.arm (s : State) (i : ArmId) : ArmSeq := s.arms[i]

def State.setArm (s : State) (i : ArmId) (x : ArmSeq) : State := { s with arms := s.arms.set i x }

def State.modArm (s : State) (i : ArmId) (f : ArmSeq → ArmSeq) : State := s.setArm i (f (s.arm i))

def State.ratio (s : State) (i : ArmId) : Ratio := s.ratios[i]

def State.setRatio (s : State) (i : ArmId) (x : Ratio) : State := { s with ratios := s.ratios.set i x }

def State.modRatio (s : State) (i : ArmId) (f : Ratio → Ratio) : State := s.setRatio i (f (s.ratio i))

def State.resv (s : State) (i : ArmId) : Reservation := s.reservations[i]

def State.setResv (s : State) (i : ArmId) (x : Reservation) : State := { s with reservations := s.reservations.set i x }

def State.modResv (s : State) (i : ArmId) (f : Reservation → Reservation) : State := s.setResv i (f (s.resv i))

def State.meter (s : State) (i : MeterId) : Meter := s.meters[i]

def State.setMeter (s : State) (i : MeterId) (x : Meter) : State := { s with meters := s.meters.set i x }

def State.modMeter (s : State) (i : MeterId) (f : Meter → Meter) : State := s.setMeter i (f (s.meter i))

def State.channel (s : State) (i : MeterId) : TempChannel := s.channels[i]

def State.setChannel (s : State) (i : MeterId) (x : TempChannel) : State := { s with channels := s.channels.set i x }

def State.modChannel (s : State) (i : MeterId) (f : TempChannel → TempChannel) : State := s.setChannel i (f (s.channel i))

def State.injector (s : State) (i : InjId) : Injector := s.injectors[i]

def State.setInjector (s : State) (i : InjId) (x : Injector) : State := { s with injectors := s.injectors.set i x }

def State.modInjector (s : State) (i : InjId) (f : Injector → Injector) : State := s.setInjector i (f (s.injector i))

def State.alarm (s : State) (i : ArmId) : ArmAlarms := s.alarms[i]

def State.setAlarm (s : State) (i : ArmId) (x : ArmAlarms) : State := { s with alarms := s.alarms.set i x }

def State.modAlarm (s : State) (i : ArmId) (f : ArmAlarms → ArmAlarms) : State := s.setAlarm i (f (s.alarm i))

/-! ## Numbering (00_scope.md) -/

/-- Meter 2n − 1 is the gas meter of arm n. -/
def gasMeter (n : ArmId) : MeterId := ⟨2 * n.val, by omega⟩

/-- Meter 2n is the ethanol meter of arm n. -/
def ethMeter (n : ArmId) : MeterId := ⟨2 * n.val + 1, by omega⟩

def meterArm (m : MeterId) : ArmId := ⟨m.val / 2, by omega⟩

def isGasMeter (m : MeterId) : Bool := m.val % 2 == 0

/-- Arms 1 to 4 are in bay A, arms 5 to 8 in bay B. -/
def bayOf (n : ArmId) : Bay := if n.val < 4 then .a else .b

def allArms : List ArmId := [0, 1, 2, 3, 4, 5, 6, 7]

def allInjectors : List InjId := [0, 1, 2, 3, 4, 5, 6, 7, 8, 9, 10, 11]

/-- The arm a request or a setting numbers 1 to 8. -/
def armNumbered (k : Nat) : Option ArmId := if h : 1 ≤ k ∧ k ≤ 8 then some ⟨k - 1, by omega⟩ else none

/-- The manual's number of an arm. -/
def armNumber (n : ArmId) : Nat := n.val + 1

/-! ## Clock -/

/-- The moment of a timer's event is the moment the timer runs out (log entry 1). -/
def State.reach (s : State) (due : Nat) : State := s.withNow (max s.now due)

/-! ## Settings in force -/

def State.armCfg (s : State) (n : ArmId) : ArmSettings := s.settings.arms[n]

def State.meterCfg (s : State) (m : MeterId) : MeterSettings := s.settings.meters[m]

def State.injCfg (s : State) (i : InjId) : InjSettings := s.settings.injectors[i]

/-- The header capacity C (R130). -/
def State.capacity (s : State) : Nat := s.settings.station.capacity

/-- The link answers, and the blocks work, in RUNNING and UNCONFIGURED (R176, R193). -/
def State.operating (s : State) : Bool :=
  match s.store.mode with
  | .running | .unconfigured => true
  | .powerOn | .loading => false

def State.isRunning (s : State) : Bool := s.store.mode == .running

/-! ## Load table -/

/-- READY, DELIVERING or HELD ("active record", 00_scope.md). -/
def Load.isActive (l : Load) : Bool :=
  match l.state with
  | .ready | .delivering | .held => true
  | .staged | .ended => false

/-- A record counts volume while DELIVERING, in any phase, or HELD (R4). -/
def Load.counts (l : Load) : Bool :=
  match l.state with
  | .delivering | .held => true
  | .staged | .ready | .ended => false

/-- The phase of a DELIVERING record. -/
def Load.deliveringPhase (l : Load) : Option Phase := if l.state = .delivering then l.phase else none

/-- Total gross and total net, not limited to the range of a total (R4). -/
def Load.totalGross (l : Load) : Nat := l.gasGross + l.ethGross

def Load.totalNet (l : Load) : Nat := l.gasNet + l.ethNet

def State.load? (s : State) (number : Nat) : Option Load := s.loads.find? (fun l => l.number == number)

/-- The arm's active record: at most one (R7). -/
def State.active (s : State) (n : ArmId) : Option Load := s.loads.find? (fun l => l.arm == n && l.isActive)

def State.modActive (s : State) (n : ArmId) (f : Load → Load) : State :=
  s.withLoads (s.loads.map fun l => if l.arm == n && l.isActive then f l else l)

def State.modLoad (s : State) (number : Nat) (f : Load → Load) : State :=
  s.withLoads (s.loads.map fun l => if l.number == number then f l else l)

/-- The phase of the arm's DELIVERING record. -/
def State.phase (s : State) (n : ArmId) : Option Phase := (s.active n).bind Load.deliveringPhase

/-- The arm has a record that is not ENDED (R29). -/
def State.armLive (s : State) (n : ArmId) : Bool := s.loads.any fun l => l.arm == n && l.state != .ended

/-- Some record of the station is READY, DELIVERING or HELD (R29). -/
def State.anyActive (s : State) : Bool := s.loads.any Load.isActive

/-- The attention count: the number of ENDED records (R1). -/
def State.attention (s : State) : Nat := (s.loads.filter fun l => l.state == .ended).length

/-! ## Recipe table -/

def State.recipe? (s : State) (number : Nat) : Option Recipe := s.recipes.find? (fun r => r.number == number)

/-- The fraction f of a record's recipe, read from the recipe table (R42). Every record names a recipe of
the table (R33); a state that breaks this reads 0 (log entry 21). -/
def State.fraction (s : State) (l : Load) : Nat := ((s.recipe? l.recipe).map (·.fraction)).getD 0

/-- The ratio tolerance of a record's recipe (R42; log entry 21 as for the fraction). -/
def State.tolerance (s : State) (l : Load) : Nat := ((s.recipe? l.recipe).map (·.tolerance)).getD 0

/-! ## Permissive levels (R162) -/

def levelOf (v : PermLevels) : Permissive → Bool
  | .estop => v.estop
  | .headerPress => v.headerPress
  | .ground .a => v.groundA
  | .ground .b => v.groundB
  | .overfill .a => v.overfillA
  | .overfill .b => v.overfillB
  | .armConnected n => v.connected[n]

def setLevel (v : PermLevels) (p : Permissive) (x : Bool) : PermLevels :=
  match p with
  | .estop => { v with estop := x }
  | .headerPress => { v with headerPress := x }
  | .ground .a => { v with groundA := x }
  | .ground .b => { v with groundB := x }
  | .overfill .a => { v with overfillA := x }
  | .overfill .b => { v with overfillB := x }
  | .armConnected n => { v with connected := v.connected.set n x }

/-- Whether a permissive bears on an arm, by its scope (R162). -/
def permissiveBears (p : Permissive) (n : ArmId) : Bool :=
  match p with
  | .estop | .headerPress => true
  | .ground bay | .overfill bay => bayOf n == bay
  | .armConnected k => k == n

/-- The loss source a permissive is recorded as (R164). -/
def lossSourceOf : Permissive → LossSource
  | .estop => .estop
  | .headerPress => .headerPress
  | .ground _ => .ground
  | .overfill _ => .overfill
  | .armConnected _ => .armConnected

/-! ## Push-button levels (R103) -/

def setStart (v : ButtonLevels) (b : ButtonChange) : ButtonLevels := { v with start := v.start.set b.arm b.pressed }

def setStop (v : ButtonLevels) (b : ButtonChange) : ButtonLevels := { v with stop := v.stop.set b.arm b.pressed }

/-- An edge is a change of the filtered level from released to pressed. -/
def isEdge (before after : Bool) : Bool := !before && after

/-! ## Temperature port (R60 to R63) -/

/-- A sample is valid when its good mark is set and its value lies within −40.00 to +60.00 °C (R61). -/
def tempValid (good : Bool) (value : Int) : Bool := good && decide (-4000 ≤ value ∧ value ≤ 6000)

/-- The port's answer for a channel at a moment: a temperature and its held mark, or absent (R62). -/
def TempChannel.answer (c : TempChannel) (now : Nat) : Option (Int × Bool) :=
  match c.lastValid with
  | none => none
  | some v =>
    match c.latest with
    | some t => if tempValid t.good t.value && decide (now - t.time ≤ 500) then some (t.value, false) else some (v, true)
    | none => some (v, true)

def State.tempAnswer (s : State) (m : MeterId) : Option (Int × Bool) := (s.channel m).answer s.now

/-- The value Tc a sample uses (R70); free where R61 says there always is one (log entry 20). -/
def State.sampleTemp (s : State) (m : MeterId) : Int :=
  match s.tempAnswer m with
  | some (v, _) => v
  | none => Config.absentTemperature m s.now

def State.tempHeldMark (s : State) (m : MeterId) : Bool :=
  match s.tempAnswer m with
  | some (_, h) => h
  | none => false

/-- The channel has gone more than the temperature hold time without a valid sample (R63). -/
def State.tempStale (s : State) (m : MeterId) : Bool :=
  match (s.channel m).lastValidTime with
  | some t => decide (1000 * s.settings.station.tempHold < s.now - t)
  | none => false

end Sys2Proof.Machine
end

