-- ==== Sys2Proof/Machine/Flags.lean ====
section
/-! DEFINITION. Sets and flags: alarm classes, what a latched set stands for, the start conditions, and the
bit layouts of R192 for alarm kinds, end flags, permissives and the status header. -/

namespace Sys2Proof.Machine

/-! ## Codes (R192) -/

def AlarmKind.code : AlarmKind → Nat
  | .noFlow => 1
  | .unauthFlow => 2
  | .pulseGas => 3
  | .pulseEth => 4
  | .reverseFlow => 5
  | .ratioDev => 6
  | .addShort => 7
  | .tempFault => 8
  | .overrunHigh => 9
  | .offRatio => 10
  | .permitLoss => 11

def allKinds : List AlarmKind :=
  [.noFlow, .unauthFlow, .pulseGas, .pulseEth, .reverseFlow, .ratioDev, .addShort, .tempFault, .overrunHigh,
    .offRatio, .permitLoss]

def LoadState.code : LoadState → Nat
  | .staged => 1
  | .ready => 2
  | .delivering => 3
  | .held => 4
  | .ended => 5

def Phase.code : Phase → Nat
  | .headerWait => 1
  | .low => 2
  | .high => 3
  | .taper => 4
  | .finish => 5
  | .settle => 6

/-- An absent phase is sent as 0. -/
def phaseCode : Option Phase → Nat
  | none => 0
  | some p => p.code

def EndReason.code : EndReason → Nat
  | .complete => 1
  | .aborted => 2
  | .holdExpired => 3

def HoldCause.code : HoldCause → Nat
  | .host => 1
  | .stopButton => 2
  | .permissive => 3
  | .alarm => 4
  | .linkSilence => 5
  | .broadcast => 6

def ArmMode.code : ArmMode → Nat
  | .outOfService => 1
  | .checking => 2
  | .available => 3

def ResLevel.code : ResLevel → Nat
  | .none => 0
  | .low => 1
  | .high => 2

def Valve.code : Valve → Nat
  | .close => 1
  | .hold => 2
  | .openFurther => 3

def Stalled.code : Stalled → Nat
  | .gas => 1
  | .ethanol => 2
  | .both => 3

def RecipeState.code : RecipeState → Nat
  | .active => 1
  | .retiring => 2

def ResetCause.code : ResetCause → Nat
  | .powerOn => 1
  | .resetPin => 2
  | .hostRestart => 3

def AddressSource.code : AddressSource → Nat
  | .straps => 1
  | .setting => 2

/-- The station states a reply can carry; the station sends none in POWER_ON and LOADING (R176). -/
def StationMode.code : StationMode → Nat
  | .running => 1
  | .unconfigured => 2
  | .powerOn | .loading => 0

def Result.code : Result → Nat
  | .ok => 0x00
  | .badLength => 0x01
  | .unknownRequest => 0x02
  | .badField => 0x03
  | .notFound => 0x04
  | .duplicate => 0x05
  | .tableFull => 0x06
  | .armQueueFull => 0x07
  | .inUse => 0x08
  | .wrongState => 0x09
  | .notPermitted => 0x0A
  | .noInjector => 0x0B
  | .doseTooHigh => 0x0C
  | .tooLow => 0x0D
  | .busy => 0x0E
  | .unconfigured => 0x0F

/-- The code of an optional value, 0 for absent (R192). -/
def codeOr0 (f : α → Nat) : Option α → Nat
  | none => 0
  | some a => f a

/-! ## Alarm classes (R167) -/

/-- The class of a kind: its setting, and STOP for PERMIT_LOSS whatever is set. -/
def StationSettings.classOf (c : StationSettings) (k : AlarmKind) : AlarmClass :=
  if h : k.code ≤ 10 then c.classes[k.code - 1] else .stop

def State.classOf (s : State) (k : AlarmKind) : AlarmClass := s.settings.station.classOf k

/-- The arm's latched set holds a kind whose class is the one named (R175). -/
def State.latchedClass (s : State) (n : ArmId) (c : AlarmClass) : Bool :=
  (s.alarm n).latched.any fun k => s.classOf k == c

/-- A set as a list: a member already there leaves it as it is. -/
def insertOnce [DecidableEq α] (a : α) (l : List α) : List α := if a ∈ l then l else l ++ [a]

/-- A kind joins the latched set, and becomes first alarm when the set was empty (R169). -/
def ArmAlarms.latch (a : ArmAlarms) (k : AlarmKind) : ArmAlarms :=
  { a with
    latched := insertOnce k a.latched
    first := if a.latched.isEmpty then some k else a.first }

def State.latch (s : State) (n : ArmId) (k : AlarmKind) : State := s.modAlarm n (·.latch k)

/-- A station kind joins the station alarm set, where it is held once (R171). -/
def State.latchStation (s : State) (k : StationAlarm) : State := s.withStationAlarms (insertOnce k s.stationAlarms)

/-! ## Start conditions (R11) -/

/-- The permissives that bear on the arm for a recipe of fraction `f` are met (R11, R162). -/
def State.permissivesMet (s : State) (n : ArmId) (f : Nat) : Bool :=
  levelOf s.levels .estop && levelOf s.levels (.ground (bayOf n)) && levelOf s.levels (.overfill (bayOf n))
    && levelOf s.levels (.armConnected n) && (f == 0 || levelOf s.levels .headerPress)

/-- The start conditions of the arm's record `l` (R11). -/
def State.mayStart (s : State) (n : ArmId) (l : Load) : Bool :=
  s.isRunning && (s.arm n).mode == .available && s.permissivesMet n (s.fraction l) && !s.latchedClass n .stop

/-! ## Bits (R192) -/

def EndFlags.none : EndFlags := ⟨false, false, false, false, false⟩

def EndFlags.bits (f : EndFlags) : Nat :=
  Machine.bits [f.offRatio, f.additiveShort, f.tempHeld, f.finishCut, f.overrunHigh]

/-- Bit code − 1 for each kind of a latched set. -/
def latchedBits (l : List AlarmKind) : Nat := bits (allKinds.map fun k => decide (k ∈ l))

def stationAlarmBits (l : List StationAlarm) : Nat :=
  bits ([StationAlarm.linkSilence, .configDefaulted, .addressChanged, .restarted, .saveFailed].map fun k => decide (k ∈ l))

def lossSourceBits (l : List LossSource) : Nat :=
  bits ([LossSource.estop, .headerPress, .ground, .overfill, .armConnected].map fun k => decide (k ∈ l))

/-- The levels of the five permissives that bear on the arm (R162). -/
def State.levelBits (s : State) (n : ArmId) : Nat :=
  bits [levelOf s.levels .estop, levelOf s.levels .headerPress, levelOf s.levels (.ground (bayOf n)),
    levelOf s.levels (.overfill (bayOf n)), levelOf s.levels (.armConnected n)]

/-- A bit per arm, bit n − 1 for arm n. -/
def armBits (f : ArmId → Bool) : Nat := bits (allArms.map f)

/-- Byte 1 of the status header (R189, R192). -/
def State.stationFlags (s : State) : Nat :=
  bits [allArms.any fun n => s.latchedClass n .stop, !s.stationAlarms.isEmpty,
    decide (StationAlarm.restarted ∈ s.stationAlarms), s.link.overrun, s.store.save.isSome]

/-- The six bytes of the status header (R189, R192). -/
def State.statusHeader (s : State) : List Byte :=
  byte1 s.store.mode.code ++ byte1 s.stationFlags
    ++ byte1 (armBits fun n => (s.active n).isSome)
    ++ byte1 (armBits fun n => s.latchedClass n .stop)
    ++ byte1 (armBits fun n => s.latchedClass n .warn)
    ++ byte1 s.attention

end Sys2Proof.Machine
end

