-- ==== Sys2Proof/Machine/Operands.lean ====
section
/-! DEFINITION. The operand forms of the host requests: the fields of a request payload, and the length each
request fits (R183, R192). -/

namespace Sys2Proof.Machine

/-- The field of `width` bytes at an offset of the payload, high byte first (R192). -/
def fieldAt (payload : List Byte) (offset width : Nat) : Nat := fromBytes ((payload.drop offset).take width)

/-- The length N of the frame: the request code and the payload (R180, R192). -/
def frameLength (payload : List Byte) : Nat := payload.length + 1

/-- A frame of more than 250 bytes from its code on is no good frame (R180). -/
def frameExists (payload : List Byte) : Bool := decide (frameLength payload ≤ 250)

/-- The request codes of R192 that a frame for one station may carry, HOLD ALL (50h) apart (R183). -/
def knownCodes : List Byte :=
  [0x01, 0x02, 0x10, 0x11, 0x12, 0x13, 0x14, 0x15, 0x16, 0x17, 0x18, 0x20, 0x21, 0x22, 0x23, 0x24, 0x30, 0x40, 0x41,
    0x42, 0x43]

/-- The code of HOLD ALL (R192). -/
def holdAllCode : Byte := 0x50

/-- A fixed-length request fits only its own N (R183). -/
def fitsLength (n : Nat) (payload : List Byte) : Bool := frameLength payload == n

/-- DEFINE RECIPE and AMEND RECIPE fit when N is 7 plus 3 times their entry count (R183). -/
def fitsRecipe (payload : List Byte) : Bool :=
  decide (7 ≤ frameLength payload) && frameLength payload == 7 + 3 * fieldAt payload 5 1

/-- STAGE LOAD: load number, arm, recipe number, preset (R9, R192). -/
structure StageFields where
  number : Nat
  arm : Nat
  recipe : Nat
  preset : Nat
deriving DecidableEq, Repr

def stageFields (p : List Byte) : StageFields where
  number := fieldAt p 0 2
  arm := fieldAt p 2 1
  recipe := fieldAt p 3 2
  preset := fieldAt p 5 2

/-- `k` recipe entries of three bytes: code 1, dose 2 (R192). -/
def recipeEntries : Nat → List Byte → List RecipeEntry
  | 0, _ => []
  | k + 1, p => ⟨fieldAt p 0 1, fieldAt p 1 2⟩ :: recipeEntries k (p.drop 3)

/-- DEFINE RECIPE and AMEND RECIPE: number, fraction, tolerance, entries (R35, R192). -/
structure RecipeFields where
  number : Nat
  fraction : Nat
  tolerance : Nat
  entries : List RecipeEntry
deriving DecidableEq, Repr

def recipeFields (p : List Byte) : RecipeFields where
  number := fieldAt p 0 2
  fraction := fieldAt p 2 2
  tolerance := fieldAt p 4 1
  entries := recipeEntries (fieldAt p 5 1) (p.drop 6)

/-- Two entries with the same additive code (R35). -/
def codesRepeat : List RecipeEntry → Bool
  | [] => false
  | e :: rest => rest.any (fun x => x.code == e.code) || codesRepeat rest

/-- Check 1 of R35 and R36: every field in range and no code twice. -/
def RecipeFields.inRange (r : RecipeFields) : Bool :=
  decide (1 ≤ r.number ∧ r.number ≤ 999) && decide (r.fraction ≤ 850) && decide (1 ≤ r.tolerance ∧ r.tolerance ≤ 50)
    && decide (r.entries.length ≤ 3)
    && (r.entries.all fun e => decide (1 ≤ e.code ∧ e.code ≤ 8) && decide (1 ≤ e.dose ∧ e.dose ≤ 9999))
    && !codesRepeat r.entries

/-- Check 2 of R9. -/
def StageFields.inRange (r : StageFields) : Bool :=
  decide (1 ≤ r.number ∧ r.number ≤ 65535) && decide (1 ≤ r.arm ∧ r.arm ≤ 8) && decide (1 ≤ r.recipe ∧ r.recipe ≤ 999)
    && decide (50 ≤ r.preset ∧ r.preset ≤ 40000)

end Sys2Proof.Machine
end

