-- ==== Sys2Proof/WellFormed.lean ====
section
/-! DEFINITION. Which commands can reach the part at all: the limits the spec sets to the data of a command. -/

namespace Sys2Proof

open Machine

/-- A length of 1 to 250 (R180). -/
def lengthGood (n : Byte) : Bool := decide (1 ≤ n.toNat ∧ n.toNat ≤ 250)

/-- The frame has not yet all its characters (R180). -/
def RxFrame.incomplete (f : RxFrame) : Bool :=
  match f.bytes with
  | [] => true
  | n :: _ => lengthGood n && decide (f.bytes.length < n.toNat + 3)

/-- The bytes a complete frame's CRC is formed over (R181). -/
def RxFrame.body (f : RxFrame) : List Byte := f.bytes.take (f.bytes.length - 2)

/-- The frame has all its characters, and the CRC it carries is not the one of its bytes (R180, R181). -/
def RxFrame.crcWrong (f : RxFrame) : Bool :=
  match f.bytes with
  | [] => false
  | n :: _ => lengthGood n && f.bytes.length == n.toNat + 3 && f.bytes.drop (f.bytes.length - 2) != crcBytes f.body

/-- The one byte of the frame is a length of 0 or above 250 (R180). -/
def RxFrame.lengthBad (f : RxFrame) : Bool :=
  match f.bytes with
  | [n] => !lengthGood n
  | _ => false

/-- The frame in progress fits the reason it is discarded for. -/
def DiscardReason.fits : DiscardReason → RxFrame → Bool
  | .framingError, f => f.incomplete
  | .badLength, f => f.lengthBad
  | .abandoned _, f => f.incomplete
  | .crcMismatch, f => f.crcWrong

/-- The limits on the data of each command. -/
def Instr.wellFormed : Instr → Bool
  | .loadingEnd spoiledM spoiledL _ _ => decide (spoiledM ≤ 3 ∧ spoiledL ≤ 3)
  | .holdLimitExpiry load => decide (1 ≤ load ∧ load ≤ 65535)
  | .stationStatus p | .readArm p | .stageLoad p | .startLoad p | .holdLoad p | .resumeLoad p | .amendPreset p
  | .abortLoad p | .readLoad p | .retireLoad p | .listLoads p | .defineRecipe p | .amendRecipe p | .retireRecipe p
  | .readRecipe p | .listRecipes p | .clearAlarms p | .readSetting p | .writeSetting p | .saveSettings p
  | .restart p => frameExists p
  | .unknownRequest code p => !knownCodes.contains code && frameExists p
  | .broadcastIgnored code p => !(code == holdAllCode && p.isEmpty) && frameExists p
  | .frameDiscard reason f => reason.fits f
  | .frameIdleTimeout f => f.incomplete
  | .frameForOtherStation mark begun => mark != 0 && begun.all RxFrame.incomplete
  | .powerUp | .powerDown | .resetLow | .resetRelease | .powerOnEnd _ | .strapChange _ | .permissiveLoss _
  | .permissiveRestore _ | .startButtonEdge _ | .stopButtonEdge _ | .meterAEdge _ _ | .meterBEdge _ | .verifyPulse _
  | .tempReadStart _ | .tempReadEnd _ _ | .checkingTimeout _ | .sampleEvent _ | .strokeTimeEnd _ | .verifyTailEnd _
  | .settleExpiry _ | .finishTimeout _ | .saveByteDone _ | .holdAll | .pendingFrameDiscard | .replyBegin | .replyEnd
  | .linkSilence => true

end Sys2Proof
end

