-- ==== Sys2Proof/Decode.lean ====
section
/-! DEFINITION. Reading commands from words and from frames. No row of the opcode table has bits, so no word
spells a command. The host requests reach the part as frames (R180 to R183, R186, R192): `decodeFrame` reads
the command from a frame's bytes after its mark, and `encodeFrame` writes them. -/

namespace Sys2Proof

open Machine

/-- No row of the opcode table gives bits. -/
def decodeTableWord (_nbits _w : Nat) : Option Instr := none

/-! ## Request frames (R183, R192) -/

/-- The command of a good frame for this station: by its code, or UNKNOWN_REQUEST (R183, R192). -/
def requestOf (code : Byte) (p : List Byte) : Instr :=
  if code = 0x01 then .stationStatus p
  else if code = 0x02 then .readArm p
  else if code = 0x10 then .stageLoad p
  else if code = 0x11 then .startLoad p
  else if code = 0x12 then .holdLoad p
  else if code = 0x13 then .resumeLoad p
  else if code = 0x14 then .amendPreset p
  else if code = 0x15 then .abortLoad p
  else if code = 0x16 then .readLoad p
  else if code = 0x17 then .retireLoad p
  else if code = 0x18 then .listLoads p
  else if code = 0x20 then .defineRecipe p
  else if code = 0x21 then .amendRecipe p
  else if code = 0x22 then .retireRecipe p
  else if code = 0x23 then .readRecipe p
  else if code = 0x24 then .listRecipes p
  else if code = 0x30 then .clearAlarms p
  else if code = 0x40 then .readSetting p
  else if code = 0x41 then .writeSetting p
  else if code = 0x42 then .saveSettings p
  else if code = 0x43 then .restart p
  else .unknownRequest code p

/-- The command of a good broadcast frame (R186). -/
def broadcastOf (code : Byte) (p : List Byte) : Instr :=
  if code = holdAllCode ∧ p = [] then .holdAll else .broadcastIgnored code p

/-- The command a frame is, once its last byte has come; none while it is incomplete. `bytes` are those after
the mark, and `broadcast` says that the mark was 0 (R180, R181, R183, R186). -/
def decodeFrame (broadcast : Bool) (bytes : List Byte) : Option Instr :=
  match bytes with
  | [] => none
  | n :: rest =>
    if !lengthGood n then some (.frameDiscard .badLength ⟨broadcast, [n]⟩)
    else if rest.length ≠ n.toNat + 2 then none
    else
      match rest.take n.toNat with
      | [] => none
      | code :: p =>
        if rest.drop n.toNat = crcBytes (n :: code :: p) then
          some (if broadcast then broadcastOf code p else requestOf code p)
        else some (.frameDiscard .crcMismatch ⟨broadcast, bytes⟩)

/-- Whether a request is broadcast, its code and its payload; none for a command that is no good frame. -/
def frameFields : Instr → Option (Bool × Byte × List Byte)
  | .stationStatus p => some (false, 0x01, p)
  | .readArm p => some (false, 0x02, p)
  | .stageLoad p => some (false, 0x10, p)
  | .startLoad p => some (false, 0x11, p)
  | .holdLoad p => some (false, 0x12, p)
  | .resumeLoad p => some (false, 0x13, p)
  | .amendPreset p => some (false, 0x14, p)
  | .abortLoad p => some (false, 0x15, p)
  | .readLoad p => some (false, 0x16, p)
  | .retireLoad p => some (false, 0x17, p)
  | .listLoads p => some (false, 0x18, p)
  | .defineRecipe p => some (false, 0x20, p)
  | .amendRecipe p => some (false, 0x21, p)
  | .retireRecipe p => some (false, 0x22, p)
  | .readRecipe p => some (false, 0x23, p)
  | .listRecipes p => some (false, 0x24, p)
  | .clearAlarms p => some (false, 0x30, p)
  | .readSetting p => some (false, 0x40, p)
  | .writeSetting p => some (false, 0x41, p)
  | .saveSettings p => some (false, 0x42, p)
  | .restart p => some (false, 0x43, p)
  | .unknownRequest code p => some (false, code, p)
  | .holdAll => some (true, holdAllCode, [])
  | .broadcastIgnored code p => some (true, code, p)
  | .powerUp | .powerDown | .resetLow | .resetRelease | .powerOnEnd _ | .loadingEnd _ _ _ _ | .strapChange _
  | .permissiveLoss _ | .permissiveRestore _ | .startButtonEdge _ | .stopButtonEdge _ | .meterAEdge _ _ | .meterBEdge _
  | .verifyPulse _ | .tempReadStart _ | .tempReadEnd _ _ | .checkingTimeout _ | .sampleEvent _ | .strokeTimeEnd _
  | .verifyTailEnd _ | .settleExpiry _ | .finishTimeout _ | .holdLimitExpiry _ | .saveByteDone _ | .frameDiscard _ _
  | .frameIdleTimeout _ | .pendingFrameDiscard | .replyBegin | .replyEnd | .linkSilence | .frameForOtherStation _ _ => none

/-- The bytes of a request frame after its mark: length, code, payload, CRC (R180, R192). -/
def encodeFrame (code : Byte) (p : List Byte) : List Byte :=
  let body := byte1 (p.length + 1) ++ code :: p
  body ++ crcBytes body

end Sys2Proof
end

