-- ==== Sys2Proof/Machine/Arbiter.lean ====
section
/-! DEFINITION. The header arbiter's own arithmetic and updates (07_ethanol_header_allocation.md). The
examination of the head, which hands grants to the arm sequencers, is in Machine/Phases.lean. -/

namespace Sys2Proof.Machine

/-- The sum of the reservation amounts held by all arms (R130). -/
def State.heldSum (s : State) : Nat := (allArms.map fun n => (s.resv n).amount).sum

/-- An amount is at or below the free capacity, C less the sum held (R130). -/
def State.fits (s : State) (amount : Nat) : Bool := decide (s.heldSum + amount ≤ s.capacity)

/-- The amount for a rate at fraction `f`: unclamped, clamped to E_max and to C when C is above 0, and at
least 1 when f is above 0 (R131). -/
def levelAmount (rate f eMax c : Nat) : Nat :=
  let a := min (rate * f * 11 / ((1000 - f) * 10)) eMax
  let b := if 0 < c then min a c else a
  if b = 0 ∧ 0 < f then 1 else b

def State.lowAmountFor (s : State) (n : ArmId) (f : Nat) : Nat :=
  levelAmount (s.armCfg n).lowRate f (s.armCfg n).eMax s.capacity

def State.highAmountFor (s : State) (n : ArmId) (f : Nat) : Nat :=
  levelAmount (s.armCfg n).highRate f (s.armCfg n).eMax s.capacity

/-- A request is granted at once: C is 0, the amount is 0, or the queue is empty and the amount fits
(R132, R133). -/
def State.grantsAtOnce (s : State) (amount : Nat) : Bool :=
  s.capacity == 0 || amount == 0 || (s.queue.isEmpty && s.fits amount)

/-- A request joins the back of the queue (R134). -/
def State.enqueue (s : State) (r : HeaderRequest) : State := s.withQueue (s.queue ++ [r])

/-- The arm's LOW request (R132); whether it was granted at once is the second component. -/
def State.requestLow (s : State) (n : ArmId) (f : Nat) : State × Bool :=
  let a := s.lowAmountFor n f
  let s1 := s.modResv n fun r => { r with lowAmount := a }
  if s1.grantsAtOnce a then (s1.modResv n fun r => { r with level := .low, amount := a }, true)
  else (s1.enqueue ⟨n, .low, a⟩, false)

/-- The arm's upgrade request (R133): it asks for the difference between the HIGH amount and the amount
held. -/
def State.requestUpgrade (s : State) (n : ArmId) (f : Nat) : State × Bool :=
  let asked := s.highAmountFor n f - (s.resv n).amount
  if s.grantsAtOnce asked then
    (s.modResv n fun r => { r with level := .high, amount := r.amount + asked }, true)
  else (s.enqueue ⟨n, .upgrade, asked⟩, false)

/-- The arm's request stands at the head of the queue. -/
def State.atHead (s : State) (n : ArmId) : Bool :=
  match s.queue with
  | [] => false
  | r :: _ => r.arm == n

/-- The arm's request leaves the queue, the others closing up in their order (R138, R139). -/
def State.withdraw (s : State) (n : ArmId) : State := s.withQueue (s.queue.filter fun r => r.arm != n)

/-- A withdrawal alone (R139): the head is examined when the withdrawn request stood there (R135). -/
def State.withdrawThen (examine : State → State) (s : State) (n : ArmId) : State :=
  if s.atHead n then examine (s.withdraw n) else s.withdraw n

/-- A release (R138): the level becomes NONE and the amount 0, the request is withdrawn, and the head is
examined when capacity was freed or the head withdrawn (R135). -/
def State.releaseThen (examine : State → State) (s : State) (n : ArmId) : State :=
  let s1 := (s.withdraw n).modResv n fun r => { r with level := .none, amount := 0 }
  if 0 < (s.resv n).amount || s.atHead n then examine s1 else s1

/-- A taper from HIGH (R137): level LOW at the arm's low amount. -/
def State.dropToLow (s : State) (n : ArmId) : State :=
  s.modResv n fun r => { r with level := .low, amount := r.lowAmount }

/-- The reservation a queued request's grant sets (R136). -/
def State.grantReservation (s : State) (r : HeaderRequest) : State :=
  match r.kind with
  | .low => s.modResv r.arm fun v => { v with level := .low, amount := r.amount }
  | .upgrade => s.modResv r.arm fun v => { v with level := .high, amount := v.amount + r.amount }

end Sys2Proof.Machine
end

