-- ==== Sys2Proof/Machine/Injection.lean ====
section
/-! DEFINITION. The injector controllers' shared operations: intervals, masks, issuing, judging and the
end-of-load strokes (08_additive_injection.md). -/

namespace Sys2Proof.Machine

/-! ## Staging (R146, R147) -/

/-- The interval of an entry, in mL of total net (R146). -/
def interval (stroke dose : Nat) : Nat := stroke * 100000 / dose

/-- The least interval the injector keeps up with at the arm's high rate (R147). -/
def minInterval (highRate : Nat) (c : InjSettings) : Nat := highRate * (c.strokeTime + c.tail) / 60

/-- The injector the map puts on the arm with the code (R5, R144). -/
def State.injectorFor (s : State) (n : ArmId) (code : Nat) : Option InjId :=
  allInjectors.find? fun i => (s.injCfg i).arm == armNumber n && (s.injCfg i).code == code

/-! ## Masks (R149, R155) -/

/-- A mask command: it moves an injector between MASKED and IDLE, and leaves a stroke running. -/
def Injector.command (j : Injector) (on : Bool) : Injector :=
  { j with
    mask := on
    state :=
      match j.state, on with
      | .masked, false => .idle
      | .idle, true => .masked
      | st, _ => st }

/-- The mask command of the arm's sequencer to every injector of the arm's set (R149). -/
def State.maskArm (s : State) (n : ArmId) (on : Bool) : State :=
  allInjectors.foldl (fun s i => if (s.injCfg i).arm == armNumber n then s.modInjector i (·.command on) else s) s

/-! ## Outstanding strokes and issuing (R150, R153) -/

/-- The strokes in flight issued for the record's entry bound to the injector: one or none (R153). -/
def State.inFlight (s : State) (number : Nat) (i : InjId) : Nat :=
  match (s.injector i).stroke with
  | some k => if k.load = some number then 1 else 0
  | none => 0

/-- Strokes due, less verified, less in flight; never below 0 (R153). -/
def State.outstanding (s : State) (l : Load) (e : AddEntry) : Nat := e.due - e.verified - s.inFlight l.number e.injector

/-- The record's phase allows the injector a stroke (R150). -/
def State.phaseAdmits (s : State) (l : Load) (i : InjId) : Bool :=
  match l.deliveringPhase with
  | some .low | some .high | some .taper | some .finish => true
  | some .settle => l.abortTaken == some false && decide ((s.injector i).endIssued < (s.injCfg i).catchUp)
  | some .headerWait | none => false

def State.mayIssue (s : State) (l : Load) (e : AddEntry) : Bool :=
  (s.injector e.injector).state == .idle && !(s.injector e.injector).mask && s.phaseAdmits l e.injector
    && decide (0 < s.outstanding l e)

/-- The record's entry bound to the injector. -/
def Load.entryOf (l : Load) (i : InjId) : Option AddEntry := l.entries.find? fun e => e.injector == i

def Load.modEntry (l : Load) (i : InjId) (f : AddEntry → AddEntry) : Load :=
  { l with entries := l.entries.map fun e => if e.injector == i then f e else e }

/-- The issue of a stroke for the entry of the active record bound to the injector (R150). -/
def State.issueStroke (s : State) (n : ArmId) (l : Load) (i : InjId) : State :=
  (s.modActive n fun l => l.modEntry i fun e => { e with issued := satAdd u32Max e.issued 1 }).modInjector i fun j =>
    { j with
      state := .stroking
      stroke := some ⟨some l.number⟩
      pulses := 0
      endIssued := if l.deliveringPhase = some .settle then j.endIssued + 1 else j.endIssued
      timer := some (s.now + (s.injCfg i).strokeTime) }

/-- The injector issues a stroke if this is a moment at which it may (R150). -/
def State.tryIssue (s : State) (n : ArmId) (i : InjId) : State :=
  match s.active n with
  | none => s
  | some l =>
    match l.entryOf i with
    | none => s
    | some e => if s.mayIssue l e then s.issueStroke n l i else s

/-- Every injector bound to the arm's active record, in entry order, may issue (R150). -/
def State.issueArm (s : State) (n : ArmId) : State :=
  match s.active n with
  | none => s
  | some l => l.entries.foldl (fun s e => s.tryIssue n e.injector) s

/-! ## Strokes due and the end of load (R153, R156) -/

/-- The total net divided by the interval, plus one for a remainder of half the interval or more (R156). -/
def endStrokes (net interval : Nat) : Nat :=
  net / interval + if interval / 2 ≤ net % interval then 1 else 0

/-- Strokes due of an entry after a sample, by where its record stands (R153, R156). -/
def Load.dueAfter (l : Load) (e : AddEntry) : Nat :=
  match l.deliveringPhase, l.abortTaken with
  | some .settle, some true => e.due
  | some .settle, _ => max e.due (min u32Max (endStrokes l.totalNet e.interval))
  | _, _ => min u32Max (l.totalNet / e.interval)

def Load.updateDue (l : Load) : Load := { l with entries := l.entries.map fun e => { e with due := l.dueAfter e } }

/-- The end-of-load strokes set up at an entry to SETTLE with abort taken no (R156). -/
def State.setUpEndStrokes (s : State) (n : ArmId) : State :=
  match s.active n with
  | none => s
  | some l =>
    (l.entries.foldl (fun s e => s.modInjector e.injector fun j => { j with endIssued := 0 }) s).modActive n fun l =>
      { l with entries := l.entries.map fun e => { e with due := max e.due (min u32Max (endStrokes l.totalNet e.interval)) } }

/-! ## Judgement and the end of SETTLE (R152, R157, R158) -/

/-- The count at which a stroke is verified (R152). -/
def InjSettings.threshold (c : InjSettings) : Nat := c.pulses * (100 - c.tolerance) / 100

/-- What a judgement writes into the entry of the stroke (R152). -/
def AddEntry.judged (e : AddEntry) (c : InjSettings) (pulses : Nat) : AddEntry :=
  if c.threshold ≤ pulses then
    { e with
      verified := satAdd u32Max e.verified 1
      injected := satAdd u32Max e.injected (pulses * c.stroke / c.pulses) }
  else e

/-- The injector after a judgement: MASKED when its mask is on, else IDLE (R152). -/
def Injector.afterJudgement (j : Injector) : Injector :=
  { j with state := if j.mask then .masked else .idle, stroke := none, timer := none }

/-- The judgement of the stroke in flight, into the entry it was issued for; a retired record's judgement is
discarded (R24, R152). -/
def State.judge (s : State) (i : InjId) : State :=
  let j := s.injector i
  let s1 :=
    match j.stroke with
    | some ⟨some number⟩ => s.modLoad number fun l => l.modEntry i fun e => e.judged (s.injCfg i) j.pulses
    | _ => s
  s1.modInjector i Injector.afterJudgement

/-- The injector bound to the entry is done for the end of SETTLE (R157). -/
def State.injectorDone (s : State) (l : Load) (e : AddEntry) : Bool :=
  (s.injector e.injector).state == .idle
    && (l.abortTaken == some true || s.outstanding l e == 0
      || decide ((s.injCfg e.injector).catchUp ≤ (s.injector e.injector).endIssued))

/-- ADDITIVE_SHORT at the moment a bound injector becomes done in SETTLE with strokes owed (R158). -/
def State.markShort (s : State) (n : ArmId) (i : InjId) : State :=
  match s.active n with
  | none => s
  | some l =>
    match l.entryOf i with
    | none => s
    | some e =>
      if l.deliveringPhase = some .settle ∧ l.abortTaken = some false ∧ s.injectorDone l e ∧ 0 < s.outstanding l e then
        s.modActive n fun l => { l with flags := { l.flags with additiveShort := true } }
      else s

/-- The arm's record is in SETTLE, its settle timer has expired and every bound injector is done (R93, R157). R25
asks that every injector of the arm be idle; the test reads the injectors bound to the record's entries alone
(DESIGN CHOICE, unsafe, log entry 40). -/
def State.settleOver (s : State) (n : ArmId) : Bool :=
  match s.active n with
  | none => false
  | some l =>
    decide (l.deliveringPhase = some .settle) && (s.arm n).settle == .expired && l.entries.all (s.injectorDone l)

end Sys2Proof.Machine
end

