-- ==== Sys2Proof/Machine/Phases.lean ====
section
/-! DEFINITION. The shared operations of the arm sequencer and the ratio controller: targets, valve
command, setpoint, compare tests, the entries to the phases, the examination of the grant queue, holds,
alarm detections, START, RESUME, ABORT, amendments and the end of a record (01, 05, 06, 07, 09).

An operation that frees header capacity takes the examination to run as an argument: the examination itself
runs these operations with `id`, since what a grant frees is compared in the same examination (R136). -/

namespace Sys2Proof.Machine

/-! ## Ratio arithmetic (06) -/

/-- Required ethanol (R112). -/
def requiredEthanol (gasNet f : Nat) : Nat := gasNet * f / (1000 - f)

/-- The deficit D (R112). -/
def State.deficit (s : State) (l : Load) : Int := (requiredEthanol l.gasNet (s.fraction l) : Int) - l.ethNet

/-- The throttle limit (R116). -/
def throttleLimit (amount f : Nat) : Nat := amount * 10 * (1000 - f) / (11 * f)

/-- Follow term plus catch-up term, clamped to 0 and to the reservation amount (R113). -/
def setpointFor (qGas f : Nat) (d : Int) (catchUp amount : Nat) : Nat :=
  min amount (((qGas * f / (1000 - f) : Nat) : Int) + truncDiv (d * 60) (1000 * catchUp)).toNat

def State.setSetpoint (s : State) (n : ArmId) : State :=
  match s.active n with
  | none => s
  | some l =>
    s.modRatio n fun r =>
      { r with setpoint := setpointFor (s.arm n).qGas (s.fraction l) (s.deficit l) (s.armCfg n).catchUp (s.resv n).amount }

/-- The close test: D is at or below the ethanol compensation (R119). -/
def State.closePasses (s : State) (n : ArmId) : Bool :=
  match s.active n with
  | none => false
  | some l => decide (s.deficit l ≤ (s.armCfg n).ethComp)

/-! ## Gas target and valve command (R94 to R97) -/

/-- The gas target of the arm as it stands (R94). -/
def State.gasTargetFor (s : State) (n : ArmId) : Nat :=
  match s.active n with
  | none => 0
  | some l =>
    let f := s.fraction l
    let throttled := fun rate => if 0 < f then min rate (throttleLimit (s.resv n).amount f) else rate
    match l.deliveringPhase with
    | some .low | some .taper => throttled (s.armCfg n).lowRate
    | some .high => throttled (s.armCfg n).highRate
    | _ => 0

def State.retarget (s : State) (n : ArmId) : State := s.modArm n fun a => { a with gasTarget := s.gasTargetFor n }

/-- The command for a flow against a target and the deadband setting (R95). -/
def valveFor (q target deadband : Nat) : Valve :=
  let db := deadband * target / 100
  if q < target - db then .openFurther else if target + db < q then .close else .hold

def State.decideValve (s : State) (n : ArmId) : State :=
  s.modArm n fun a => { a with valve := valveFor a.qGas a.gasTarget (s.armCfg n).deadband }

/-! ## Compare points (R85) -/

def State.taperPoint (s : State) (n : ArmId) (l : Load) : Int := 1000 * (l.preset : Int) - 1000 * ((s.armCfg n).taper : Int)

def State.lowStartPoint (s : State) (n : ArmId) : Nat := 1000 * (s.armCfg n).lowStart

/-- The current gas compensation (R106). -/
def History.current (h : History) : Nat := (h.h1 + h.h2 + h.h3 + h.h4) / 4

def State.finishPoint (s : State) (n : ArmId) (l : Load) : Int := 1000 * (l.preset : Int) - ((s.arm n).history.current : Int)

/-- The projected total: the deficit counts when it is above 0 (R85). -/
def State.projected (s : State) (l : Load) : Int := (l.totalGross : Int) + max 0 (s.deficit l)

def flowingPhase : Option Phase → Bool
  | some .low | some .high | some .taper => true
  | _ => false

/-! ## Entries to phases (R87 to R92) -/

def State.setPhase (s : State) (n : ArmId) (p : Phase) (upgrade : Option Bool) : State :=
  s.modActive n fun l => { l with phase := some p, upgradePending := upgrade }

/-- Entry to HEADER_WAIT (R87). -/
def State.enterHeaderWait (s : State) (n : ArmId) : State :=
  ((s.setPhase n .headerWait none).modArm n fun a => { a with valve := .close, gasTarget := 0 }).modRatio n fun r =>
    { r with setpoint := 0 }

/-- Entry to HIGH, the reservation being raised already (R89). -/
def State.enterHigh (s : State) (n : ArmId) : State := (s.setPhase n .high none).retarget n

/-- The fall of a reservation from HIGH to LOW, with the setpoint clamped at once (R114, R137). -/
def State.taperReservation (s : State) (n : ArmId) : State :=
  (s.dropToLow n).modRatio n fun r => { r with setpoint := min r.setpoint (s.resv n).lowAmount }

/-- Entry to TAPER (R90): from HIGH the reservation drops and the head is examined; from LOW a queued
upgrade is withdrawn. Outside a sample the valve command is decided at once (R96). -/
def State.enterTaper (examine : State → State) (atOnce : Bool) (s : State) (n : ArmId) : State :=
  let high := s.phase n == some .high
  let s1 := s.setPhase n .taper none
  let s2 := if high then s1.taperReservation n else s1
  let s3 := s2.retarget n
  let s4 := if atOnce then s3.decideValve n else s3
  if high then examine s4 else s4.withdrawThen examine n

/-- Entry to SETTLE (R92), the ethanol shut with it (R120): end strokes are set up and issued when abort
taken is no (R156), and the reservation is released (R138). -/
def State.enterSettle (examine : State → State) (s : State) (n : ArmId) : State :=
  let s1 := s.setPhase n .settle none
  let s2 := s1.modArm n fun a =>
    { a with
      valve := .close
      gasTarget := 0
      gasRun := none
      ethRun := none
      settle := .running (s.now + 1000 * (s.armCfg n).settle) }
  let s3 := s2.modRatio n fun _ => { setpoint := 0, devRun := none, finishTimer := none }
  let s4 := if (s.active n).bind (·.abortTaken) = some false then (s3.setUpEndStrokes n).issueArm n else s3
  s4.releaseThen examine n

/-- Entry to FINISH (R91, R119): the gas closes and the finish timer starts; with f = 0, or outside a sample
when the close test passes, the ethanol is closed at once. -/
def State.enterFinish (examine : State → State) (inSample : Bool) (s : State) (n : ArmId) : State :=
  let s1 := s.setPhase n .finish none
  let s2 := s1.modArm n fun a => { a with valve := .close, gasTarget := 0, gasRun := none, ethRun := none }
  let s3 := s2.modRatio n fun r =>
    { r with devRun := none, finishTimer := some (s.now + 1000 * (s.armCfg n).finishTimeout) }
  let f := ((s.active n).map s.fraction).getD 0
  if f = 0 || (!inSample && s3.closePasses n) then s3.enterSettle examine n else s3

/-! ## Compare tests (R86) -/

def State.taperTest (examine : State → State) (inSample : Bool) (s : State) (n : ArmId) : State :=
  match s.active n with
  | none => s
  | some l =>
    if (l.deliveringPhase = some .low ∨ l.deliveringPhase = some .high) ∧ s.taperPoint n l ≤ l.totalGross then
      s.enterTaper examine (!inSample) n
    else s

def State.lowStartTest (s : State) (n : ArmId) : State :=
  match s.active n with
  | none => s
  | some l =>
    if l.deliveringPhase = some .low ∧ l.upgradePending = some false ∧ s.lowStartPoint n ≤ l.totalGross then
      match s.requestUpgrade n (s.fraction l) with
      | (s1, true) => s1.enterHigh n
      | (s1, false) => s1.setPhase n .low (some true)
    else s

def State.finishTest (examine : State → State) (inSample : Bool) (s : State) (n : ArmId) : State :=
  match s.active n with
  | none => s
  | some l =>
    if flowingPhase l.deliveringPhase ∧ s.finishPoint n l ≤ s.projected l then
      let s1 := if l.deliveringPhase = some .taper then s else s.enterTaper examine (!inSample) n
      s1.enterFinish examine inSample n
    else s

/-- The three tests in their order (R86). -/
def State.compareTests (examine : State → State) (inSample : Bool) (s : State) (n : ArmId) : State :=
  ((s.taperTest examine inSample n).lowStartTest n).finishTest examine inSample n

/-- Entry to LOW by START, RESUME or LOW grant (R88): the valve opens, injectors may issue, the entry
evaluation is made, and the setpoint is set when it leaves the record flowing (R114). -/
def State.enterLow (examine : State → State) (s : State) (n : ArmId) : State :=
  let s1 := (s.setPhase n .low (some false)).modArm n fun a => { a with valve := .openFurther }
  let s2 := (s1.retarget n).issueArm n
  let s3 := s2.compareTests examine false n
  if flowingPhase (s3.phase n) then s3.setSetpoint n else s3

/-! ## Examining the grant queue (R135, R136) -/

/-- The grant of the head of the queue (R136). -/
def State.grant (s : State) (r : HeaderRequest) (rest : List HeaderRequest) : State :=
  let s1 := (s.withQueue rest).grantReservation r
  match r.kind with
  | .low => s1.enterLow id r.arm
  | .upgrade => s1.enterHigh r.arm

/-- At most `k` grants from the head on, each given while the amount asked fits (R135). -/
def State.examineUpTo : Nat → State → State
  | 0, s => s
  | k + 1, s =>
    match s.queue with
    | [] => s
    | r :: rest => if s.capacity == 0 || s.fits r.amount then (s.grant r rest).examineUpTo k else s

/-- The examination of the head (R135). A request is granted once, and a LOW grant may add one upgrade
request, so twice the length of the queue bounds the grants (log entry 22). -/
def State.examine (s : State) : State := s.examineUpTo (2 * s.queue.length)

/-! ## Holds (R15, R99) -/

/-- The hold a record takes: its count and its last cause (R6). -/
def Load.takeHold (l : Load) (c : HoldCause) : Load :=
  { l with holdCount := satAdd 255 l.holdCount 1, lastCause := some c }

/-- When the hold-limit timer of a record held now runs out, if it starts (R17). -/
def State.holdDue (s : State) : Option Nat :=
  if s.settings.station.holdLimit = 0 then none else some (s.now + 60000 * s.settings.station.holdLimit)

/-- The record becomes HELD (R15, R56, R99). -/
def State.hold (s : State) (n : ArmId) (c : HoldCause) : State :=
  let s1 := s.modActive n fun l =>
    { l.takeHold c with
      state := .held
      phase := none
      upgradePending := none
      abortTaken := none
      holdTimer := s.holdDue }
  let s2 := s1.modArm n fun a =>
    { a with valve := .close, gasTarget := 0, gasRun := none, ethRun := none, holdDrain := 0 }
  let s3 := s2.modRatio n fun r => { r with setpoint := 0, devRun := none }
  (s3.maskArm n true).releaseThen State.examine n

/-- A hold cause cuts a record in FINISH (R15). -/
def State.cutFinish (s : State) (n : ArmId) (c : HoldCause) : State :=
  (s.modActive n fun l => { l.takeHold c with flags := { l.flags with finishCut := true } }).enterSettle State.examine n

/-- A hold cause reaching an arm's active record (R15). -/
def State.holdCause (s : State) (n : ArmId) (c : HoldCause) : State :=
  match s.phase n with
  | some .headerWait | some .low | some .high | some .taper => s.hold n c
  | some .finish => s.cutFinish n c
  | some .settle | none => s

/-- A hold cause reaching every arm (R186, R187). The rules give no order of the arms, and which waiting request is
granted between two holds depends on it (R138): the model takes arms 1 to 8 (log entry 36). -/
def State.holdAll (s : State) (c : HoldCause) : State := allArms.foldl (fun s n => s.holdCause n c) s

/-! ## Detections (R169) -/

/-- A detection of an arm kind, by the kind's class in force. -/
def State.detect (s : State) (n : ArmId) (k : AlarmKind) : State :=
  match s.classOf k with
  | .off => s
  | .warn => s.latch n k
  | .stop => (s.latch n k).holdCause n .alarm

def State.detectIf (s : State) (b : Bool) (n : ArmId) (k : AlarmKind) : State := if b then s.detect n k else s

/-! ## Promotion (R8) -/

def State.oldestStaged (s : State) (n : ArmId) : Option Load := s.loads.find? fun l => l.arm == n && l.state == .staged

def State.promote (s : State) (n : ArmId) : State :=
  if (s.active n).isNone && (s.arm n).mode == .available then
    match s.oldestStaged n with
    | some l => s.modLoad l.number fun l => { l with state := .ready }
    | none => s
  else s

/-! ## Arm states (R80 to R83) -/

/-- The sample clock started or restarted now: the first sample comes P/2 later (R83). -/
def State.restartClock (s : State) (n : ArmId) : State :=
  s.modArm n fun a => { a with sampleClock := some (s.now + (s.armCfg n).period / 2) }

/-- The arm becomes AVAILABLE (R82). -/
def State.becomeAvailable (s : State) (n : ArmId) : State :=
  ((s.modArm n fun a => { a with mode := .available, checkTimer := none }).restartClock n).promote n

/-- Both channels of the arm stand at three valid samples in a row (R81). -/
def State.channelsReady (s : State) (n : ArmId) : Bool :=
  (s.channel (gasMeter n)).validCount == 3 && (s.channel (ethMeter n)).validCount == 3

/-- Entry to CHECKING (R81). -/
def State.enterChecking (s : State) (n : ArmId) : State :=
  if s.channelsReady n then s.becomeAvailable n
  else s.modArm n fun a => { a with mode := .checking, checkTimer := some (s.now + 30000) }

/-! ## START and RESUME (R98, R100) -/

/-- The LOW request and the entry it gives: LOW when granted at once, else HEADER_WAIT (R98). -/
def State.askHeader (s : State) (n : ArmId) : State :=
  match s.requestLow n (((s.active n).map s.fraction).getD 0) with
  | (s1, true) => s1.enterLow State.examine n
  | (s1, false) => s1.enterHeaderWait n

/-- What a START sets to 0 in a meter channel (R50). -/
def Meter.clearForStart (m : Meter) : Meter := { m with pending := 0, debt := 0, unassigned := 0 }

/-- A START taken for the arm's record (R12, R50, R98). -/
def State.start (s : State) (n : ArmId) : State :=
  let s1 := s.modActive n fun l => { l with state := .delivering, abortTaken := some false }
  let s2 := (s1.modMeter (gasMeter n) Meter.clearForStart).modMeter (ethMeter n) Meter.clearForStart
  let s3 := s2.modArm n fun a =>
    { a with holdDrain := 0, qGas := 0, qEth := 0, gasRun := none, ethRun := none, stalled := none }
  let s4 := s3.modRatio n fun r => { r with devRun := none }
  ((s4.restartClock n).maskArm n false).askHeader n

/-- A RESUME taken for the arm's record (R16, R100). -/
def State.resume (s : State) (n : ArmId) : State :=
  let s1 := s.modActive n fun l => { l with state := .delivering, abortTaken := some false, holdTimer := none }
  let s2 := s1.modArm n fun a => { a with qGas := 0, qEth := 0, gasRun := none, ethRun := none }
  let s3 := s2.modRatio n fun r => { r with devRun := none }
  ((s3.restartClock n).maskArm n false).askHeader n

/-! ## The end of a record (R25 to R27, R105, R107, R122) -/

/-- The achieved ethanol fraction, per ten-thousand, when total net is above 0 (R27). -/
def Load.achievedFraction (l : Load) : Option Nat :=
  if 0 < l.totalNet then some (roundUp (l.ethNet * 10000) l.totalNet) else none

/-- The achieved fraction differs from the recipe's share by more than the tolerance (R122). -/
def Load.offRatio (l : Load) (f tolerance : Nat) : Bool :=
  match l.achievedFraction with
  | none => false
  | some a => decide (10 * tolerance < ((a : Int) - 10 * (f : Int)).natAbs)

/-- The final total gross less 1,000 times the preset (R27, R107). -/
def Load.overrunError (l : Load) : Int := (l.totalGross : Int) - 1000 * (l.preset : Int)

/-- An end with reason COMPLETE and without FINISH_CUT teaches the compensation (R107). -/
def Load.teaches (l : Load) (r : EndReason) : Bool := r == .complete && !l.flags.finishCut

/-- OVERRUN_HIGH is judged on a teaching end (R107). -/
def Load.overrunTooHigh (l : Load) (r : EndReason) (limit : Nat) : Bool :=
  l.teaches r && decide (1000 * (limit : Int) < l.overrunError)

/-- The record as R25 to R27 complete it. -/
def Load.completed (l : Load) (r : EndReason) (f tolerance limit : Nat) : Load :=
  { l with
    state := .ended
    phase := none
    upgradePending := none
    abortTaken := none
    holdTimer := none
    endReason := some r
    achieved := l.achievedFraction
    overrun := if r = .complete then some l.overrunError else none
    flags :=
      { l.flags with
        offRatio := l.flags.offRatio || l.offRatio f tolerance
        additiveShort := l.flags.additiveShort || l.entries.any fun e => decide (e.verified < e.due)
        overrunHigh := l.flags.overrunHigh || l.overrunTooHigh r limit } }

/-- The needed compensation takes the oldest value's place at the end of the history (R107). -/
def History.teach (h : History) (e : Int) : History :=
  ⟨h.h2, h.h3, h.h4, (max 0 (min 50000 ((h.current : Int) + e))).toNat⟩

/-- The arm's active record becomes ENDED (R25), by a path that has released its reservation. -/
def State.endRecord (s : State) (n : ArmId) (r : EndReason) : State :=
  match s.active n with
  | none => s
  | some l =>
    let limit := (s.armCfg n).overrunLimit
    let s1 := s.modActive n fun l => l.completed r (s.fraction l) (s.tolerance l) limit
    let s2 := (s1.maskArm n true).modArm n fun a =>
      { a with
        settle := .stopped
        valve := .close
        gasTarget := 0
        history := if l.teaches r then a.history.teach l.overrunError else a.history }
    let s3 := s2.modRatio n fun q => { q with setpoint := 0 }
    let s4 := s3.detectIf (l.offRatio (s.fraction l) (s.tolerance l)) n .offRatio
    (s4.detectIf (l.overrunTooHigh r limit) n .overrunHigh).promote n

/-- The end of SETTLE, once the timer has expired and every bound injector is done (R93; log entry 40 on R25). -/
def State.endSettleIfOver (s : State) (n : ArmId) : State :=
  if s.settleOver n then
    s.endRecord n (if (s.active n).bind (·.abortTaken) = some true then .aborted else .complete)
  else s

/-! ## ABORT (R19, R101) and amendments (R102) -/

def State.setAbort (s : State) (n : ArmId) : State := s.modActive n fun l => { l with abortTaken := some true }

/-- An ABORT taken for the arm's DELIVERING or HELD record (R19, R101). -/
def State.abort (s : State) (n : ArmId) : State :=
  match s.phase n with
  | some .headerWait => (s.releaseThen State.examine n).endRecord n .aborted
  | some .low | some .high | some .taper | some .finish => (s.setAbort n).enterSettle State.examine n
  | some .settle => s.setAbort n
  | none => s.endRecord n .aborted

/-- What an accepted amendment does at the arm, the new preset being in the record (R102). -/
def State.amended (s : State) (n : ArmId) : State :=
  match s.active n with
  | none => s
  | some l =>
    match l.deliveringPhase with
    | some .low | some .high => s.compareTests State.examine false n
    | some .taper =>
      if (l.totalGross : Int) < s.taperPoint n l then
        (((s.setPhase n .low (some false)).retarget n).lowStartTest n).finishTest State.examine false n
      else s.finishTest State.examine false n
    | _ => s

end Sys2Proof.Machine
end

