-- ==== Sys2Proof/Machine/Memory.lean ====
section
/-! DEFINITION. The settings memory: 2,048 bytes, area M in bytes 0 to 1,535 and area L in bytes 1,536 to
2,047 (11_start_up_and_stored_settings.md, "the settings memory"). It is kept as a list of (address, byte)
pairs in one canonical form: addresses strictly rising, no entry equal to what an unlisted address reads. -/

namespace Sys2Proof.Machine

/-- What a byte of the memory that nothing has written reads as (DESIGN CHOICE, log entry 6). -/
def unwrittenByte : Byte := 0xFF#8

/-- The memory holds 2,048 bytes. -/
def memorySize : Nat := 2048

/-- The byte at an address. -/
def Memory.read (m : Memory) (a : Nat) : Byte :=
  match m with
  | [] => unwrittenByte
  | c :: rest => if c.1 = a then c.2 else Memory.read rest a

/-- The entry an address needs in the canonical form: none for the unwritten value. -/
def cellFor (a : Nat) (b : Byte) : List Host.Cell := if b = unwrittenByte then [] else [(a, b)]

/-- A byte written: the canonical form is kept. -/
def Memory.write (m : Memory) (a : Nat) (b : Byte) : Memory :=
  match m with
  | [] => cellFor a b
  | c :: rest =>
    if c.1 < a then c :: Memory.write rest a b
    else if c.1 = a then cellFor a b ++ rest
    else cellFor a b ++ c :: rest

/-- Every address of the list is above `a`. -/
def Memory.above (a : Nat) (m : Memory) : Bool := m.all fun c => decide (a < c.1)

/-- The canonical form. -/
def Memory.wf : Memory → Bool
  | [] => true
  | c :: rest => decide (c.1 < memorySize) && decide (c.2 ≠ unwrittenByte) && Memory.above c.1 rest && Memory.wf rest

/-! ## Areas -/

def Area.start : Area → Nat
  | .m => 0
  | .l => 1536

def Area.size : Area → Nat
  | .m => 1536
  | .l => 512

/-- The bytes the CRC of the area is formed over: all but the last two. -/
def Area.dataSize (a : Area) : Nat := a.size - 2

/-- `k` bytes from an address on. -/
def Memory.readRun (m : Memory) (a : Nat) : Nat → List Byte
  | 0 => []
  | k + 1 => m.read a :: m.readRun (a + 1) k

/-- The data bytes of an area, and its stored CRC. -/
def Memory.areaData (m : Memory) (a : Area) : List Byte := m.readRun a.start a.dataSize

def Memory.areaCrc (m : Memory) (a : Area) : List Byte := m.readRun (a.start + a.dataSize) 2

end Sys2Proof.Machine
end

