-- ==== Sys2Proof/Machine/SettingsTable.lean ====
section
/-! DEFINITION. The setting items of R201: scope, range, working value and replacement of each, the rules
between items, and the image of the two areas in the settings memory (R196, R199). -/

namespace Sys2Proof.Machine

/-! ## Scopes (R201) -/

inductive Scope
  | arm | meter | injector | station | kind
deriving DecidableEq, Repr

/-- The scope of an item; none for a number that is not in the table. -/
def itemScope (item : Nat) : Option Scope :=
  if 1 ≤ item ∧ item ≤ 19 then some .arm
  else if 30 ≤ item ∧ item ≤ 43 then some .meter
  else if 50 ≤ item ∧ item ≤ 57 then some .injector
  else if 70 ≤ item ∧ item ≤ 76 then some .station
  else if item = 80 then some .kind
  else none

/-- What an item number and an index name: an element of the working settings, and the item in it. -/
inductive Slot
  | arm (n : ArmId) (item : Nat)
  | meter (m : MeterId) (item : Nat)
  | injector (i : InjId) (item : Nat)
  | station (item : Nat)
  | alarmClass (kind : Fin 11)
deriving DecidableEq, Repr

/-- The slot an item number and an index name, if the index lies in the item's scope (R197, R201). -/
def slotOf (item index : Nat) : Option Slot :=
  match itemScope item with
  | some .arm => if h : 1 ≤ index ∧ index ≤ 8 then some (.arm ⟨index - 1, by omega⟩ item) else none
  | some .meter => if h : 1 ≤ index ∧ index ≤ 16 then some (.meter ⟨index - 1, by omega⟩ item) else none
  | some .injector => if h : 1 ≤ index ∧ index ≤ 12 then some (.injector ⟨index - 1, by omega⟩ item) else none
  | some .station => if index = 0 then some (.station item) else none
  | some .kind => if h : 1 ≤ index ∧ index ≤ 11 then some (.alarmClass ⟨index - 1, by omega⟩) else none
  | none => none

/-! ## Codes of the enumerated items (R201) -/

def boolCode (b : Bool) : Nat := if b then 1 else 0

def AlarmClass.code : AlarmClass → Nat
  | .stop => 1
  | .warn => 2
  | .off => 3

def AlarmClass.ofCode : Nat → AlarmClass
  | 2 => .warn
  | 3 => .off
  | _ => .stop

def SilenceAction.code : SilenceAction → Nat
  | .hold => 1
  | .carryOn => 2

def SilenceAction.ofCode (v : Nat) : SilenceAction := if v = 2 then .carryOn else .hold

/-! ## Working values -/

def ArmSettings.item (c : ArmSettings) : Nat → Nat
  | 1 => boolCode c.inService
  | 2 => c.period
  | 3 => c.lowRate
  | 4 => c.highRate
  | 5 => c.lowStart
  | 6 => c.taper
  | 7 => c.settle
  | 8 => c.deadband
  | 9 => c.noFlow
  | 10 => c.gasComp
  | 11 => c.overrunLimit
  | 12 => c.leakLimit
  | 13 => c.eMax
  | 14 => c.catchUp
  | 15 => c.monitorStart
  | 16 => c.allowance
  | 17 => c.ratioDelay
  | 18 => c.ethComp
  | 19 => c.finishTimeout
  | _ => 0

def ArmSettings.setItem (c : ArmSettings) (v : Nat) : Nat → ArmSettings
  | 1 => { c with inService := v == 1 }
  | 2 => { c with period := v }
  | 3 => { c with lowRate := v }
  | 4 => { c with highRate := v }
  | 5 => { c with lowStart := v }
  | 6 => { c with taper := v }
  | 7 => { c with settle := v }
  | 8 => { c with deadband := v }
  | 9 => { c with noFlow := v }
  | 10 => { c with gasComp := v }
  | 11 => { c with overrunLimit := v }
  | 12 => { c with leakLimit := v }
  | 13 => { c with eMax := v }
  | 14 => { c with catchUp := v }
  | 15 => { c with monitorStart := v }
  | 16 => { c with allowance := v }
  | 17 => { c with ratioDelay := v }
  | 18 => { c with ethComp := v }
  | 19 => { c with finishTimeout := v }
  | _ => c

def MeterSettings.item (c : MeterSettings) : Nat → Nat
  | 30 => boolCode c.security
  | 31 => c.reverseLimit
  | 32 => c.window
  | 33 => c.tolerance
  | 34 => c.kFactor
  | 35 => c.q1
  | 36 => c.q2
  | 37 => c.q3
  | 38 => c.q4
  | 39 => c.f1
  | 40 => c.f2
  | 41 => c.f3
  | 42 => c.f4
  | 43 => c.alpha
  | _ => 0

def MeterSettings.setItem (c : MeterSettings) (v : Nat) : Nat → MeterSettings
  | 30 => { c with security := v == 1 }
  | 31 => { c with reverseLimit := v }
  | 32 => { c with window := v }
  | 33 => { c with tolerance := v }
  | 34 => { c with kFactor := v }
  | 35 => { c with q1 := v }
  | 36 => { c with q2 := v }
  | 37 => { c with q3 := v }
  | 38 => { c with q4 := v }
  | 39 => { c with f1 := v }
  | 40 => { c with f2 := v }
  | 41 => { c with f3 := v }
  | 42 => { c with f4 := v }
  | 43 => { c with alpha := v }
  | _ => c

def InjSettings.item (c : InjSettings) : Nat → Nat
  | 50 => c.arm
  | 51 => c.code
  | 52 => c.stroke
  | 53 => c.strokeTime
  | 54 => c.tail
  | 55 => c.pulses
  | 56 => c.tolerance
  | 57 => c.catchUp
  | _ => 0

def InjSettings.setItem (c : InjSettings) (v : Nat) : Nat → InjSettings
  | 50 => { c with arm := v }
  | 51 => { c with code := v }
  | 52 => { c with stroke := v }
  | 53 => { c with strokeTime := v }
  | 54 => { c with tail := v }
  | 55 => { c with pulses := v }
  | 56 => { c with tolerance := v }
  | 57 => { c with catchUp := v }
  | _ => c

def StationSettings.item (c : StationSettings) : Nat → Nat
  | 70 => c.holdLimit
  | 71 => c.tempHold
  | 72 => c.capacity
  | 73 => c.lineSpeed
  | 74 => c.linkAddress
  | 75 => c.silenceTime
  | 76 => c.silenceAction.code
  | _ => 0

def StationSettings.setItem (c : StationSettings) (v : Nat) : Nat → StationSettings
  | 70 => { c with holdLimit := v }
  | 71 => { c with tempHold := v }
  | 72 => { c with capacity := v }
  | 73 => { c with lineSpeed := v }
  | 74 => { c with linkAddress := v }
  | 75 => { c with silenceTime := v }
  | 76 => { c with silenceAction := .ofCode v }
  | _ => c

/-- The class of the kind with code `k + 1`; kind 11 is STOP whatever is written (R167). -/
def StationSettings.classItem (c : StationSettings) (k : Fin 11) : AlarmClass :=
  if h : k.val < 10 then c.classes[k.val] else .stop

def StationSettings.setClass (c : StationSettings) (k : Fin 11) (v : AlarmClass) : StationSettings :=
  if h : k.val < 10 then { c with classes := c.classes.set k.val v } else c

/-- The working value of a slot (R197). -/
def Settings.get (c : Settings) : Slot → Nat
  | .arm n item => c.arms[n].item item
  | .meter m item => c.meters[m].item item
  | .injector i item => c.injectors[i].item item
  | .station item => c.station.item item
  | .alarmClass k => (c.station.classItem k).code

/-- The working settings with the value of one slot replaced (R198). -/
def Settings.put (c : Settings) (v : Nat) : Slot → Settings
  | .arm n item => { c with arms := c.arms.set n (c.arms[n].setItem v item) }
  | .meter m item => { c with meters := c.meters.set m (c.meters[m].setItem v item) }
  | .injector i item => { c with injectors := c.injectors.set i (c.injectors[i].setItem v item) }
  | .station item => { c with station := c.station.setItem v item }
  | .alarmClass k => { c with station := c.station.setClass k (.ofCode v) }

/-! ## Ranges (R201) -/

def within (lo hi v : Nat) : Bool := decide (lo ≤ v ∧ v ≤ hi)

/-- A value lies within the range of an item; kind 11 of item 80 is fixed at 1. -/
def itemInRange (item index v : Nat) : Bool :=
  match item with
  | 1 => within 0 1 v
  | 2 => v == 50 || v == 100 || v == 200 || v == 250
  | 3 => within 50 1000 v
  | 4 => within 200 4000 v
  | 5 => within 10 1000 v
  | 6 => within 20 2000 v
  | 7 => within 1 10 v
  | 8 => within 0 10 v
  | 9 => within 2 60 v
  | 10 => within 0 50 v
  | 11 => within 0 100 v
  | 12 => within 1 50 v
  | 13 => within 20 3000 v
  | 14 => within 2 60 v
  | 15 => within 0 1000 v
  | 16 => within 0 20 v
  | 17 => within 1 30 v
  | 18 => within 0 5000 v
  | 19 => within 5 60 v
  | 30 => within 0 1 v
  | 31 => within 1 10000 v
  | 32 => within 100 10000 v
  | 33 => within 1 50 v
  | 34 => within 1000 9999999 v
  | 35 | 36 | 37 | 38 => within 0 5000 v
  | 39 | 40 | 41 | 42 => within 9000 11000 v
  | 43 => within 500 1500 v
  | 50 => within 0 8 v
  | 51 => within 1 8 v
  | 52 => within 10 500 v
  | 53 => within 100 2000 v
  | 54 => within 50 1000 v
  | 55 => within 1 10000 v
  | 56 => within 0 50 v
  | 57 => within 1 10 v
  | 70 => within 0 60 v
  | 71 => within 2 60 v
  | 72 => within 0 6000 v
  | 73 => v == 9600 || v == 19200 || v == 38400 || v == 57600 || v == 115200
  | 74 => within 1 31 v
  | 75 => v == 0 || within 5 300 v
  | 76 => within 1 2 v
  | 80 => if index = 11 then v == 1 else within 1 3 v
  | _ => false

/-! ## Rules between items (R68, R108, R145, R196) -/

/-- The four curve points are strictly ascending (R68). -/
def MeterSettings.ascending (c : MeterSettings) : Bool := decide (c.q1 < c.q2 ∧ c.q2 < c.q3 ∧ c.q3 < c.q4)

/-- The low rate is not above the high rate (R108). -/
def ArmSettings.ratesOrdered (c : ArmSettings) : Bool := decide (c.lowRate ≤ c.highRate)

/-- The additive codes of the injectors on an arm, in injector order. -/
def Settings.setCodes (c : Settings) (arm : Nat) : List Nat :=
  (allInjectors.filter fun i => c.injectors[i].arm == arm).map fun i => c.injectors[i].code

/-- No value stands twice in a list. -/
def noRepeat : List Nat → Bool
  | [] => true
  | a :: l => !l.contains a && noRepeat l

/-- An arm's injector set holds at most 3 injectors, no two with the same code; arm 0 is no arm (R144). -/
def Settings.injectorSetOk (c : Settings) (arm : Nat) : Bool :=
  arm == 0 || (decide ((c.setCodes arm).length ≤ 3) && noRepeat (c.setCodes arm))

def allMeters : List MeterId := [0, 1, 2, 3, 4, 5, 6, 7, 8, 9, 10, 11, 12, 13, 14, 15]

/-- Every rule between items of area M holds (R196). -/
def Settings.rulesHold (c : Settings) : Bool :=
  (allArms.all fun n => c.arms[n].ratesOrdered && c.injectorSetOk (armNumber n))
    && allMeters.all fun m => c.meters[m].ascending

/-- The rule a written slot could break, on the settings as they would be (R198, check 4). -/
def Settings.ruleHolds (c : Settings) : Slot → Bool
  | .arm n item => if item = 3 ∨ item = 4 then c.arms[n].ratesOrdered else true
  | .meter m item => if 35 ≤ item ∧ item ≤ 38 then c.meters[m].ascending else true
  | .injector i item => if item = 50 ∨ item = 51 then c.injectorSetOk c.injectors[i].arm else true
  | .station _ | .alarmClass _ => true

/-! ## The image of an area (log entry 5) -/

/-- `k` numbers from `a` on. -/
def upFrom (a : Nat) : Nat → List Nat
  | 0 => []
  | k + 1 => a :: upFrom (a + 1) k

/-- Items `first`, … with every index `from`, …: item by item, in index order. -/
def slotsOf (first items fromIndex indices : Nat) : List (Nat × Nat) :=
  (upFrom first items).flatMap fun item => (upFrom fromIndex indices).map fun index => (item, index)

/-- The items of an area with their indices, in the order of the settings table (log entry 5). -/
def Area.slots : Area → List (Nat × Nat)
  | .m => slotsOf 1 19 1 8 ++ slotsOf 30 14 1 16 ++ slotsOf 50 8 1 12
  | .l => slotsOf 70 7 0 1 ++ slotsOf 80 1 1 11

/-- The working value of an item and an index. -/
def Settings.value (c : Settings) (item index : Nat) : Nat :=
  match slotOf item index with
  | some slot => c.get slot
  | none => 0

/-- The data bytes of an area: three for each item, high byte first, the rest 0 (log entry 5). -/
def Settings.areaData (c : Settings) (a : Area) : List Byte :=
  let items := a.slots.flatMap fun p => be24 (c.value p.1 p.2)
  items ++ List.replicate (a.dataSize - items.length) 0

/-- The whole image of an area: its data bytes and their CRC, high byte first (R199). -/
def Settings.areaImage (c : Settings) (a : Area) : List Byte := c.areaData a ++ crcBytes (c.areaData a)

/-- Read the items of an area out of its bytes into the settings; none when a value lies outside its range. -/
def Settings.takeItems : Settings → List (Nat × Nat) → List Byte → Option Settings
  | c, [], _ => some c
  | c, p :: rest, b2 :: b1 :: b0 :: bytes =>
    let v := fromBytes [b2, b1, b0]
    if itemInRange p.1 p.2 v then
      match slotOf p.1 p.2 with
      | some slot => (c.put v slot).takeItems rest bytes
      | none => none
    else none
  | _, _ :: _, _ => none

/-- An area read by an attempt that meets no bad byte: the settings it gives, or none when it fails. `c` are
the settings read so far, whose own items keep the rules between items (R196). -/
def Settings.loadArea (c : Settings) (a : Area) (m : Memory) (mixed : Bool) : Option Settings :=
  if mixed then none
  else
    match c.takeItems a.slots (m.areaData a) with
    | none => none
    | some c' =>
      if c'.rulesHold && m.areaCrc a == crcBytes (m.areaData a) then some c' else none

end Sys2Proof.Machine
end

