-- ==== Sys2Proof/Machine/StartUp.lean ====
section
/-! DEFINITION. Starts of the station (R193 to R196): POWER_UP, POWER_DOWN, RESET_LOW, RESET_RELEASE,
POWER_ON_END, LOADING_END and STRAP_CHANGE. -/

namespace Sys2Proof.Machine

/-! ## The start state of the blocks (R194) -/

/-- R176. Address, source and line speed stand until the start sets them again (R178). -/
def Link.atStart (k : Link) : Link :=
  { k with receiver := .wait, frame := none, reply := none, overrun := false, silence := none, errors := 0, sending := none }

/-- R194: the memory line IDLE, save progress absent. The straps stand until they are sampled again. -/
def Store.atStart (t : Store) : Store :=
  { t with mode := .powerOn, line := .idle, save := none, startTimer := none, restart := false }

/-- Every block in its start state (R194). The settings memory, the working settings, the permissive levels, the
push-button levels and the compensation histories stand until LOADING ends (R79, R103, R163, R196). A save under way
is abandoned; a byte whose write the start meets in flight is left as stored, and marks no area as mixed (DESIGN
CHOICE, unsafe, log entry 42). -/
def State.startState (s : State) : State :=
  { s with
    store := s.store.atStart
    link := s.link.atStart
    loads := []
    recipes := []
    arms := #v[.start (s.arm 0).history, .start (s.arm 1).history, .start (s.arm 2).history, .start (s.arm 3).history,
      .start (s.arm 4).history, .start (s.arm 5).history, .start (s.arm 6).history, .start (s.arm 7).history]
    ratios := Vector.replicate 8 Ratio.start
    reservations := Vector.replicate 8 Reservation.start
    queue := []
    meters := Vector.replicate 16 Meter.start
    channels := Vector.replicate 16 TempChannel.start
    port := TempPort.start
    injectors := Vector.replicate 12 Injector.start
    alarms := Vector.replicate 8 ArmAlarms.start
    stationAlarms := [] }

/-- POWER_ON ends 100 ms after the event, when the supply stands and RESETn is high (R193). -/
def Store.beginTimer (t : Store) (now : Nat) : Store :=
  { t with startTimer := if t.supplyUp && !t.resetLow then some (now + 100) else none }

/-- A start begins, with its reset cause; a start under way is abandoned (R193). -/
def State.beginStart (s : State) (c : ResetCause) : State :=
  let s1 := s.startState
  s1.withStore ({ s1.store with cause := c }.beginTimer s1.now)

/-! ## The commands of the supply and of RESETn (R193) -/

/-- POWER_UP: the supply reaches its operating level. -/
def execPowerUp (s : State) : Host.Outcome State Fault Refusal :=
  .next ((s.withStore { s.store with supplyUp := true }).beginStart .powerOn)

/-- POWER_DOWN: the station stays at the beginning of the start (log entry 23). -/
def execPowerDown (s : State) : Host.Outcome State Fault Refusal :=
  .next ((s.withStore { s.store with supplyUp := false }).startState)

/-- RESET_LOW: the station stays at the beginning of the start (log entry 23). -/
def execResetLow (s : State) : Host.Outcome State Fault Refusal :=
  .next ((s.withStore { s.store with resetLow := true }).startState)

/-- RESET_RELEASE: the RESETn lead rises. -/
def execResetRelease (s : State) : Host.Outcome State Fault Refusal :=
  .next ((s.withStore { s.store with resetLow := false }).beginStart .resetPin)

/-! ## End of POWER_ON (R195, R178, R196) -/

/-- A strap number of 1 to 31 becomes the station address (R178). -/
def Link.takeStraps (k : Link) (straps : BitVec 5) : Link :=
  if straps = 0 then k else { k with address := straps.toNat, source := .straps }

/-- POWER_ON_END: the straps are sampled and the station enters LOADING. -/
def execPowerOnEnd (straps : BitVec 5) (s : State) : Host.Outcome State Fault Refusal :=
  match s.store.mode, s.store.startTimer with
  | .powerOn, some due =>
    let s1 := s.reach due
    .next ((s1.withStore
      { s1.store with mode := .loading, line := .reading, sampledStraps := straps, startTimer := none }).withLink
        (s1.link.takeStraps straps))
  | _, _ => .next s

/-! ## End of LOADING (R196, R193, R195, R178, R79, R163, R187, R60) -/

/-- The settings an area gives in up to three attempts, `spoiled` of which met a bad byte; none when it
fails (R196). -/
def State.readArea (s : State) (c : Settings) (a : Area) (mixed : Bool) (spoiled : Nat) : Option Settings :=
  if spoiled < 3 then c.loadArea a s.memory mixed else none

/-- The working settings of a start, and whether area M and area L were read valid (R196). -/
def State.loadSettings (s : State) (spoiledM spoiledL : Nat) : Settings × Bool × Bool :=
  let m := s.readArea Settings.default .m s.store.mixedM spoiledM
  let c := m.getD Settings.default
  let l := s.readArea c .l s.store.mixedL spoiledL
  (l.getD c, m.isSome, l.isSome)

/-- The link at the end of LOADING: the line speed in force, the address from its setting when the straps
read 0 (R178), and the silence timer, for a silence time above 0 (R187). -/
def Link.afterLoading (k : Link) (c : StationSettings) (straps : BitVec 5) (now : Nat) : Link :=
  let k1 := { k with speed := c.lineSpeed, silence := if c.silenceTime = 0 then none else some (now + 1000 * c.silenceTime) }
  if straps = 0 then { k1 with address := c.linkAddress, source := .setting } else k1

/-- The compensation histories when the station leaves LOADING (R79). -/
def State.setHistories (s : State) : State :=
  allArms.foldl (fun s n => s.modArm n fun a => { a with history := History.all (1000 * (s.armCfg n).gasComp) }) s

/-- The first reads of the two converters (R60; log entry 19). -/
def State.startPort (s : State) : State :=
  s.withPort { nextA := some s.now, nextB := some (s.now + 50), readingA := false, readingB := false }

/-- RESTARTED, CONFIG_DEFAULTED and ADDRESS_CHANGED at the entry (R193, R195). -/
def State.latchEntry (s : State) (lValid : Bool) (straps : BitVec 5) : State :=
  let s1 := s.latchStation .restarted
  let s2 := if lValid then s1 else s1.latchStation .configDefaulted
  if straps = s2.store.sampledStraps then s2 else s2.latchStation .addressChanged

/-- Each arm in service enters CHECKING (R79). -/
def State.checkArms (s : State) : State :=
  allArms.foldl (fun s n => if (s.armCfg n).inService then s.enterChecking n else s) s

/-- LOADING_END. At entry to RUNNING the filtered level of every push-button is taken from its lead, without an edge
(R103). -/
def execLoadingEnd (spoiledM spoiledL : Nat) (leads : Leads) (straps : BitVec 5) (s : State) :
    Host.Outcome State Fault Refusal :=
  match s.store.mode with
  | .loading =>
    let r := s.loadSettings spoiledM spoiledL
    let s1 := (s.withSettings r.1).withStore
      { s.store with mode := if r.2.1 then .running else .unconfigured, line := .idle, filteredStraps := straps }
    let s2 := (s1.withLink (s1.link.afterLoading r.1.station s1.store.sampledStraps s1.now)).withLevels leads.permissives
    let s3 := (s2.setHistories.startPort).latchEntry r.2.2 straps
    .next (if r.2.1 then (s3.withButtons leads.buttons).checkArms else s3)
  | .powerOn | .running | .unconfigured => .next s

/-! ## Straps (R195) -/

/-- STRAP_CHANGE: the filtered strap number changes; it is watched in RUNNING and UNCONFIGURED. -/
def execStrapChange (straps : BitVec 5) (s : State) : Host.Outcome State Fault Refusal :=
  if s.operating && straps != s.store.filteredStraps then
    let s1 := s.withStore { s.store with filteredStraps := straps }
    .next (if straps = s.store.sampledStraps then s1 else s1.latchStation .addressChanged)
  else .next s

end Sys2Proof.Machine
end

