-- ==== Sys2Proof/Machine/Link.lean ====
section
/-! DEFINITION. The station link interface: taking a request, the reply, frames that are discarded or passed
over, the broadcasts, and silence supervision (10_station_link.md). -/

namespace Sys2Proof.Machine

/-! ## The receiver -/

/-- The receiver reads LRX: not in POWER_ON or LOADING, and not while LDE is on (R176, R177). -/
def State.listening (s : State) : Bool := s.operating && s.link.sending.isNone

/-- The counter of discarded frames, saturating (R182). -/
def Link.countError (k : Link) : Link := { k with errors := satAdd u16Max k.errors 1 }

/-- The frame in progress is of the other kind than a frame that arrives whole: it has been abandoned, and is
counted (R179, R180). -/
def Link.abandonOther (k : Link) (broadcast : Bool) : Link :=
  match k.frame with
  | some f => if f.broadcast == broadcast then k else k.countError
  | none => k

/-- The receiver after a frame it has done with. -/
def Link.toState (k : Link) (r : Receiver) (f : Option RxFrame) : Link := { k with receiver := r, frame := f }

/-- A frame for this station or broadcast while a reply is pending (R185). -/
def State.discardPending (s : State) : State :=
  s.withLink { (s.link.countError).toState .skip none with overrun := true }

/-- The silence timer for the silence time in force now; stopped for 0 (R187, R188). -/
def State.restartSilence (s : State) : State :=
  let t := s.settings.station.silenceTime
  s.withLink { s.link with silence := if t = 0 then none else some (s.now + 1000 * t) }

/-- A good frame: the receiver returns to WAIT and the silence timer restarts (R180, R183, R186). -/
def State.receiveGood (s : State) (broadcast : Bool) : State :=
  (s.withLink ((s.link.abandonOther broadcast).toState .wait none)).restartSilence

/-! ## Taking a request (R183) -/

/-- What the owner of a request answers. -/
structure Answer where
  state : State
  result : Result
  payload : List Byte
deriving DecidableEq, Repr

/-- A refusal changes nothing and carries no payload (R184). -/
def Answer.refuse (s : State) (r : Result) : Answer := ⟨s, r, []⟩

def Answer.ok (s : State) (payload : List Byte) : Answer := ⟨s, .ok, payload⟩

/-- The answer becomes the pending reply. -/
def Answer.pend (a : Answer) (code : Byte) : State :=
  a.state.withLink { a.state.link with reply := some ⟨code, a.result, a.payload⟩ }

/-- A good frame for this station with a known code: while a reply is pending it is discarded (R185),
otherwise its length is checked and its owner answers (R183). -/
def State.takeRequest (s : State) (code : Byte) (payload : List Byte) (fits : Bool) (owner : State → Answer) : State :=
  if s.listening && frameExists payload then
    if s.link.reply.isSome then s.discardPending
    else
      let s1 := s.receiveGood false
      (if fits then owner s1 else .refuse s1 .badLength).pend code
  else s

/-- UNKNOWN_REQUEST: a code that is not known, or HOLD ALL addressed to this station (R183). -/
def execUnknownRequest (code : Byte) (payload : List Byte) (s : State) : Host.Outcome State Fault Refusal :=
  if knownCodes.contains code then .next s
  else .next (s.takeRequest code payload true fun s1 => .refuse s1 .unknownRequest)

/-! ## Broadcasts (R186) -/

/-- A good broadcast frame with the effect given, or its discard while a reply is pending (R185, R186). -/
def State.takeBroadcast (s : State) (effect : State → State) : State :=
  if s.listening then
    if s.link.reply.isSome then s.discardPending else effect (s.receiveGood true)
  else s

/-- HOLD_ALL: a hold cause BROADCAST for every arm. -/
def execHoldAll (s : State) : Host.Outcome State Fault Refusal := .next (s.takeBroadcast (·.holdAll .broadcast))

/-- BROADCAST_IGNORED: the silence timer restarts, and nothing else. -/
def execBroadcastIgnored (code : Byte) (payload : List Byte) (s : State) : Host.Outcome State Fault Refusal :=
  if frameExists payload && !(code == holdAllCode && payload.isEmpty) then .next (s.takeBroadcast id) else .next s

/-! ## Discarded frames (R180, R182, R185) -/

/-- The frame in progress is discarded and counted; the receiver goes on as given. With a reply pending no
frame is in progress, since its mark would have been discarded (R185; log entry 2). -/
def State.discardFrame (s : State) (frame : RxFrame) (r : Receiver) (f : Option RxFrame) : State :=
  if s.listening && s.link.reply.isNone then
    s.withLink (((s.link.abandonOther frame.broadcast).countError).toState r f)
  else s

/-- FRAME_DISCARD: the receiver returns to WAIT, but goes on with the new frame at an abandoning mark (R179,
R180). -/
def execFrameDiscard (reason : DiscardReason) (frame : RxFrame) (s : State) : Host.Outcome State Fault Refusal :=
  match reason with
  | .abandoned broadcast => .next (s.discardFrame frame .receive (some ⟨broadcast, []⟩))
  | .framingError | .badLength | .crcMismatch => .next (s.discardFrame frame .wait none)

/-- FRAME_IDLE_TIMEOUT (R180). -/
def execFrameIdleTimeout (frame : RxFrame) (s : State) : Host.Outcome State Fault Refusal :=
  .next (s.discardFrame frame .wait none)

/-- PENDING_FRAME_DISCARD (R185). -/
def execPendingFrameDiscard (s : State) : Host.Outcome State Fault Refusal :=
  if s.listening && s.link.reply.isSome then .next s.discardPending else .next s

/-- The frame in progress that a mark for another station abandons: the one that began since the last
command, after the one the receiver holds when that is of the other kind. -/
def Link.abandonFor (k : Link) (begun : Option RxFrame) : Link :=
  match begun, k.frame with
  | some f, _ => (k.abandonOther f.broadcast).countError
  | none, some _ => k.countError
  | none, none => k

/-- FRAME_FOR_OTHER_STATION: SKIP, a frame in progress being abandoned and counted (R179, R180). While a
reply is pending it is passed over and sets nothing (R185). -/
def execFrameForOtherStation (mark : Byte) (begun : Option RxFrame) (s : State) : Host.Outcome State Fault Refusal :=
  if s.listening && mark.toNat != 0 && mark.toNat != s.link.address then
    if s.link.reply.isSome then .next (s.withLink (s.link.toState .skip none))
    else .next (s.withLink ((s.link.abandonFor begun).toState .skip none))
  else .next s

/-! ## The reply (R184, R188, R189) -/

/-- The bytes a CRC of the reply is formed over: length, echoed code, result, header, payload (R184). -/
def replyBody (r : Reply) (header : List Byte) : List Byte :=
  byte1 (8 + r.payload.length) ++ [r.code] ++ byte1 r.result.code ++ header ++ r.payload

/-- The reply frame: the address byte is 40h plus the station address (R184, R192). -/
def replyFrame (address : Nat) (r : Reply) (header : List Byte) : List Byte :=
  byte1 (64 + address) ++ replyBody r header ++ crcBytes (replyBody r header)

/-- REPLY_BEGIN: the status header is built, LDE turns on, reply pending becomes no and the overrun flag
clears (R184, R185). -/
def execReplyBegin (s : State) : Host.Outcome State Fault Refusal :=
  match s.link.reply, s.link.sending with
  | some r, none =>
    .next (s.withLink
      { s.link with sending := some (replyFrame s.link.address r s.statusHeader), reply := none, overrun := false })
  | _, _ => .next s

/-- REPLY_END: LDE turns off, the line speed in force becomes the working setting's (R188), and an accepted
RESTART begins its start (R193, R200). -/
def execReplyEnd (s : State) : Host.Outcome State Fault Refusal :=
  match s.link.sending with
  | some _ =>
    let s1 := s.withLink
      { s.link.toState .wait none with sending := none, speed := s.settings.station.lineSpeed }
    .next (if s.store.restart then s1.beginStart .hostRestart else s1)
  | none => .next s

/-! ## Silence supervision (R187) -/

/-- LINK_SILENCE: the silence timer expires. -/
def execLinkSilence (s : State) : Host.Outcome State Fault Refusal :=
  match s.link.silence with
  | some due =>
    let s1 := s.reach due
    let s2 := (s1.withLink { s1.link with silence := none }).latchStation .linkSilence
    .next (match s2.settings.station.silenceAction with
      | .hold => s2.holdAll .linkSilence
      | .carryOn => s2)
  | none => .next s

end Sys2Proof.Machine
end

