-- ==== Sys2Proof/Machine/Volume.lean ====
section
/-! DEFINITION. The volume arithmetic of one meter at one sample (04_volume_arithmetic.md), and adding its
increments to a record, to a hold drain or to unassigned volume. -/

namespace Sys2Proof.Machine

/-- The factor at flow rate `q` on the segment from (qa, fa) to (qb, fb): the increment is rounded to
nearest, halves away from zero, and added to the factor at the segment's start (R67). -/
def segmentFactor (qa fa qb fb q : Nat) : Nat :=
  ((fa : Int) + roundAway (((fb : Int) - fa) * ((q : Int) - qa)) (qb - qa)).toNat

/-- The meter factor at flow rate `q` (R67). -/
def MeterSettings.factor (c : MeterSettings) (q : Nat) : Nat :=
  if q ≤ c.q1 then c.f1
  else if q < c.q2 then segmentFactor c.q1 c.f1 c.q2 c.f2 q
  else if q < c.q3 then segmentFactor c.q2 c.f2 c.q3 c.f3 q
  else if q < c.q4 then segmentFactor c.q3 c.f3 c.q4 c.f4 q
  else c.f4

/-- The volume correction factor, in ppm (R71). -/
def vcf (alpha : Nat) (tc : Int) : Nat := (1000000 - roundAway ((alpha : Int) * (tc - 1500)) 100).toNat

/-- What one meter's stages give at a sample: the channel after it, the flow rate, and the gross and net
increments. -/
structure MeterSample where
  meter : Meter
  flow : Nat
  gross : Nat
  net : Nat
deriving DecidableEq, Repr

/-- The number of pulses taken at a sample (R49). -/
def Meter.taken (m : Meter) : Nat := min m.pending 2500

/-- The stages of one meter at one sample: pulses (R49), indicated volume (R65), flow rate (R66), factor
(R67), gross volume (R69), correction factor (R71) and net volume (R72). -/
def sampleMeter (c : MeterSettings) (period : Nat) (tc : Int) (m : Meter) : MeterSample :=
  let n := m.taken
  let dI := (n * 1000000 + m.carryI) / c.kFactor
  let q := dI * 60 / period
  let f := c.factor q
  let dG := (dI * f + m.carryG) / 10000
  let v := vcf c.alpha tc
  let dN := (dG * v + m.carryN) / 1000000
  { meter :=
      { m with
        pending := m.pending - n
        carryI := (n * 1000000 + m.carryI) % c.kFactor
        carryG := (dI * f + m.carryG) % 10000
        carryN := (dG * v + m.carryN) % 1000000 }
    flow := q
    gross := dG
    net := dN }

/-- A temperature average after a sample: unchanged when the sample adds no gross volume (R75). -/
def newAverage (old : Option Int) (sum : Int) (total added : Nat) : Option Int :=
  if added = 0 then old else some (roundAway sum total)

/-- The increments of a sample added to the record (R74), the totals saturating (R4), with the temperature
sums and averages of R75 formed on the part of each gross increment that the total took. -/
def Load.addSample (l : Load) (g e : MeterSample) (tg te : Int) : Load :=
  let gg := satAdd u32Max l.gasGross g.gross
  let eg := satAdd u32Max l.ethGross e.gross
  let gs := l.gasTempSum + tg * ((gg - l.gasGross : Nat) : Int)
  let es := l.ethTempSum + te * ((eg - l.ethGross : Nat) : Int)
  { l with
    gasGross := gg
    gasNet := satAdd u32Max l.gasNet g.net
    ethGross := eg
    ethNet := satAdd u32Max l.ethNet e.net
    gasTempSum := gs
    ethTempSum := es
    gasAverage := newAverage l.gasAverage gs gg (gg - l.gasGross)
    ethAverage := newAverage l.ethAverage es eg (eg - l.ethGross) }

/-- TEMP_HELD joins the end flags when a held temperature is used for the record (R70). -/
def Load.markTempHeld (l : Load) (held : Bool) : Load :=
  if held then { l with flags := { l.flags with tempHeld := true } } else l

/-- A gross increment added to a meter's unassigned volume (R54). -/
def Meter.addUnassigned (m : Meter) (dG : Nat) : Meter := { m with unassigned := satAdd u32Max m.unassigned dG }

end Sys2Proof.Machine
end

