-- ==== Sys2Proof/Machine/Sample.lean ====
section
/-! DEFINITION. The work of a sample event, stage by stage (R84), and the commands of the arm's own timers:
SAMPLE_EVENT, CHECKING_TIMEOUT, SETTLE_EXPIRY, FINISH_TIMEOUT and HOLD_LIMIT_EXPIRY. -/

namespace Sys2Proof.Machine

/-! ## Stage 1: volume (R49, R54 to R56, R63, R65 to R76) -/

/-- Both meters of an arm at one sample, with the temperatures used. -/
structure ArmSample where
  gas : MeterSample
  eth : MeterSample
  gasTemp : Int
  ethTemp : Int
  held : Bool
deriving DecidableEq, Repr

def State.sampleArm (s : State) (n : ArmId) : ArmSample :=
  let g := gasMeter n
  let e := ethMeter n
  let p := (s.armCfg n).period
  { gas := sampleMeter (s.meterCfg g) p (s.sampleTemp g) (s.meter g)
    eth := sampleMeter (s.meterCfg e) p (s.sampleTemp e) (s.meter e)
    gasTemp := s.sampleTemp g
    ethTemp := s.sampleTemp e
    held := s.tempHeldMark g || s.tempHeldMark e }

/-- The state of the arm's active record decides where the sample's volume goes (R54, R74). -/
inductive VolumeGoes
  | toRecord
  | toHeldRecord
  | toUnassigned
deriving DecidableEq, Repr

def State.volumeGoes (s : State) (n : ArmId) : VolumeGoes :=
  match s.active n with
  | some l => if l.state = .held then .toHeldRecord else if l.counts then .toRecord else .toUnassigned
  | none => .toUnassigned

/-- The channels and the flow rates after the sample (R49, R64, R66). -/
def State.takeSample (s : State) (n : ArmId) (v : ArmSample) : State :=
  ((s.setMeter (gasMeter n) v.gas.meter).setMeter (ethMeter n) v.eth.meter).modArm n fun a =>
    { a with qGas := v.gas.flow, qEth := v.eth.flow }

def State.addToRecord (s : State) (n : ArmId) (v : ArmSample) : State :=
  s.modActive n fun l => (l.addSample v.gas v.eth v.gasTemp v.ethTemp).markTempHeld v.held

def State.addToDrain (s : State) (n : ArmId) (v : ArmSample) : State :=
  s.modArm n fun a => { a with holdDrain := satAdd u32Max a.holdDrain (v.gas.gross + v.eth.gross) }

def State.addToUnassigned (s : State) (n : ArmId) (v : ArmSample) : State :=
  (s.modMeter (gasMeter n) (·.addUnassigned v.gas.gross)).modMeter (ethMeter n) (·.addUnassigned v.eth.gross)

/-- The volume of the sample added where it goes (R74). -/
def State.placeVolume (s : State) (n : ArmId) (v : ArmSample) : VolumeGoes → State
  | .toRecord => s.addToRecord n v
  | .toHeldRecord => (s.addToRecord n v).addToDrain n v
  | .toUnassigned => s.addToUnassigned n v

def State.leakMl (s : State) (n : ArmId) : Nat := 1000 * (s.armCfg n).leakLimit

/-- UNAUTH_FLOW on a meter: the sample adds to its unassigned volume and leaves it above the limit (R55). -/
def State.meterLeaks (s : State) (n : ArmId) (m : MeterId) (added : Nat) : Bool :=
  decide (0 < added) && decide (s.leakMl n < (s.meter m).unassigned)

/-- UNAUTH_FLOW on a held record's drain (R56). -/
def State.drainLeaks (s : State) (n : ArmId) (added : Nat) : Bool :=
  decide (0 < added) && decide (s.leakMl n < (s.arm n).holdDrain)

def State.detectLeaks (s : State) (n : ArmId) (v : ArmSample) : VolumeGoes → State
  | .toRecord => s
  | .toHeldRecord => s.detectIf (s.drainLeaks n (v.gas.gross + v.eth.gross)) n .unauthFlow
  | .toUnassigned =>
    let s1 := s.detectIf (s.meterLeaks n (gasMeter n) v.gas.gross) n .unauthFlow
    s1.detectIf (s1.meterLeaks n (ethMeter n) v.eth.gross) n .unauthFlow

/-- TEMP_FAULT at a sample (R63). -/
def State.detectStale (s : State) (n : ArmId) : State :=
  s.detectIf (s.tempStale (gasMeter n) || s.tempStale (ethMeter n)) n .tempFault

/-- Stage 1, with the detections made on its result: TEMP_FAULT, then UNAUTH_FLOW (log entry 12). -/
def State.stage1 (s : State) (n : ArmId) : State :=
  let v := s.sampleArm n
  let dest := s.volumeGoes n
  (((s.takeSample n v).placeVolume n v dest).detectStale n).detectLeaks n v dest

/-! ## Stage 2: no-flow supervision (R104) -/

/-- A run after a sample, and whether it is detected: `stalled` is the run's condition, `limit` in ms. -/
def judgeRun (stalled : Bool) (run : Option Nat) (now limit : Nat) : Option Nat × Bool :=
  match stalled, run with
  | true, none => (some now, false)
  | true, some t => if limit ≤ now - t then (none, true) else (some t, false)
  | false, _ => (none, false)

def stalledMeter : Bool → Bool → Option Stalled
  | true, true => some .both
  | true, false => some .gas
  | false, true => some .ethanol
  | false, false => none

/-- No-flow supervision, judged on the valve command and the setpoint in force when the sample came. -/
def State.stage2 (s : State) (n : ArmId) (valve : Valve) (setpoint : Nat) : State :=
  if flowingPhase (s.phase n) then
    let a := s.arm n
    let limit := 1000 * (s.armCfg n).noFlow
    let g := judgeRun (valve != .close && a.qGas == 0) a.gasRun s.now limit
    let e := judgeRun (decide (0 < setpoint) && a.qEth == 0) a.ethRun s.now limit
    let s1 := s.modArm n fun a =>
      { a with
        gasRun := g.1
        ethRun := e.1
        stalled := if g.2 || e.2 then stalledMeter g.2 e.2 else a.stalled }
    s1.detectIf (g.2 || e.2) n .noFlow
  else s

/-! ## Stages 3 and 4: compare tests and valve command (R86, R95) -/

def State.stage3 (s : State) (n : ArmId) : State :=
  if flowingPhase (s.phase n) then s.compareTests State.examine true n else s

def State.stage4 (s : State) (n : ArmId) : State := if flowingPhase (s.phase n) then s.decideValve n else s

/-! ## Stage 5: ratio control (R113, R117 to R119) -/

/-- The deviation band of the record (R117). -/
def State.band (s : State) (n : ArmId) (l : Load) : Nat :=
  s.tolerance l * l.totalNet / 1000 + 1000 * (s.armCfg n).allowance

/-- The deviation check of R117 and R118, in LOW, HIGH or TAPER above the monitor start volume. -/
def State.checkDeviation (s : State) (n : ArmId) : State :=
  match s.active n with
  | none => s
  | some l =>
    if 1000 * (s.armCfg n).monitorStart < l.totalGross then
      let outside := decide (s.band n l < (s.deficit l).natAbs)
      let r := judgeRun outside (s.ratio n).devRun s.now (1000 * (s.armCfg n).ratioDelay)
      (s.modRatio n fun q => { q with devRun := r.1 }).detectIf r.2 n .ratioDev
    else s

def State.stage5 (s : State) (n : ArmId) : State :=
  match s.phase n with
  | some .low | some .high | some .taper => (s.setSetpoint n).checkDeviation n
  | some .finish => if s.closePasses n then s.enterSettle State.examine n else s.setSetpoint n
  | some .headerWait | some .settle | none => s

/-! ## Stage 6: additive injection (R153, R154, R156) -/

/-- Some entry's outstanding strokes exceed its injector's catch-up limit (R154). -/
def State.fallsBehind (s : State) (l : Load) : Bool :=
  l.entries.any fun e => decide ((s.injCfg e.injector).catchUp < s.outstanding l e)

/-- The ADD_SHORT comparison, in LOW, HIGH, TAPER and FINISH (R154). -/
def State.checkAdditive (s : State) (n : ArmId) : State :=
  match s.active n with
  | none => s
  | some l =>
    s.detectIf ((flowingPhase l.deliveringPhase || decide (l.deliveringPhase = some .finish)) && s.fallsBehind l) n .addShort

def State.stage6 (s : State) (n : ArmId) : State :=
  match s.active n with
  | none => s
  | some l => if l.counts then ((s.modActive n Load.updateDue).checkAdditive n).issueArm n else s

/-- The six stages in their order (R84). -/
def State.sample (s : State) (n : ArmId) : State :=
  ((((((s.stage1 n).stage2 n (s.arm n).valve (s.ratio n).setpoint).stage3 n).stage4 n).stage5 n).stage6 n)

/-! ## The commands -/

/-- SAMPLE_EVENT (R83, R84): the sample clock of an AVAILABLE arm of a RUNNING station fires; the next
sample comes P after this one. -/
def execSampleEvent (n : ArmId) (s : State) : Host.Outcome State Fault Refusal :=
  match (s.arm n).sampleClock with
  | some due =>
    if s.isRunning && (s.arm n).mode == .available then
      .next (((s.reach due).modArm n fun a => { a with sampleClock := some (due + (s.armCfg n).period) }).sample n)
    else .next s
  | none => .next s

/-- CHECKING_TIMEOUT (R81): TEMP_FAULT is detected and the timer starts again for 30 s. -/
def execCheckingTimeout (n : ArmId) (s : State) : Host.Outcome State Fault Refusal :=
  match (s.arm n).checkTimer with
  | some due =>
    if (s.arm n).mode == .checking then
      let s1 := s.reach due
      .next ((s1.modArm n fun a => { a with checkTimer := some (s1.now + 30000) }).detect n .tempFault)
    else .next s
  | none => .next s

/-- SETTLE_EXPIRY (R93). -/
def execSettleExpiry (n : ArmId) (s : State) : Host.Outcome State Fault Refusal :=
  match (s.arm n).settle with
  | .running due => .next (((s.reach due).modArm n fun a => { a with settle := .expired }).endSettleIfOver n)
  | _ => .next s

/-- FINISH_TIMEOUT (R121): in FINISH the ethanol is closed whatever the deficit (R120). -/
def execFinishTimeout (n : ArmId) (s : State) : Host.Outcome State Fault Refusal :=
  match (s.ratio n).finishTimer with
  | some due =>
    let s1 := (s.reach due).modRatio n fun r => { r with finishTimer := none }
    .next (if s.phase n = some .finish then s1.enterSettle State.examine n else s1)
  | none => .next s

/-- HOLD_LIMIT_EXPIRY (R17): the HELD record becomes ENDED with reason HOLD_EXPIRED. -/
def execHoldLimitExpiry (load : Nat) (s : State) : Host.Outcome State Fault Refusal :=
  match s.load? load with
  | some l =>
    match l.state, l.holdTimer with
    | .held, some due => .next ((s.reach due).endRecord l.arm .holdExpired)
    | _, _ => .next s
  | none => .next s

end Sys2Proof.Machine
end

