-- ==== Sys2Proof/Machine/Strokes.lean ====
section
/-! DEFINITION. The injector controllers between issues: VERIFY_PULSE, STROKE_TIME_END and VERIFY_TAIL_END
(R151, R152, R157, R158, R93). -/

namespace Sys2Proof.Machine

/-- VERIFY_PULSE: counted in STROKING and VERIFYING alone; the count saturates (R151, and the table before R148). -/
def execVerifyPulse (i : InjId) (s : State) : Host.Outcome State Fault Refusal :=
  match (s.injector i).state with
  | .stroking | .verifying => .next (s.modInjector i fun j => { j with pulses := satAdd u16Max j.pulses 1 })
  | .masked | .idle => .next s

/-- STROKE_TIME_END: INJn turns off and the verify tail begins, as in force now (R151). -/
def execStrokeTimeEnd (i : InjId) (s : State) : Host.Outcome State Fault Refusal :=
  match (s.injector i).state, (s.injector i).timer with
  | .stroking, some due =>
    let s1 := s.reach due
    .next (s1.modInjector i fun j => { j with state := .verifying, timer := some (s1.now + (s.injCfg i).tail) })
  | _, _ => .next s

/-- What follows a judgement at the arm the injector serves: it may issue again, or it is done, which may
mark the record short and end SETTLE (R150, R157, R158, R93). -/
def State.afterJudgement (s : State) (i : InjId) : State :=
  match armNumbered (s.injCfg i).arm with
  | some n => ((s.tryIssue n i).markShort n i).endSettleIfOver n
  | none => s

/-- VERIFY_TAIL_END: the stroke is judged (R152). -/
def execVerifyTailEnd (i : InjId) (s : State) : Host.Outcome State Fault Refusal :=
  match (s.injector i).state, (s.injector i).timer with
  | .verifying, some due => .next (((s.reach due).judge i).afterJudgement i)
  | _, _ => .next s

end Sys2Proof.Machine
end

