-- ==== Sys2Proof/Machine/Temperature.lean ====
section
/-! DEFINITION. The reads of the temperature converters: TEMP_READ_START and TEMP_READ_END (R60, R61, R81). -/

namespace Sys2Proof.Machine

def TempPort.next (p : TempPort) : Bay → Option Nat
  | .a => p.nextA
  | .b => p.nextB

def TempPort.reading (p : TempPort) : Bay → Bool
  | .a => p.readingA
  | .b => p.readingB

/-- A read of the bay starts; the next comes 100 ms after it. -/
def TempPort.begin (p : TempPort) (due : Nat) : Bay → TempPort
  | .a => { p with nextA := some (due + 100), readingA := true }
  | .b => { p with nextB := some (due + 100), readingB := true }

def TempPort.finish (p : TempPort) : Bay → TempPort
  | .a => { p with readingA := false }
  | .b => { p with readingB := false }

/-- Channel `k + 1` of the bay's converter (00_scope.md, numbering). -/
def bayChannel (bay : Bay) (k : Fin 8) : MeterId :=
  match bay with
  | .a => ⟨k.val, by omega⟩
  | .b => ⟨k.val + 8, by omega⟩

def bayArms : Bay → List ArmId
  | .a => [0, 1, 2, 3]
  | .b => [4, 5, 6, 7]

def allReports : List (Fin 8) := [0, 1, 2, 3, 4, 5, 6, 7]

/-- The delivery of one report (R60, R61). -/
def TempChannel.deliver (c : TempChannel) (r : TempReport) (now : Nat) : TempChannel :=
  if tempValid r.good r.value then
    { latest := some ⟨r.value, r.good, now⟩
      lastValid := some r.value
      lastValidTime := some now
      validCount := satAdd 3 c.validCount 1 }
  else { c with latest := some ⟨r.value, r.good, now⟩, validCount := 0 }

/-- A read that fails delivers nothing and sets the counts to 0 (R60). -/
def TempChannel.failed (c : TempChannel) : TempChannel := { c with validCount := 0 }

/-- The end of a read at the eight channels of the bay (R60). -/
def State.deliverBay (s : State) (bay : Bay) : Option (Vector TempReport 8) → State
  | some v => allReports.foldl (fun s k => s.modChannel (bayChannel bay k) (·.deliver v[k] s.now)) s
  | none => allReports.foldl (fun s k => s.modChannel (bayChannel bay k) TempChannel.failed) s

/-- A CHECKING arm leaves for AVAILABLE when both its counts stand at 3 (R81). -/
def State.leaveChecking (s : State) (n : ArmId) : State :=
  if (s.arm n).mode == .checking && s.channelsReady n then s.becomeAvailable n else s

/-- TEMP_READ_START. -/
def execTempReadStart (bay : Bay) (s : State) : Host.Outcome State Fault Refusal :=
  match s.port.next bay with
  | some due => if s.operating then .next ((s.reach due).withPort (s.port.begin due bay)) else .next s
  | none => .next s

/-- TEMP_READ_END, of a read under way. -/
def execTempReadEnd (bay : Bay) (reports : Option (Vector TempReport 8)) (s : State) : Host.Outcome State Fault Refusal :=
  if s.operating && s.port.reading bay then
    .next ((bayArms bay).foldl (fun s n => s.leaveChecking n) ((s.withPort (s.port.finish bay)).deliverBay bay reports))
  else .next s

end Sys2Proof.Machine
end

