-- ==== Sys2Proof/Machine/Clock.lean ====
section
/-! DEFINITION. What time does on its own: the commands whose timers have run out, and the tick of 1 ms that
the machine takes when no command waits (log entry 1). -/

namespace Sys2Proof.Machine

/-- A command when its moment has come. -/
def whenDue (now : Nat) (due : Option Nat) (c : Instr) : List Instr :=
  match due with
  | some t => if t ≤ now then [c] else []
  | none => []

def SettleTimer.due : SettleTimer → Option Nat
  | .running t => some t
  | .stopped | .expired => none

/-- The reads of the converters that are due (R60). -/
def State.dueReads (s : State) : List Instr :=
  whenDue s.now s.port.nextA (.tempReadStart .a) ++ whenDue s.now s.port.nextB (.tempReadStart .b)

/-- The timers of one arm that have run out (R81, R83, R93, R121). -/
def State.dueAtArm (s : State) (n : ArmId) : List Instr :=
  whenDue s.now (s.arm n).checkTimer (.checkingTimeout n) ++ whenDue s.now (s.arm n).sampleClock (.sampleEvent n)
    ++ whenDue s.now (s.arm n).settle.due (.settleExpiry n) ++ whenDue s.now (s.ratio n).finishTimer (.finishTimeout n)

/-- The end of an injector's stroke time or of its verify tail (R151, R152). -/
def State.dueAtInjector (s : State) (i : InjId) : List Instr :=
  match (s.injector i).state with
  | .stroking => whenDue s.now (s.injector i).timer (.strokeTimeEnd i)
  | .verifying => whenDue s.now (s.injector i).timer (.verifyTailEnd i)
  | .masked | .idle => []

/-- The hold-limit timers that have run out (R17). -/
def State.dueHolds (s : State) : List Instr :=
  s.loads.flatMap fun l => if l.state = .held then whenDue s.now l.holdTimer (.holdLimitExpiry l.number) else []

/-- Every timer event that is due. The end of POWER_ON, of LOADING, of a converter read, of a memory access
and of a frame on the line bring data from outside, and come as commands alone. -/
def State.dueCommands (s : State) : List Instr :=
  s.dueReads ++ allArms.flatMap s.dueAtArm ++ allInjectors.flatMap s.dueAtInjector ++ s.dueHolds
    ++ whenDue s.now s.link.silence .linkSilence

/-- One ms passes: the commands that are due then join the queue. -/
def State.tick (s : State) : State :=
  let s1 := s.withNow (s.now + 1)
  s1.withPending (s1.pending ++ s1.dueCommands)

end Sys2Proof.Machine
end

