-- ==== Sys2Proof/Machine/Reports.lean ====
section
/-! DEFINITION. What READ LOAD, READ ARM, READ RECIPE and STATION STATUS report, byte by byte (R192), and the
requests STATION_STATUS and READ_ARM themselves (R190, R191). -/

namespace Sys2Proof.Machine

/-! ## READ LOAD (R22, R161, R192) -/

def AddEntry.report (e : AddEntry) : List Byte :=
  byte1 e.code ++ byte1 (e.injector.val + 1) ++ be32 e.interval ++ be32 e.due ++ be32 e.issued ++ be32 e.verified
    ++ be32 e.injected

/-- Byte 9: which fields are present. -/
def Load.presence (l : Load) : Nat :=
  bits [l.gasAverage.isSome, l.ethAverage.isSome, l.lastCause.isSome, l.endReason.isSome, l.achieved.isSome,
    l.overrun.isSome, l.upgradePending.isSome, l.abortTaken.isSome]

def Load.report (l : Load) : List Byte :=
  be16 l.number ++ byte1 (armNumber l.arm) ++ be16 l.recipe ++ be16 l.preset
    ++ byte1 l.state.code ++ byte1 (phaseCode l.phase) ++ byte1 l.presence
    ++ byte1 (bits [l.upgradePending.getD false, l.abortTaken.getD false])
    ++ be32 l.gasGross ++ be32 l.gasNet ++ be32 l.ethGross ++ be32 l.ethNet
    ++ signed16 (l.gasAverage.getD 0) ++ signed16 (l.ethAverage.getD 0)
    ++ byte1 l.holdCount ++ byte1 (codeOr0 HoldCause.code l.lastCause) ++ byte1 (codeOr0 EndReason.code l.endReason)
    ++ byte1 l.flags.bits ++ be16 (l.achieved.getD 0) ++ signed32 (clampSigned32 (l.overrun.getD 0))
    ++ byte1 l.entries.length ++ l.entries.flatMap AddEntry.report

/-! ## READ RECIPE (R38, R192) -/

def Recipe.report (r : Recipe) : List Byte :=
  be16 r.number ++ byte1 r.state.code ++ be16 r.fraction ++ byte1 r.tolerance ++ byte1 r.count ++ byte1 r.entries.length
    ++ r.entries.flatMap fun e => byte1 e.code ++ be16 e.dose

/-! ## READ ARM (R191, R192) -/

/-- Byte 2: which values are present. -/
def State.armPresence (s : State) (n : ArmId) : Nat :=
  bits [(s.active n).isSome, (s.phase n).isSome, (s.arm n).stalled.isSome, (s.tempAnswer (gasMeter n)).isSome,
    (s.tempAnswer (ethMeter n)).isSome, (s.alarm n).first.isSome]

def tempBytes (t : Option (Int × Bool)) : List Byte := signed16 ((t.map (·.1)).getD 0)

def State.armReport (s : State) (n : ArmId) : List Byte :=
  let a := s.arm n
  byte1 (armNumber n) ++ byte1 a.mode.code ++ byte1 (s.armPresence n)
    ++ be16 (codeOr0 Load.number (s.active n)) ++ byte1 (phaseCode (s.phase n))
    ++ be32 a.qGas ++ be32 a.qEth ++ be16 a.gasTarget ++ be16 (s.ratio n).setpoint
    ++ byte1 (s.resv n).level.code ++ be16 (s.resv n).amount ++ byte1 a.valve.code ++ byte1 (codeOr0 Stalled.code a.stalled)
    ++ tempBytes (s.tempAnswer (gasMeter n)) ++ tempBytes (s.tempAnswer (ethMeter n))
    ++ byte1 (bits [s.tempHeldMark (gasMeter n), s.tempHeldMark (ethMeter n)])
    ++ be16 (latchedBits (s.alarm n).latched) ++ byte1 (codeOr0 AlarmKind.code (s.alarm n).first)
    ++ byte1 (lossSourceBits (s.alarm n).sources) ++ byte1 (s.levelBits n)
    ++ be32 (s.meter (gasMeter n)).unassigned ++ be32 (s.meter (ethMeter n)).unassigned
    ++ be16 (s.meter (gasMeter n)).debt ++ be16 (s.meter (ethMeter n)).debt
    ++ be16 a.history.current

/-- READ ARM: an arm outside 1 to 8 is BAD_FIELD (R191). -/
def State.answerReadArm (s : State) (p : List Byte) : Answer :=
  match armNumbered (fieldAt p 0 1) with
  | some n => .ok s (s.armReport n)
  | none => .refuse s .badField

/-- READ_ARM. -/
def execReadArm (payload : List Byte) (s : State) : Host.Outcome State Fault Refusal :=
  .next (s.takeRequest 0x02 payload (fitsLength 2 payload) (·.answerReadArm payload))

/-! ## STATION STATUS (R190, R192) -/

/-- The payload of STATION STATUS. R192 gives the saving byte its width and no code: 1 while a save is in progress, 0
otherwise (DESIGN CHOICE, unsafe, log entry 41). -/
def State.stationReport (s : State) : List Byte :=
  byte1 s.store.mode.code ++ byte1 s.store.cause.code ++ byte1 s.link.address ++ byte1 s.link.source.code
    ++ be32 s.link.speed ++ byte1 (stationAlarmBits s.stationAlarms) ++ be16 s.link.errors
    ++ byte1 s.loads.length ++ byte1 s.recipes.length ++ byte1 (boolCode s.store.save.isSome)

/-- STATION_STATUS. -/
def execStationStatus (payload : List Byte) (s : State) : Host.Outcome State Fault Refusal :=
  .next (s.takeRequest 0x01 payload (fitsLength 1 payload) fun s1 => .ok s1 s1.stationReport)

end Sys2Proof.Machine
end

