-- ==== Sys2Proof/Machine/Loads.lean ====
section
/-! DEFINITION. The load requests (01_load_records.md): STAGE_LOAD, START_LOAD, HOLD_LOAD, RESUME_LOAD,
AMEND_PRESET, ABORT_LOAD, READ_LOAD, RETIRE_LOAD and LIST_LOADS. -/

namespace Sys2Proof.Machine

/-! ## Shared forms -/

/-- A request that names a load: BAD_FIELD for a number outside 1 to 65,535, NOT_FOUND when no record carries
it (R12, R16, R18, R19, R22, R24). -/
def State.forLoad (s : State) (number : Nat) (f : Load → Answer) : Answer :=
  if number = 0 then .refuse s .badField
  else
    match s.load? number with
    | none => .refuse s .notFound
    | some l => f l

/-- The state of a record, and its phase while DELIVERING (R192). -/
def State.stateAndPhase (s : State) (number : Nat) : List Byte :=
  match s.load? number with
  | some l => byte1 l.state.code ++ byte1 (phaseCode l.deliveringPhase)
  | none => byte1 0 ++ byte1 0

/-- The reply of START, HOLD, RESUME and ABORT: load number, state, phase (R192). -/
def Answer.okState (s : State) (number : Nat) : Answer := .ok s (be16 number ++ s.stateAndPhase number)

/-! ## STAGE LOAD (R9, R10, R2, R5) -/

/-- Checks 9 and 10 for the entries from position `k` on: the first entry that fails (R9, R41, R147). -/
def State.entryFault (s : State) (n : ArmId) : Nat → List RecipeEntry → Option (Result × Nat)
  | _, [] => none
  | k, e :: rest =>
    match s.injectorFor n e.code with
    | none => some (.noInjector, k)
    | some i =>
      if interval (s.injCfg i).stroke e.dose < minInterval (s.armCfg n).highRate (s.injCfg i) then some (.doseTooHigh, k)
      else s.entryFault n (k + 1) rest

/-- The additive entries of a new record (R5). -/
def State.bindEntries (s : State) (n : ArmId) (entries : List RecipeEntry) : List AddEntry :=
  entries.filterMap fun e =>
    (s.injectorFor n e.code).map fun i =>
      { code := e.code, injector := i, interval := interval (s.injCfg i).stroke e.dose, due := 0, issued := 0,
        verified := 0, injected := 0 }

/-- A record as staged (R2). -/
def Load.staged (number : Nat) (n : ArmId) (recipe preset : Nat) (entries : List AddEntry) : Load where
  number := number
  arm := n
  recipe := recipe
  preset := preset
  state := .staged
  phase := none
  upgradePending := none
  abortTaken := none
  gasGross := 0
  gasNet := 0
  ethGross := 0
  ethNet := 0
  gasTempSum := 0
  ethTempSum := 0
  gasAverage := none
  ethAverage := none
  entries := entries
  holdCount := 0
  lastCause := none
  endReason := none
  flags := EndFlags.none
  achieved := none
  overrun := none
  holdTimer := none

/-- The notice of a record created: the reference count rises by one (R28, R33). -/
def State.countUp (s : State) (recipe : Nat) : State :=
  s.withRecipes (s.recipes.map fun r => if r.number == recipe then { r with count := r.count + 1 } else r)

/-- The creation of a record, its notice and the promotion (R10). -/
def State.stage (s : State) (n : ArmId) (v : StageFields) (r : Recipe) : State :=
  ((s.withLoads (s.loads ++ [Load.staged v.number n v.recipe v.preset (s.bindEntries n r.entries)])).countUp v.recipe).promote n

/-- The number of the arm's STAGED records (check 8 of R9). -/
def State.stagedCount (s : State) (n : ArmId) : Nat := (s.loads.filter fun l => l.arm == n && l.state == .staged).length

/-- Checks 4 to 10 of R9, on an arm and fields in range. -/
def State.answerStageOn (s : State) (n : ArmId) (v : StageFields) : Answer :=
  match s.recipe? v.recipe with
  | none => .refuse s .notFound
  | some r =>
    if r.state = .retiring then .refuse s .wrongState
    else if (s.arm n).mode = .outOfService then .refuse s .notPermitted
    else if 16 ≤ s.loads.length then .refuse s .tableFull
    else if 3 ≤ s.stagedCount n then .refuse s .armQueueFull
    else
      match s.entryFault n 1 r.entries with
      | some (result, k) => ⟨s, result, byte1 k⟩
      | none =>
        let s1 := s.stage n v r
        .ok s1 (be16 v.number ++ byte1 (codeOr0 (·.state.code) (s1.load? v.number)))

/-- The checks of R9 in their order. -/
def State.answerStage (s : State) (p : List Byte) : Answer :=
  let v := stageFields p
  if s.store.mode = .unconfigured then .refuse s .unconfigured
  else if !v.inRange then .refuse s .badField
  else if (s.load? v.number).isSome then .refuse s .duplicate
  else
    match armNumbered v.arm with
    | none => .refuse s .badField
    | some n => s.answerStageOn n v

/-- STAGE_LOAD. -/
def execStageLoad (payload : List Byte) (s : State) : Host.Outcome State Fault Refusal :=
  .next (s.takeRequest 0x10 payload (fitsLength 8 payload) (·.answerStage payload))

/-! ## START LOAD, HOLD LOAD, RESUME LOAD (R12, R18, R16) -/

def State.answerStart (s : State) (p : List Byte) : Answer :=
  s.forLoad (fieldAt p 0 2) fun l =>
    if l.state ≠ .ready then .refuse s .wrongState
    else if !s.mayStart l.arm l then .refuse s .notPermitted
    else .okState (s.start l.arm) l.number

/-- START_LOAD. -/
def execStartLoad (payload : List Byte) (s : State) : Host.Outcome State Fault Refusal :=
  .next (s.takeRequest 0x11 payload (fitsLength 3 payload) (·.answerStart payload))

def State.answerHold (s : State) (p : List Byte) : Answer :=
  s.forLoad (fieldAt p 0 2) fun l =>
    match l.deliveringPhase with
    | none | some .settle => .refuse s .wrongState
    | some _ => .okState (s.holdCause l.arm .host) l.number

/-- HOLD_LOAD. -/
def execHoldLoad (payload : List Byte) (s : State) : Host.Outcome State Fault Refusal :=
  .next (s.takeRequest 0x12 payload (fitsLength 3 payload) (·.answerHold payload))

def State.answerResume (s : State) (p : List Byte) : Answer :=
  s.forLoad (fieldAt p 0 2) fun l =>
    if l.state ≠ .held then .refuse s .wrongState
    else if !s.mayStart l.arm l then .refuse s .notPermitted
    else .okState (s.resume l.arm) l.number

/-- RESUME_LOAD. -/
def execResumeLoad (payload : List Byte) (s : State) : Host.Outcome State Fault Refusal :=
  .next (s.takeRequest 0x13 payload (fitsLength 3 payload) (·.answerResume payload))

/-! ## AMEND PRESET (R20, R21, R102) -/

/-- Check 3 of R20. -/
def Load.pastAmending (l : Load) : Bool :=
  l.state == .ended || l.deliveringPhase == some .finish || l.deliveringPhase == some .settle

/-- Check 4 of R20. -/
def State.tooLow (s : State) (l : Load) (preset : Nat) : Bool :=
  decide (1000 * preset < l.totalGross + (s.arm l.arm).history.current)

/-- The new preset in the record, and its effect at the arm for a DELIVERING record (R21). -/
def State.amendPreset (s : State) (l : Load) (preset : Nat) : State :=
  let s1 := s.modLoad l.number fun l => { l with preset := preset }
  if l.state = .delivering then s1.amended l.arm else s1

/-- The reply of AMEND PRESET: load number, preset, phase (R192). -/
def State.amendReply (s : State) (number : Nat) : List Byte :=
  match s.load? number with
  | some l => be16 number ++ be16 l.preset ++ byte1 (phaseCode l.deliveringPhase)
  | none => be16 number ++ be16 0 ++ byte1 0

def State.answerAmend (s : State) (p : List Byte) : Answer :=
  let preset := fieldAt p 2 2
  if preset < 50 ∨ 40000 < preset then .refuse s .badField
  else
    s.forLoad (fieldAt p 0 2) fun l =>
      if l.pastAmending then .refuse s .wrongState
      else if s.tooLow l preset then .refuse s .tooLow
      else
        let s1 := s.amendPreset l preset
        .ok s1 (s1.amendReply l.number)

/-- AMEND_PRESET. -/
def execAmendPreset (payload : List Byte) (s : State) : Host.Outcome State Fault Refusal :=
  .next (s.takeRequest 0x14 payload (fitsLength 5 payload) (·.answerAmend payload))

/-! ## ABORT LOAD (R19) -/

def State.answerAbort (s : State) (p : List Byte) : Answer :=
  s.forLoad (fieldAt p 0 2) fun l =>
    match l.state with
    | .delivering | .held => .okState (s.abort l.arm) l.number
    | .staged | .ready | .ended => .refuse s .wrongState

/-- ABORT_LOAD. -/
def execAbortLoad (payload : List Byte) (s : State) : Host.Outcome State Fault Refusal :=
  .next (s.takeRequest 0x15 payload (fitsLength 3 payload) (·.answerAbort payload))

/-! ## READ LOAD and LIST LOADS (R22, R23) -/

def State.answerReadLoad (s : State) (p : List Byte) : Answer :=
  s.forLoad (fieldAt p 0 2) fun l => .ok s l.report

/-- READ_LOAD. -/
def execReadLoad (payload : List Byte) (s : State) : Host.Outcome State Fault Refusal :=
  .next (s.takeRequest 0x16 payload (fitsLength 3 payload) (·.answerReadLoad payload))

/-- The records of an arm in the order of R7. -/
def State.armList (s : State) (n : ArmId) : List Load := s.loads.filter fun l => l.arm == n

/-- One entry of LIST LOADS (R23, R192). -/
def Load.listEntry (l : Load) : List Byte :=
  be16 l.number ++ byte1 (armNumber l.arm) ++ byte1 l.state.code ++ byte1 (phaseCode l.deliveringPhase)
    ++ byte1 (codeOr0 EndReason.code l.endReason)

def listReport (l : List Load) : List Byte := byte1 l.length ++ l.flatMap Load.listEntry

def State.answerListLoads (s : State) (p : List Byte) : Answer :=
  let selector := fieldAt p 0 1
  if selector = 0 then .ok s (listReport (allArms.flatMap s.armList))
  else
    match armNumbered selector with
    | some n => .ok s (listReport (s.armList n))
    | none => .refuse s .badField

/-- LIST_LOADS. -/
def execListLoads (payload : List Byte) (s : State) : Host.Outcome State Fault Refusal :=
  .next (s.takeRequest 0x18 payload (fitsLength 2 payload) (·.answerListLoads payload))

/-! ## RETIRE LOAD (R24, R28, R34) -/

/-- A stroke in flight for a retired record keeps no entry to be judged into (R24, R152). -/
def Injector.orphan (j : Injector) (number : Nat) : Injector :=
  match j.stroke with
  | some k => if k.load = some number then { j with stroke := some ⟨none⟩ } else j
  | none => j

def State.orphanStrokes (s : State) (number : Nat) : State :=
  allInjectors.foldl (fun s i => s.modInjector i (·.orphan number)) s

/-- A recipe after the notice of a record removed (R33, R34). -/
def Recipe.countDown (r : Recipe) : Recipe := { r with count := r.count - 1 }

/-- The notice of a record removed: the count falls, and a RETIRING recipe that reaches 0 leaves the table. -/
def State.noticeRemoval (s : State) (recipe : Nat) : State :=
  s.withRecipes
    ((s.recipes.map fun r => if r.number == recipe then r.countDown else r).filter fun r =>
      !(r.number == recipe && r.state == .retiring && r.count == 0))

/-- The removal of a record (R24). -/
def State.retire (s : State) (l : Load) : State :=
  let s1 := ((s.withLoads (s.loads.filter fun x => x.number != l.number)).orphanStrokes l.number).noticeRemoval l.recipe
  if l.state = .ready then s1.promote l.arm else s1

def State.answerRetire (s : State) (p : List Byte) : Answer :=
  s.forLoad (fieldAt p 0 2) fun l =>
    match l.state with
    | .delivering | .held => .refuse s .wrongState
    | .staged | .ready | .ended => .ok (s.retire l) (be16 l.number)

/-- RETIRE_LOAD. -/
def execRetireLoad (payload : List Byte) (s : State) : Host.Outcome State Fault Refusal :=
  .next (s.takeRequest 0x17 payload (fitsLength 3 payload) (·.answerRetire payload))

end Sys2Proof.Machine
end

