-- ==== Sys2Proof/Machine/Meters.lean ====
section
/-! DEFINITION. The meter channels at their edges: METER_A_EDGE and METER_B_EDGE
(03_meter_inputs_and_pulse_security.md). -/

namespace Sys2Proof.Machine

/-- A forward pulse repays the debt, or is accepted (R47). -/
def Meter.forward (m : Meter) : Meter :=
  if 0 < m.debt then { m with debt := m.debt - 1 } else { m with pending := satAdd u16Max m.pending 1 }

/-- A reverse pulse (R47). -/
def Meter.reverse (m : Meter) : Meter := { m with debt := satAdd u16Max m.debt 1 }

/-- A window closes with a match or a mismatch; two mismatches in a row are detected and counted from 0
again (R52). -/
def Meter.closeWindow (m : Meter) (isMatch : Bool) : Meter :=
  { m with windowA := 0, windowB := 0, mismatches := if isMatch then 0 else if m.mismatches = 0 then 1 else 0 }

/-- The closing of a window is a detection (R52). -/
def Meter.detects (m : Meter) (isMatch : Bool) : Bool := !isMatch && m.mismatches != 0

/-- A B count differs from W by no more than the tolerance (R52). -/
def MeterSettings.windowMatches (c : MeterSettings) (b : Nat) : Bool :=
  decide (b ≤ c.window + c.tolerance ∧ c.window ≤ b + c.tolerance)

def pulseKind (m : MeterId) : AlarmKind := if isGasMeter m then .pulseGas else .pulseEth

/-- The window of the meter closes and is judged (R52). -/
def State.closeWindow (s : State) (m : MeterId) (isMatch : Bool) : State :=
  let found := (s.meter m).detects isMatch
  (s.modMeter m (·.closeWindow isMatch)).detectIf found (meterArm m) (pulseKind m)

/-- The A edge in the window: the count rises, and closes the window at W (R51). -/
def State.countA (s : State) (m : MeterId) : State :=
  let s1 := s.modMeter m fun x => { x with windowA := x.windowA + 1 }
  if (s.meterCfg m).window ≤ (s1.meter m).windowA then
    s1.closeWindow m ((s.meterCfg m).windowMatches (s1.meter m).windowB)
  else s1

/-- The B edge in the window: the count rises, and above W plus the tolerance it closes the window (R51). -/
def State.countB (s : State) (m : MeterId) : State :=
  let s1 := s.modMeter m fun x => { x with windowB := x.windowB + 1 }
  if (s.meterCfg m).window + (s.meterCfg m).tolerance < (s1.meter m).windowB then s1.closeWindow m false else s1

/-- A reverse pulse on the meter, with the detection of R48. -/
def State.reversePulse (s : State) (m : MeterId) : State :=
  let s1 := s.modMeter m Meter.reverse
  s1.detectIf (decide ((s.meterCfg m).reverseLimit < (s1.meter m).debt)) (meterArm m) .reverseFlow

/-- METER_A_EDGE: edges are counted in RUNNING alone (R44 to R47, R51; log entry 15). -/
def execMeterAEdge (m : MeterId) (bHigh : Bool) (s : State) : Host.Outcome State Fault Refusal :=
  if s.isRunning then
    if (s.meterCfg m).security then
      .next ((if bHigh then s.reversePulse m else s.modMeter m Meter.forward).countA m)
    else .next (s.modMeter m Meter.forward)
  else .next s

/-- METER_B_EDGE (R51); with pulse security disabled channel B is not read (R46). -/
def execMeterBEdge (m : MeterId) (s : State) : Host.Outcome State Fault Refusal :=
  if s.isRunning && (s.meterCfg m).security then .next (s.countB m) else .next s

end Sys2Proof.Machine
end

