-- ==== Sys2Proof/Machine/Permissives.lean ====
section
/-! DEFINITION. The permissive inputs and the push-buttons: PERMISSIVE_LOSS, PERMISSIVE_RESTORE,
START_BUTTON_EDGE and STOP_BUTTON_EDGE (09_permissives_and_alarms.md, R13, R103). -/

namespace Sys2Proof.Machine

/-- A loss of the permissive acts on the arm: it bears on it, and HEADER_PRESS_OK only when the fraction of
the active record is above 0 (R162, R164). -/
def State.lossActs (s : State) (p : Permissive) (n : ArmId) : Bool :=
  permissiveBears p n && (p != .headerPress || decide (0 < ((s.active n).map s.fraction).getD 0))

/-- A permissive joins the loss sources of the arm (R164). -/
def State.addSource (s : State) (n : ArmId) (x : LossSource) : State :=
  s.modAlarm n fun a => { a with sources := insertOnce x a.sources }

/-- The loss at one arm: for a DELIVERING record the hold cause, then the latch and the source (R164). -/
def State.loseAt (s : State) (p : Permissive) (n : ArmId) : State :=
  if s.lossActs p n && (s.phase n).isSome then
    ((s.holdCause n .permissive).detect n .permitLoss).addSource n (lossSourceOf p)
  else s

/-- A loss acts on every arm the permissive bears on, one after another (R140, R164). The rules give no order of
the arms, and which waiting request is granted between two holds depends on it: the model takes arms 1 to 8 (log
entry 36). -/
def State.loseAll (s : State) (p : Permissive) : State := allArms.foldl (fun s n => s.loseAt p n) s

/-- PERMISSIVE_LOSS: a level that was met is lost. -/
def execPermissiveLoss (p : Permissive) (s : State) : Host.Outcome State Fault Refusal :=
  if s.operating && levelOf s.levels p then .next ((s.withLevels (setLevel s.levels p false)).loseAll p)
  else .next s

/-- PERMISSIVE_RESTORE: the level alone changes (R163). -/
def execPermissiveRestore (p : Permissive) (s : State) : Host.Outcome State Fault Refusal :=
  if s.operating then .next (s.withLevels (setLevel s.levels p true)) else .next s

/-- A start edge: a START of the READY record or a RESUME of the HELD one, when the start conditions are met;
otherwise ignored (R13). It acts on the record that is active when it is taken, a record promoted by a hold-limit
expiry taken before it among them (log entry 35). -/
def State.startEdge (s : State) (n : ArmId) : State :=
  match s.active n with
  | some l =>
    if s.mayStart n l then
      match l.state with
      | .ready => s.start n
      | .held => s.resume n
      | .delivering | .staged | .ended => s
    else s
  | none => s

/-- A stop edge: a hold cause STOP_BUTTON when the arm is AVAILABLE and its record DELIVERING (R103). -/
def State.stopEdge (s : State) (n : ArmId) : State :=
  if (s.arm n).mode == .available then s.holdCause n .stopButton else s

/-- START_BUTTON_EDGE: the filtered level changes, and a change from released to pressed is an edge (R13, R103;
log entry 38). Before RUNNING and UNCONFIGURED no button is read (R193). -/
def execStartButtonEdge (b : ButtonChange) (s : State) : Host.Outcome State Fault Refusal :=
  if s.operating then
    let s1 := s.withButtons (setStart s.buttons b)
    .next (if isEdge s.buttons.start[b.arm] b.pressed then s1.startEdge b.arm else s1)
  else .next s

/-- STOP_BUTTON_EDGE: the filtered level changes, and a change from released to pressed is an edge (R103; log
entry 38). Before RUNNING and UNCONFIGURED no button is read (R193). -/
def execStopButtonEdge (b : ButtonChange) (s : State) : Host.Outcome State Fault Refusal :=
  if s.operating then
    let s1 := s.withButtons (setStop s.buttons b)
    .next (if isEdge s.buttons.stop[b.arm] b.pressed then s1.stopEdge b.arm else s1)
  else .next s

end Sys2Proof.Machine
end

