-- ==== Sys2Proof/Machine/Recipes.lean ====
section
/-! DEFINITION. The recipe requests (02_blend_recipes.md): DEFINE_RECIPE, AMEND_RECIPE, RETIRE_RECIPE,
READ_RECIPE and LIST_RECIPES. -/

namespace Sys2Proof.Machine

/-! ## DEFINE RECIPE (R35) -/

/-- A recipe as defined: ACTIVE with reference count 0. -/
def RecipeFields.define (v : RecipeFields) : Recipe where
  number := v.number
  state := .active
  fraction := v.fraction
  tolerance := v.tolerance
  entries := v.entries
  count := 0

def State.answerDefine (s : State) (p : List Byte) : Answer :=
  let v := recipeFields p
  if !v.inRange then .refuse s .badField
  else if (s.recipe? v.number).isSome then .refuse s .duplicate
  else if 24 ≤ s.recipes.length then .refuse s .tableFull
  else .ok (s.withRecipes (s.recipes ++ [v.define])) (be16 v.number)

/-- DEFINE_RECIPE. -/
def execDefineRecipe (payload : List Byte) (s : State) : Host.Outcome State Fault Refusal :=
  .next (s.takeRequest 0x20 payload (fitsRecipe payload) (·.answerDefine payload))

/-! ## AMEND RECIPE (R36) -/

/-- The fraction, the tolerance and the whole list of entries replaced (R32, R36). -/
def Recipe.amend (r : Recipe) (v : RecipeFields) : Recipe :=
  { r with fraction := v.fraction, tolerance := v.tolerance, entries := v.entries }

/-- The recipe of a number changed, or the others untouched. -/
def State.modRecipe (s : State) (number : Nat) (f : Recipe → Recipe) : State :=
  s.withRecipes (s.recipes.map fun r => if r.number == number then f r else r)

def State.answerAmendRecipe (s : State) (p : List Byte) : Answer :=
  let v := recipeFields p
  if !v.inRange then .refuse s .badField
  else
    match s.recipe? v.number with
    | none => .refuse s .notFound
    | some r =>
      if r.state = .retiring then .refuse s .wrongState
      else if 0 < r.count then .refuse s .inUse
      else .ok (s.modRecipe v.number (·.amend v)) (be16 v.number)

/-- AMEND_RECIPE. -/
def execAmendRecipe (payload : List Byte) (s : State) : Host.Outcome State Fault Refusal :=
  .next (s.takeRequest 0x21 payload (fitsRecipe payload) (·.answerAmendRecipe payload))

/-! ## RETIRE RECIPE and READ RECIPE (R37, R38) -/

/-- A request that names a recipe: BAD_FIELD outside 1 to 999, NOT_FOUND when no recipe carries the number. -/
def State.forRecipe (s : State) (number : Nat) (f : Recipe → Answer) : Answer :=
  if number < 1 ∨ 999 < number then .refuse s .badField
  else
    match s.recipe? number with
    | none => .refuse s .notFound
    | some r => f r

/-- The recipe leaves the table at once with a count of 0, else it becomes RETIRING (R37). -/
def State.retireRecipe (s : State) (r : Recipe) : State :=
  if r.count = 0 then s.withRecipes (s.recipes.filter fun x => x.number != r.number)
  else s.modRecipe r.number fun x => { x with state := .retiring }

/-- Outcome 1 removed, 2 RETIRING (R192). -/
def Recipe.retireOutcome (r : Recipe) : Nat := if r.count = 0 then 1 else 2

def State.answerRetireRecipe (s : State) (p : List Byte) : Answer :=
  s.forRecipe (fieldAt p 0 2) fun r =>
    if r.state = .retiring then .refuse s .wrongState
    else .ok (s.retireRecipe r) (be16 r.number ++ byte1 r.retireOutcome ++ byte1 r.count)

/-- RETIRE_RECIPE. -/
def execRetireRecipe (payload : List Byte) (s : State) : Host.Outcome State Fault Refusal :=
  .next (s.takeRequest 0x22 payload (fitsLength 3 payload) (·.answerRetireRecipe payload))

def State.answerReadRecipe (s : State) (p : List Byte) : Answer := s.forRecipe (fieldAt p 0 2) fun r => .ok s r.report

/-- READ_RECIPE. -/
def execReadRecipe (payload : List Byte) (s : State) : Host.Outcome State Fault Refusal :=
  .next (s.takeRequest 0x23 payload (fitsLength 3 payload) (·.answerReadRecipe payload))

/-! ## LIST RECIPES (R39) -/

/-- A recipe put into a list in ascending order of number. -/
def insertByNumber (r : Recipe) : List Recipe → List Recipe
  | [] => [r]
  | x :: rest => if r.number ≤ x.number then r :: x :: rest else x :: insertByNumber r rest

/-- The recipes in ascending order of number. -/
def sortByNumber : List Recipe → List Recipe
  | [] => []
  | r :: rest => insertByNumber r (sortByNumber rest)

def Recipe.listEntry (r : Recipe) : List Byte :=
  be16 r.number ++ byte1 r.state.code ++ be16 r.fraction ++ byte1 r.count

def State.recipeList (s : State) : List Byte :=
  byte1 s.recipes.length ++ (sortByNumber s.recipes).flatMap Recipe.listEntry

/-- LIST_RECIPES. -/
def execListRecipes (payload : List Byte) (s : State) : Host.Outcome State Fault Refusal :=
  .next (s.takeRequest 0x24 payload (fitsLength 1 payload) fun s1 => .ok s1 s1.recipeList)

end Sys2Proof.Machine
end

