-- ==== Sys2Proof/Machine/SettingRequests.lean ====
section
/-! DEFINITION. The requests of the settings store controller and of the alarm unit: CLEAR_ALARMS,
READ_SETTING, WRITE_SETTING, SAVE_SETTINGS, SAVE_BYTE_DONE and RESTART (R173, R197 to R200). -/

namespace Sys2Proof.Machine

/-! ## CLEAR ALARMS (R173) -/

/-- The clear of the station's set and of the link error counter. -/
def State.clearStation (s : State) : State :=
  (s.withStationAlarms []).withLink { s.link with errors := 0 }

/-- The clear of one arm: latched set, first alarm and loss sources. -/
def State.clearArm (s : State) (n : ArmId) : State := s.setAlarm n ArmAlarms.start

def State.answerClear (s : State) (p : List Byte) : Answer :=
  let scope := fieldAt p 0 1
  if scope = 0 then .ok s.clearStation []
  else
    match armNumbered scope with
    | some n => .ok (s.clearArm n) []
    | none => .refuse s .badField

/-- CLEAR_ALARMS. -/
def execClearAlarms (payload : List Byte) (s : State) : Host.Outcome State Fault Refusal :=
  .next (s.takeRequest 0x30 payload (fitsLength 2 payload) (·.answerClear payload))

/-! ## READ SETTING (R197) -/

def State.answerReadSetting (s : State) (p : List Byte) : Answer :=
  match slotOf (fieldAt p 0 2) (fieldAt p 2 1) with
  | some slot => .ok s (be32 (s.settings.get slot))
  | none => .refuse s .badField

/-- READ_SETTING. -/
def execReadSetting (payload : List Byte) (s : State) : Host.Outcome State Fault Refusal :=
  .next (s.takeRequest 0x40 payload (fitsLength 4 payload) (·.answerReadSetting payload))

/-! ## WRITE SETTING (R198) -/

/-- The arm of a number has a record that is not ENDED (R29). -/
def State.liveNumbered (s : State) (k : Nat) : Bool :=
  match armNumbered k with
  | some n => s.armLive n
  | none => false

/-- Some reservation is at LOW or HIGH, or the grant queue holds a request (R141). A HELD record holds neither, so a
write of C is taken while records are HELD, although R131 says that no setting an amount is formed from changes
then: R141 is followed (log entry 37). -/
def State.headerInUse (s : State) : Bool :=
  (allArms.any fun n => (s.resv n).level != .none) || !s.queue.isEmpty

/-- The item is in use (R29, R141, R145, R167, R198). -/
def State.slotInUse (s : State) (v : Nat) : Slot → Bool
  | .arm n _ => s.armLive n
  | .meter m _ => s.armLive (meterArm m)
  | .injector i item =>
    s.liveNumbered (s.injCfg i).arm || (item == 50 && s.liveNumbered v) || (s.injector i).stroke.isSome
  | .station item => item == 72 && s.headerInUse
  | .alarmClass _ => s.anyActive

/-- The in-service setting written (R80). -/
def State.wroteInService (s : State) (n : ArmId) (v : Nat) : State :=
  if v = 1 then
    if s.isRunning && (s.arm n).mode == .outOfService then s.enterChecking n else s
  else if (s.arm n).mode = .outOfService then s
  else
    s.modArm n fun a =>
      { a with mode := .outOfService, checkTimer := none, sampleClock := none, valve := .close, qGas := 0, qEth := 0 }

/-- The effects of a write on its owning block (R53, R64, R80, R106, R108, R188). -/
def State.writeEffect (s : State) (v : Nat) : Slot → State
  | .arm n 1 => s.wroteInService n v
  | .arm n 2 => if (s.arm n).mode = .available then s.restartClock n else s
  | .arm n 10 => s.modArm n fun a => { a with history := History.all (1000 * v) }
  | .meter m 30 => s.modMeter m fun x => { x with debt := 0, windowA := 0, windowB := 0, mismatches := 0 }
  | .meter m 32 | .meter m 33 => s.modMeter m fun x => { x with windowA := 0, windowB := 0, mismatches := 0 }
  | .meter m 34 => s.modMeter m fun x => { x with carryI := 0 }
  | .station 75 => s.restartSilence
  | _ => s

/-- A write that passes replaces the working value at once (R198). -/
def State.writeSlot (s : State) (v : Nat) (slot : Slot) : State :=
  (s.withSettings (s.settings.put v slot)).writeEffect v slot

/-- The checks of R198 in their order. -/
def State.answerWriteSetting (s : State) (p : List Byte) : Answer :=
  let item := fieldAt p 0 2
  let index := fieldAt p 2 1
  let v := fieldAt p 3 4
  match slotOf item index with
  | none => .refuse s .badField
  | some slot =>
    if !itemInRange item index v || (item == 80 && index == 11) then .refuse s .badField
    else if s.store.save.isSome then .refuse s .busy
    else if s.slotInUse v slot then .refuse s .inUse
    else if !(s.settings.put v slot).ruleHolds slot then .refuse s .badField
    else .ok (s.writeSlot v slot) []

/-- WRITE_SETTING. -/
def execWriteSetting (payload : List Byte) (s : State) : Host.Outcome State Fault Refusal :=
  .next (s.takeRequest 0x41 payload (fitsLength 8 payload) (·.answerWriteSetting payload))

/-! ## SAVE SETTINGS (R199) -/

/-- Up to three tries in all for a byte, its read and its write together (R199; log entry 8). -/
def saveTries : Nat := 3

/-- The save at the first byte of an area. -/
def SaveProgress.enter (a : Area) : SaveProgress := ⟨a, 0, false, saveTries⟩

def State.answerSave (s : State) : Answer :=
  if s.store.save.isSome then .refuse s .busy
  else .ok (s.withStore { s.store with line := .saving, save := some (.enter .m) }) []

/-- SAVE_SETTINGS. -/
def execSaveSettings (payload : List Byte) (s : State) : Host.Outcome State Fault Refusal :=
  .next (s.takeRequest 0x42 payload (fitsLength 1 payload) State.answerSave)

def Store.endSave (t : Store) : Store := { t with line := .idle, save := none }

/-- The mark that the area holds the image of a save stopped before its CRC (R199). -/
def Store.setMixed (t : Store) (a : Area) (x : Bool) : Store :=
  match a with
  | .m => { t with mixedM := x }
  | .l => { t with mixedL := x }

/-- The save goes on to the next byte; past the last CRC byte of an area the area is as saved (R199). -/
def Store.advance (t : Store) (p : SaveProgress) : Store :=
  if p.byte + 1 < p.area.size then { t with save := some ⟨p.area, p.byte + 1, false, saveTries⟩ }
  else
    match p.area with
    | .m => { t.setMixed .m false with save := some (.enter .l) }
    | .l => (t.setMixed .l false).endSave

/-- The working byte of an area's image (R199). -/
def State.workingByte (s : State) (p : SaveProgress) : Byte := (s.settings.areaImage p.area)[p.byte]?.getD 0

def SaveProgress.address (p : SaveProgress) : Nat := p.area.start + p.byte

/-- An access the memory did not acknowledge: another try, or the end of the save with SAVE_FAILED. -/
def State.saveNotAcked (s : State) (p : SaveProgress) : State :=
  if p.tries ≤ 1 then (s.withStore s.store.endSave).latchStation .saveFailed
  else s.withStore { s.store with save := some { p with tries := p.tries - 1 } }

/-- A stored byte was read: equal to the working byte the save moves on, else the byte is written, with the tries
left on it. -/
def State.saveRead (s : State) (p : SaveProgress) : State :=
  if s.memory.read p.address = s.workingByte p then s.withStore (s.store.advance p)
  else s.withStore { s.store with save := some { p with writing := true } }

/-- A byte was written: a data byte makes the area's image mixed until its CRC is done. -/
def State.saveWrote (s : State) (p : SaveProgress) : State :=
  let t := if p.byte < p.area.dataSize then s.store.setMixed p.area true else s.store
  (s.withMemory (s.memory.write p.address (s.workingByte p))).withStore (t.advance p)

/-- SAVE_BYTE_DONE (log entries 7 and 8). -/
def execSaveByteDone (acked : Bool) (s : State) : Host.Outcome State Fault Refusal :=
  match s.store.save with
  | none => .next s
  | some p =>
    if p.area.size ≤ p.byte then .fault (.noSuchMemoryByte p.address)
    else if !acked then .next (s.saveNotAcked p)
    else if p.writing then .next (s.saveWrote p)
    else .next (s.saveRead p)

/-! ## RESTART (R200) -/

/-- Some record of the station is DELIVERING. -/
def State.anyDelivering (s : State) : Bool := s.loads.any fun l => l.state == .delivering

def State.answerRestart (s : State) : Answer :=
  if s.store.save.isSome then .refuse s .busy
  else if s.anyDelivering then .refuse s .wrongState
  else .ok (s.withStore { s.store with restart := true }) []

/-- RESTART. -/
def execRestart (payload : List Byte) (s : State) : Host.Outcome State Fault Refusal :=
  .next (s.takeRequest 0x43 payload (fitsLength 1 payload) State.answerRestart)

end Sys2Proof.Machine
end

