-- ==== Sys2Proof/Machine/Dispatch.lean ====
section
/-! DEFINITION. One arm for each command: its meaning. -/

namespace Sys2Proof.Machine

def exec (i : Instr) (s : State) : Host.Outcome State Fault Refusal :=
  match i with
  | .powerUp => Sys2Proof.Machine.execPowerUp s
  | .powerDown => Sys2Proof.Machine.execPowerDown s
  | .resetLow => Sys2Proof.Machine.execResetLow s
  | .resetRelease => Sys2Proof.Machine.execResetRelease s
  | .powerOnEnd straps => Sys2Proof.Machine.execPowerOnEnd straps s
  | .loadingEnd spoiledM spoiledL leads straps => Sys2Proof.Machine.execLoadingEnd spoiledM spoiledL leads straps s
  | .strapChange straps => Sys2Proof.Machine.execStrapChange straps s
  | .permissiveLoss p => Sys2Proof.Machine.execPermissiveLoss p s
  | .permissiveRestore p => Sys2Proof.Machine.execPermissiveRestore p s
  | .startButtonEdge b => Sys2Proof.Machine.execStartButtonEdge b s
  | .stopButtonEdge b => Sys2Proof.Machine.execStopButtonEdge b s
  | .meterAEdge m bHigh => Sys2Proof.Machine.execMeterAEdge m bHigh s
  | .meterBEdge m => Sys2Proof.Machine.execMeterBEdge m s
  | .verifyPulse k => Sys2Proof.Machine.execVerifyPulse k s
  | .tempReadStart bay => Sys2Proof.Machine.execTempReadStart bay s
  | .tempReadEnd bay reports => Sys2Proof.Machine.execTempReadEnd bay reports s
  | .checkingTimeout n => Sys2Proof.Machine.execCheckingTimeout n s
  | .sampleEvent n => Sys2Proof.Machine.execSampleEvent n s
  | .strokeTimeEnd k => Sys2Proof.Machine.execStrokeTimeEnd k s
  | .verifyTailEnd k => Sys2Proof.Machine.execVerifyTailEnd k s
  | .settleExpiry n => Sys2Proof.Machine.execSettleExpiry n s
  | .finishTimeout n => Sys2Proof.Machine.execFinishTimeout n s
  | .holdLimitExpiry load => Sys2Proof.Machine.execHoldLimitExpiry load s
  | .stationStatus payload => Sys2Proof.Machine.execStationStatus payload s
  | .readArm payload => Sys2Proof.Machine.execReadArm payload s
  | .stageLoad payload => Sys2Proof.Machine.execStageLoad payload s
  | .startLoad payload => Sys2Proof.Machine.execStartLoad payload s
  | .holdLoad payload => Sys2Proof.Machine.execHoldLoad payload s
  | .resumeLoad payload => Sys2Proof.Machine.execResumeLoad payload s
  | .amendPreset payload => Sys2Proof.Machine.execAmendPreset payload s
  | .abortLoad payload => Sys2Proof.Machine.execAbortLoad payload s
  | .readLoad payload => Sys2Proof.Machine.execReadLoad payload s
  | .retireLoad payload => Sys2Proof.Machine.execRetireLoad payload s
  | .listLoads payload => Sys2Proof.Machine.execListLoads payload s
  | .defineRecipe payload => Sys2Proof.Machine.execDefineRecipe payload s
  | .amendRecipe payload => Sys2Proof.Machine.execAmendRecipe payload s
  | .retireRecipe payload => Sys2Proof.Machine.execRetireRecipe payload s
  | .readRecipe payload => Sys2Proof.Machine.execReadRecipe payload s
  | .listRecipes payload => Sys2Proof.Machine.execListRecipes payload s
  | .clearAlarms payload => Sys2Proof.Machine.execClearAlarms payload s
  | .readSetting payload => Sys2Proof.Machine.execReadSetting payload s
  | .writeSetting payload => Sys2Proof.Machine.execWriteSetting payload s
  | .saveSettings payload => Sys2Proof.Machine.execSaveSettings payload s
  | .saveByteDone acked => Sys2Proof.Machine.execSaveByteDone acked s
  | .restart payload => Sys2Proof.Machine.execRestart payload s
  | .holdAll => Sys2Proof.Machine.execHoldAll s
  | .unknownRequest code payload => Sys2Proof.Machine.execUnknownRequest code payload s
  | .broadcastIgnored code payload => Sys2Proof.Machine.execBroadcastIgnored code payload s
  | .frameDiscard reason frame => Sys2Proof.Machine.execFrameDiscard reason frame s
  | .frameIdleTimeout frame => Sys2Proof.Machine.execFrameIdleTimeout frame s
  | .pendingFrameDiscard => Sys2Proof.Machine.execPendingFrameDiscard s
  | .replyBegin => Sys2Proof.Machine.execReplyBegin s
  | .replyEnd => Sys2Proof.Machine.execReplyEnd s
  | .linkSilence => Sys2Proof.Machine.execLinkSilence s
  | .frameForOtherStation mark begun => Sys2Proof.Machine.execFrameForOtherStation mark begun s

end Sys2Proof.Machine
end

