-- ==== Sys2Proof/Machine/Outputs.lean ====
section
/-! DEFINITION. The output leads, as functions of the state (R97, R115, R148, R151, R176, R177; 00_scope.md, "pins
and limits"). They hold no state of their own (log entry 24). -/

namespace Sys2Proof.Machine

/-- GVna, output 1 of the arm's gas valve (R97). -/
def State.gasOutput1 (s : State) (n : ArmId) : Bool :=
  match (s.arm n).valve with
  | .close => false
  | .hold | .openFurther => true

/-- GVnb, output 2 of the arm's gas valve (R97). -/
def State.gasOutput2 (s : State) (n : ArmId) : Bool :=
  match (s.arm n).valve with
  | .openFurther => true
  | .close | .hold => false

/-- EBVn, the ethanol block valve: on exactly while the setpoint is above 0 (R115, R126). -/
def State.blockValve (s : State) (n : ArmId) : Bool := decide (0 < (s.ratio n).setpoint)

/-- ESPn, the setpoint output: its duty as a fraction of the full 3,000 L/min (00_scope.md). -/
def State.setpointDuty (s : State) (n : ArmId) : Nat × Nat := ((s.ratio n).setpoint, 3000)

/-- INJn, the injector's solenoid: on for the stroke time (R150, R151). -/
def State.injectorOutput (s : State) (i : InjId) : Bool := (s.injector i).state == .stroking

/-- LDE, the driver enable of the link: on while a reply is sent (R177). -/
def State.driverEnable (s : State) : Bool := s.link.sending.isSome

/-- TCSA and TCSB, the converter selects: on during a read of the bay (R60). -/
def State.converterSelect (s : State) : Bay → Bool
  | .a => s.port.readingA
  | .b => s.port.readingB

/-- The 11 bits of a character: start bit, 8 data bits from the least significant, address mark, stop bit
(R177). -/
def characterBits (mark : Bool) (b : Byte) : List Bool :=
  [false, b.getLsbD 0, b.getLsbD 1, b.getLsbD 2, b.getLsbD 3, b.getLsbD 4, b.getLsbD 5, b.getLsbD 6, b.getLsbD 7, mark,
    true]

/-- The bits of a frame on the line: the first character is marked, the others are not (R177). -/
def frameBits : List Byte → List Bool
  | [] => []
  | b :: rest => characterBits true b ++ rest.flatMap (characterBits false)

/-- The bits of the reply on the line; none while the line is idle (R177). -/
def State.lineBits (s : State) : List Bool :=
  match s.link.sending with
  | some frame => frameBits frame
  | none => []

/-- LTX at bit time `k` of the reply on the line: high while the line is idle, and past the last stop bit (R176,
R177). -/
def State.ltx (s : State) (k : Nat) : Bool := s.lineBits[k]?.getD true

end Sys2Proof.Machine
end

