-- ==== Sys2Proof/Safety.lean ====
section
/-! DEFINITION. What counts as safe, in the terms the statements use: the tables and lists of the load and
recipe tables (R1, R7, R31, R33), the header (R130), the grant queue (R134, R135), the permissives (R166), the gas
target (R94) and the outputs (R95, R97, R111). -/

namespace Sys2Proof.Machine

/-! ## Tables (R1, R31, R33) -/

/-- The number of records that name a recipe (R33). -/
def State.namedBy (s : State) (recipe : Nat) : Nat := (s.loads.filter fun l => l.recipe == recipe).length

/-- The load table and the recipe table agree, and keep their bounds. -/
structure State.TablesOk (s : State) : Prop where
  /-- R1. -/
  loadsFit : s.loads.length ≤ 16
  /-- R1. -/
  loadNumbers : (s.loads.map (·.number)).Nodup
  /-- R31. -/
  recipesFit : s.recipes.length ≤ 24
  /-- R31. -/
  recipeNumbers : (s.recipes.map (·.number)).Nodup
  /-- R33. -/
  counts : ∀ r ∈ s.recipes, r.count = s.namedBy r.number
  /-- R33. -/
  named : ∀ l ∈ s.loads, (s.recipe? l.recipe).isSome = true
  /-- R33. -/
  retiring : ∀ r ∈ s.recipes, r.state = .retiring → 0 < r.count

/-! ## Lists (R7) -/

/-- The place of a record in its arm's list: ENDED, then active, then STAGED (R7). -/
def LoadState.rank : LoadState → Nat
  | .ended => 0
  | .ready | .delivering | .held => 1
  | .staged => 2

/-- Each arm's list stands in its order, with at most one active and at most three STAGED records. -/
structure State.ListsOk (s : State) : Prop where
  oneActive : ∀ n : ArmId, ((s.armList n).filter Load.isActive).length ≤ 1
  threeStaged : ∀ n : ArmId, s.stagedCount n ≤ 3
  order : ∀ n : ArmId, (s.armList n).Pairwise fun a b => a.state.rank ≤ b.state.rank

/-! ## Phases -/

/-- DELIVERING in HEADER_WAIT, LOW, HIGH or TAPER (R166). -/
def holdablePhase : Option Phase → Bool
  | some .headerWait | some .low | some .high | some .taper => true
  | some .finish | some .settle | none => false

/-- DELIVERING in LOW, HIGH, TAPER or FINISH: the phases in which ethanol may flow (R111). -/
def blendingPhase : Option Phase → Bool
  | some .low | some .high | some .taper | some .finish => true
  | some .headerWait | some .settle | none => false

/-! ## Permissives, queue and outputs (R134, R166, R95, R97, R111) -/

/-- R166 for one arm. -/
def State.permitted (s : State) (n : ArmId) : Bool :=
  match s.active n with
  | none => true
  | some l =>
    !holdablePhase l.deliveringPhase || (s.permissivesMet n (s.fraction l) && !s.latchedClass n .stop)

/-- A waiting request belongs to a record in the phase that makes it: HEADER_WAIT for LOW, LOW with upgrade
pending yes for UPGRADE (R134). -/
def State.requestFits (s : State) (r : HeaderRequest) : Bool :=
  match r.kind with
  | .low => s.phase r.arm == some .headerWait
  | .upgrade => s.phase r.arm == some .low && (s.active r.arm).any fun l => l.upgradePending == some true

/-- What keeps a delivery safe. -/
structure State.DeliveryOk (s : State) : Prop where
  tables : s.TablesOk
  lists : s.ListsOk
  /-- No record outside RUNNING (R1, R30). -/
  stopped : s.isRunning = false → s.loads = []
  /-- R134. -/
  oneRequest : (s.queue.map (·.arm)).Nodup
  /-- R134. -/
  requests : ∀ r ∈ s.queue, s.requestFits r = true
  /-- R166. -/
  permitted : ∀ n : ArmId, s.permitted n = true
  /-- R95: CLOSE whenever the arm has no record DELIVERING in LOW, HIGH or TAPER. -/
  valve : ∀ n : ArmId, (s.arm n).valve ≠ .close → flowingPhase (s.phase n) = true
  /-- R111: setpoint 0 but in LOW, HIGH, TAPER and FINISH. -/
  setpoint : ∀ n : ArmId, 0 < (s.ratio n).setpoint → blendingPhase (s.phase n) = true

/-! ## Header (R130, R135, R137) and gas target (R94) -/

/-- With C above 0 the amounts held never exceed C; an arm holds a reservation exactly while its record is in
LOW, HIGH, TAPER or FINISH, at its low amount or, at HIGH, at no less; a queue waits only while its head does not
fit; and every gas target is the one of its arm's phase and amount. -/
structure State.HeaderOk (s : State) : Prop where
  /-- R130. -/
  within : 0 < s.capacity → s.heldSum ≤ s.capacity
  /-- R132, R137. -/
  lowExact : ∀ n : ArmId, (s.resv n).level = .low → (s.resv n).amount = (s.resv n).lowAmount
  /-- R131, R133. -/
  highCovers : ∀ n : ArmId, (s.resv n).level = .high → (s.resv n).lowAmount ≤ (s.resv n).amount
  /-- R138. -/
  noneHeld : ∀ n : ArmId, (s.resv n).level = .none → (s.resv n).amount = 0
  /-- R132, R138. -/
  held : ∀ n : ArmId, (s.resv n).level ≠ .none ↔ blendingPhase (s.phase n) = true
  /-- R132, R136: a waiting LOW request asks for its arm's low amount. -/
  queuedLow : ∀ r ∈ s.queue, r.kind = .low → r.amount = (s.resv r.arm).lowAmount
  /-- R113. -/
  clamped : ∀ n : ArmId, (s.ratio n).setpoint ≤ (s.resv n).amount
  /-- R135: the head of a queue asks for more than the free capacity. -/
  headWaits : ∀ r ∈ s.queue.head?, 0 < s.capacity ∧ s.capacity < s.heldSum + r.amount
  /-- R94, R116: the target is recomputed at every phase change and every change of the amount. -/
  targets : ∀ n : ArmId, (s.arm n).gasTarget = s.gasTargetFor n

/-! ## Requests, push-buttons and starts -/

/-- The push-button levels after a command: one of them as the row of a button gives it, the others as they were
(R103). -/
def State.buttonsAfter (s : State) : Instr → ButtonLevels
  | .startButtonEdge b => { s.buttons with start := s.buttons.start.set b.arm b.pressed }
  | .stopButtonEdge b => { s.buttons with stop := s.buttons.stop.set b.arm b.pressed }
  | _ => s.buttons

/-- The station takes a frame for it: it reads the line and no reply is pending (R176, R177, R185). -/
structure State.Accepts (s : State) : Prop where
  listening : s.listening = true
  nonePending : s.link.reply = none

/-- The silence timer for a silence time, from a moment on (R187). -/
def silenceFrom (c : StationSettings) (now : Nat) : Option Nat :=
  if c.silenceTime = 0 then none else some (now + 1000 * c.silenceTime)

/-- The link after a good frame: WAIT, no frame in progress, the silence timer restarted, and one discard
counted when the receiver held a frame of the other kind (R180, R183, R186, R187). -/
def State.linkReceived (s : State) (broadcast : Bool) : Link :=
  { s.link with
    receiver := .wait
    frame := none
    errors := (s.link.abandonOther broadcast).errors
    silence := silenceFrom s.settings.station s.now }

/-- The link after a taken request: received, and this reply pending (R183). -/
def State.linkAnswered (s : State) (code : Byte) (r : Result) (payload : List Byte) : Link :=
  { s.linkReceived false with reply := some ⟨code, r, payload⟩ }

/-- A request answered with a refusal changes the link alone. -/
def State.refusedAs (s : State) (code : Byte) (r : Result) : State := s.withLink (s.linkAnswered code r [])

/-- The station in the start state of every block (R194), from `s`. -/
structure State.StartedInto (s t : State) : Prop where
  loads : t.loads = []
  recipes : t.recipes = []
  arms : ∀ n : ArmId, t.arm n = ArmSeq.start (s.arm n).history
  ratios : ∀ n : ArmId, t.ratio n = Ratio.start
  reservations : ∀ n : ArmId, t.resv n = Reservation.start
  queue : t.queue = []
  meters : ∀ m : MeterId, t.meter m = Meter.start
  channels : ∀ m : MeterId, t.channel m = TempChannel.start
  port : t.port = TempPort.start
  injectors : ∀ i : InjId, t.injector i = Injector.start
  alarms : ∀ n : ArmId, t.alarm n = ArmAlarms.start
  stationAlarms : t.stationAlarms = []
  receiver : t.link.receiver = .wait ∧ t.link.frame = none
  replies : t.link.reply = none ∧ t.link.overrun = false ∧ t.link.sending = none
  silence : t.link.silence = none ∧ t.link.errors = 0
  store : t.store.mode = .powerOn ∧ t.store.line = .idle ∧ t.store.save = none ∧ t.store.restart = false
  marks : t.store.mixedM = s.store.mixedM ∧ t.store.mixedL = s.store.mixedL
  straps : t.store.sampledStraps = s.store.sampledStraps ∧ t.store.filteredStraps = s.store.filteredStraps
  address : t.link.address = s.link.address ∧ t.link.source = s.link.source
  kept : t.now = s.now ∧ t.pending = s.pending ∧ t.settings = s.settings ∧ t.memory = s.memory ∧ t.levels = s.levels
    ∧ t.buttons = s.buttons

/-! ## Stored settings (R196) -/

/-- The stored value of an item and an index: the three bytes at its place in the area's table, high byte first (log
entry 5). -/
def Memory.storedValue (m : Memory) (a : Area) (item index : Nat) : Nat :=
  fromBytes (m.readRun (a.start + 3 * a.slots.idxOf (item, index)) 3)

/-! ## Samples (R63, R85, R104, R112) -/

/-- A channel of the arm has gone more than the temperature hold time without a valid sample, at a moment (R63). -/
def State.staleAt (s : State) (n : ArmId) (now : Nat) : Prop :=
  ∃ m : MeterId, meterArm m = n ∧
    ∃ t, (s.channel m).lastValidTime = some t ∧ 1000 * s.settings.station.tempHold < now - t

/-- The deficit of a record, on the fraction `f` (R112). -/
def Load.deficitOn (l : Load) (f : Nat) : Int := ((l.gasNet * f / (1000 - f) : Nat) : Int) - l.ethNet

/-- The record's projected total has reached the arm's finish point (R85). -/
def State.finishReached (s : State) (n : ArmId) (l : Load) : Prop :=
  let h := (s.arm n).history
  (1000 * l.preset : Int) - ((h.h1 + h.h2 + h.h3 + h.h4) / 4 : Nat)
    ≤ (l.gasGross + l.ethGross : Nat) + max 0 (l.deficitOn (s.fraction l))

/-- The deviation band of a record (R117). -/
def State.deviationBand (s : State) (n : ArmId) (l : Load) : Nat :=
  s.tolerance l * (l.gasNet + l.ethNet) / 1000 + 1000 * (s.armCfg n).allowance

/-- A sample at which nothing before the deviation check takes the flowing record out of LOW, HIGH and TAPER: no
channel stale, both meters turning, and the totals after it, those of `l'`, short of the finish point. -/
def State.flowsOn (s : State) (n : ArmId) (now : Nat) (v : ArmSample) (l' : Load) : Prop :=
  flowingPhase (s.phase n) = true ∧ ¬ s.staleAt n now ∧ 0 < v.gas.flow ∧ 0 < v.eth.flow ∧ ¬ s.finishReached n l'

/-- A request for header capacity is granted at once: allocation is off, the amount is 0, or the queue is empty and
the amount is at or below the free capacity (R132, R133). -/
def State.grantedAtOnce (s : State) (amount : Nat) : Prop :=
  s.settings.station.capacity = 0 ∨ amount = 0 ∨
    (s.queue = [] ∧ (allArms.map fun k => (s.resv k).amount).sum + amount ≤ s.settings.station.capacity)

/-- The amount of a reservation level for a rate, at the fraction `f` (R131). -/
def State.ruledAmount (s : State) (n : ArmId) (rate f : Nat) : Nat :=
  let c := s.settings.station.capacity
  let clamped := min (rate * f * 11 / ((1000 - f) * 10)) (s.armCfg n).eMax
  max (if 0 < f then 1 else 0) (if 0 < c then min clamped c else clamped)

/-! ## Detections (R169) and the end of a record (R25 to R27) -/

/-- What a detection of a kind on an arm makes of `s`, by the class in force (R169, R15). -/
structure State.Detected (s t : State) (n : ArmId) (k : AlarmKind) : Prop where
  off : s.classOf k = .off → t = s
  latched : s.classOf k ≠ .off → k ∈ (t.alarm n).latched
  first : s.classOf k ≠ .off → (t.alarm n).first = if (s.alarm n).latched = [] then some k else (s.alarm n).first
  joined : ∀ j : AlarmKind, j ≠ k → (j ∈ (t.alarm n).latched ↔ j ∈ (s.alarm n).latched)
  sources : (t.alarm n).sources = (s.alarm n).sources
  others : ∀ m : ArmId, m ≠ n → t.alarm m = s.alarm m
  noHold : s.classOf k ≠ .stop ∨ (holdablePhase (s.phase n) = false ∧ s.phase n ≠ some .finish) →
    t = { s with alarms := t.alarms }
  held : s.classOf k = .stop → holdablePhase (s.phase n) = true →
    ∃ l l', s.active n = some l ∧ t.active n = some l' ∧ l'.number = l.number ∧ l'.state = .held ∧
      l'.lastCause = some .alarm ∧ l'.holdCount = min 255 (l.holdCount + 1) ∧
      (t.arm n).valve = .close ∧ (t.ratio n).setpoint = 0 ∧ (t.resv n).level = .none
  cut : s.classOf k = .stop → s.phase n = some .finish →
    ∃ l l', s.active n = some l ∧ t.active n = some l' ∧ l'.number = l.number ∧ l'.phase = some .settle ∧
      l'.lastCause = some .alarm ∧ l'.holdCount = min 255 (l.holdCount + 1) ∧ l'.flags.finishCut = true ∧
      (t.ratio n).setpoint = 0 ∧ (t.resv n).level = .none
  frame : t = { s with
    loads := t.loads, arms := t.arms, ratios := t.ratios, reservations := t.reservations, queue := t.queue,
    injectors := t.injectors, alarms := t.alarms }

/-- The achieved fraction a record ends with: ethanol net over total net, per ten-thousand, rounded to nearest,
halves up; absent for a total net of 0 (R27). -/
def Load.endFraction (l : Load) : Option Nat :=
  if l.gasNet + l.ethNet = 0 then none
  else some ((2 * (l.ethNet * 10000) + (l.gasNet + l.ethNet)) / (2 * (l.gasNet + l.ethNet)))

/-- The achieved fraction lies more than the tolerance from the recipe's share (R122). -/
def State.endsOffRatio (s : State) (l : Load) : Prop :=
  ∃ a, l.endFraction = some a ∧ ((a : Int) - 10 * s.fraction l).natAbs > 10 * s.tolerance l

/-- A COMPLETE end without FINISH_CUT whose overrun is above the limit (R107). -/
def State.endsHigh (s : State) (n : ArmId) (l : Load) (r : EndReason) : Prop :=
  r = .complete ∧ l.flags.finishCut = false ∧
    (l.gasGross : Int) + l.ethGross - 1000 * l.preset > 1000 * (s.armCfg n).overrunLimit

/-- The arm's active record `l` of `s` has ended with reason `r` in `t` (R25 to R27, R105, R107, R122, R8). -/
structure State.EndedAs (s t : State) (n : ArmId) (l : Load) (r : EndReason) : Prop where
  record : ∃ l', t.load? l.number = some l' ∧
    l' = { l with
      state := .ended, phase := none, upgradePending := none, abortTaken := none, holdTimer := none
      endReason := some r, achieved := l.endFraction
      overrun := if r = .complete then some ((l.gasGross : Int) + l.ethGross - 1000 * l.preset) else none
      flags := l'.flags } ∧
    l'.flags.finishCut = l.flags.finishCut ∧ l'.flags.tempHeld = l.flags.tempHeld ∧
    (l'.flags.offRatio = true ↔ l.flags.offRatio = true ∨ s.endsOffRatio l) ∧
    (l'.flags.additiveShort = true ↔ l.flags.additiveShort = true ∨ ∃ e ∈ l.entries, e.verified < e.due) ∧
    (l'.flags.overrunHigh = true ↔ l.flags.overrunHigh = true ∨ s.endsHigh n l r)
  attention : t.attention = s.attention + 1
  closed : (t.arm n).valve = .close ∧ (t.arm n).gasTarget = 0 ∧ (t.arm n).settle = .stopped ∧ (t.ratio n).setpoint = 0
  masked : ∀ i : InjId, (s.injCfg i).arm = armNumber n → (t.injector i).mask = true
  taught : r = .complete → l.flags.finishCut = false →
    let h := (s.arm n).history
    (t.arm n).history = ⟨h.h2, h.h3, h.h4,
      (max 0 (min 50000 ((((h.h1 + h.h2 + h.h3 + h.h4) / 4 : Nat) : Int)
        + ((l.gasGross : Int) + l.ethGross - 1000 * l.preset)))).toNat⟩
  untaught : r ≠ .complete ∨ l.flags.finishCut = true → (t.arm n).history = (s.arm n).history
  offRatio : s.endsOffRatio l → s.classOf .offRatio ≠ .off → AlarmKind.offRatio ∈ (t.alarm n).latched
  high : s.endsHigh n l r → s.classOf .overrunHigh ≠ .off → AlarmKind.overrunHigh ∈ (t.alarm n).latched
  promoted : ∀ k, (s.arm n).mode = .available → s.oldestStaged n = some k →
    t.active n = some { k with state := .ready }
  unpromoted : (s.arm n).mode ≠ .available ∨ s.oldestStaged n = none → t.active n = none

end Sys2Proof.Machine
end

