-- ==== Sys2Proof/Certificates/Slice0/Obligations.lean ====
section
/-! DEFINITION. The statements for the provers: what the commands do, what they leave, and what every step
keeps. Rules are those of spec/; log entries are those of notes/assumptions. Where the command of a timer moves
the clock to the moment the timer runs out (`max s.now due`), that is log entry 1. -/

open Sys2Proof Sys2Proof.Machine

/-! ## The step -/

/-- A step runs the command at the front of the queue on the state with the queue's rest. -/
def Obligations.StepRunsTheFrontCommand : Prop :=
  ∀ (c : Instr) (rest : List Instr) (s : State), s.pending = c :: rest → step s = exec c (s.withPending rest)

/-- With no command waiting a step is one ms (log entry 1): only the clock and the queue change, and a sample
clock that has run out puts its SAMPLE_EVENT into the queue. -/
def Obligations.IdleStepIsOneMillisecond : Prop :=
  ∀ s : State, s.pending = [] →
    ∃ t, step s = .next t ∧ t.now = s.now + 1 ∧ t = { s with now := t.now, pending := t.pending } ∧
      ∀ (n : ArmId) (due : Nat), (s.arm n).sampleClock = some due → (Instr.sampleEvent n ∈ t.pending ↔ due ≤ s.now + 1)

/-- No command changes the queue of the commands behind it. -/
def Obligations.CommandsKeepTheQueue : Prop :=
  ∀ (c : Instr) (s t : State), exec c s = .next t → t.pending = s.pending

/-! ## Starts (11_start_up_and_stored_settings.md) -/

/-- POWER_UP, RESET_RELEASE and the REPLY_END of an accepted RESTART put every block into its start state, with
the reset cause the event gives; POWER_ON ends 100 ms later when supply and RESETn allow it. That the event begins
a start whatever stood before (log entry 3), that settings, levels, straps, address and histories stand through it
(log entry 25), that a byte whose write the start abandons stays as stored (log entry 42), and the speed in force at
the end of the reply (log entry 30) are the model's choice. -/
def Obligations.StartsPutEveryBlockIntoItsStartState : Prop :=
  ∀ (c : Instr) (cause : ResetCause) (s : State),
    (c = .powerUp ∧ cause = .powerOn) ∨ (c = .resetRelease ∧ cause = .resetPin)
      ∨ (c = .replyEnd ∧ cause = .hostRestart ∧ s.link.sending.isSome = true ∧ s.store.restart = true) →
    ∃ t, exec c s = .next t ∧ s.StartedInto t ∧ t.store.cause = cause ∧
      t.store.startTimer = (if t.store.supplyUp && !t.store.resetLow then some (s.now + 100) else none) ∧
      t.link.speed = (if c = .replyEnd then s.settings.station.lineSpeed else s.link.speed) ∧
      t.store.supplyUp = (s.store.supplyUp || decide (c = .powerUp)) ∧
      t.store.resetLow = (s.store.resetLow && !decide (c = .resetRelease))

/-- POWER_DOWN and RESET_LOW keep the station at the beginning of a start: every block is in its start state
and the end of POWER_ON does not come (log entry 23). What stands through it, a byte whose write is abandoned among
it, is the model's choice (log entries 25 and 42). -/
def Obligations.PowerDownAndResetLowHoldTheStart : Prop :=
  ∀ (c : Instr) (s : State), c = .powerDown ∨ c = .resetLow →
    ∃ t, exec c s = .next t ∧ s.StartedInto t ∧ t.store.startTimer = none ∧ t.store.cause = s.store.cause ∧
      t.link.speed = s.link.speed ∧
      t.store.supplyUp = (s.store.supplyUp && decide (c ≠ .powerDown)) ∧
      t.store.resetLow = (s.store.resetLow || decide (c = .resetLow))

/-- POWER_ON_END samples the straps and enters LOADING; a strap number of 1 to 31 becomes the address. -/
def Obligations.PowerOnEndSamplesTheStraps : Prop :=
  ∀ (straps : BitVec 5) (due : Nat) (s : State), s.store.mode = .powerOn → s.store.startTimer = some due →
    ∃ t, exec (.powerOnEnd straps) s = .next t ∧
      t = { s with now := max s.now due, store := t.store, link := t.link } ∧
      t.store = { s.store with mode := .loading, line := .reading, sampledStraps := straps, startTimer := none } ∧
      t.link = (if straps = 0 then s.link else { s.link with address := straps.toNat, source := .straps })

/-- LOADING_END by the table of R196: the state entered and the alarms latched follow from which area was read
valid; the arms in service enter CHECKING in RUNNING, and every arm stays as it was in UNCONFIGURED. The permissive
levels are taken from the leads, and in RUNNING the push-button levels, without an edge. The moments of the first
converter reads are the model's choice (log entry 19). -/
def Obligations.LoadingEndEntersByTheAreas : Prop :=
  ∀ (a b : Nat) (leads : Leads) (straps : BitVec 5) (c : Settings) (m l : Bool) (s : State),
    s.store.mode = .loading → s.loadSettings a b = (c, m, l) → s.stationAlarms = [] →
    (∀ n : ArmId, s.channelsReady n = false) →
    ∃ t, exec (.loadingEnd a b leads straps) s = .next t ∧
      t.settings = c ∧ t.levels = leads.permissives ∧ t.buttons = (if m then leads.buttons else s.buttons) ∧
      t.store = { s.store with
        mode := if m then .running else .unconfigured, line := .idle, filteredStraps := straps } ∧
      t.stationAlarms = [.restarted] ++ (if l then [] else [.configDefaulted])
        ++ (if straps = s.store.sampledStraps then [] else [.addressChanged]) ∧
      t.link = { s.link with
        silence := silenceFrom c.station s.now
        speed := c.station.lineSpeed
        address := if s.store.sampledStraps = 0 then c.station.linkAddress else s.link.address
        source := if s.store.sampledStraps = 0 then .setting else s.link.source } ∧
      t.port = { nextA := some s.now, nextB := some (s.now + 50), readingA := false, readingB := false } ∧
      t = { s with
        store := t.store, settings := t.settings, link := t.link, levels := t.levels, buttons := t.buttons
        port := t.port, arms := t.arms, stationAlarms := t.stationAlarms } ∧
      ∀ n : ArmId, (t.arm n).history = History.all (1000 * c.arms[n].gasComp) ∧
        (t.arm n).mode = (if m && c.arms[n].inService then .checking else (s.arm n).mode) ∧
        (t.arm n).checkTimer = (if m && c.arms[n].inService then some (s.now + 30000) else (s.arm n).checkTimer) ∧
        (t.arm n).valve = (s.arm n).valve ∧ (t.arm n).sampleClock = (s.arm n).sampleClock

/-- An area is read valid exactly when fewer than three attempts were spoiled, it holds no mixed image, its CRC
matches, every stored value lies in its item's range and, for area M, the rules between items hold; its stored
values are then the working ones. Otherwise the defaults stand for its items (R196). That every attempt counted as
spoiled fails is log entry 9, the mark of a mixed image is log entry 32, and the places of the items are log entry
5: the model's choice. -/
def Obligations.FailedAreasFallBackToDefaults : Prop :=
  ∀ (a b : Nat) (s : State) (m l : Nat → Nat → Nat),
    m = s.memory.storedValue .m → l = s.memory.storedValue .l →
    ((s.loadSettings a b).2.1 = true ↔
      a < 3 ∧ s.store.mixedM = false ∧ s.memory.areaCrc .m = crcBytes (s.memory.areaData .m) ∧
        (∀ p ∈ Area.m.slots, itemInRange p.1 p.2 (m p.1 p.2) = true) ∧
        (∀ n : ArmId, m 3 (armNumber n) ≤ m 4 (armNumber n)) ∧
        (∀ k : MeterId, m 35 (k.val + 1) < m 36 (k.val + 1) ∧ m 36 (k.val + 1) < m 37 (k.val + 1) ∧
          m 37 (k.val + 1) < m 38 (k.val + 1)) ∧
        (∀ (n : ArmId) (set : List InjId), set = allInjectors.filter (fun i => m 50 (i.val + 1) = armNumber n) →
          set.length ≤ 3 ∧ (set.map fun i => m 51 (i.val + 1)).Nodup)) ∧
    ((s.loadSettings a b).2.2 = true ↔
      b < 3 ∧ s.store.mixedL = false ∧ s.memory.areaCrc .l = crcBytes (s.memory.areaData .l) ∧
        ∀ p ∈ Area.l.slots, itemInRange p.1 p.2 (l p.1 p.2) = true) ∧
    ((s.loadSettings a b).2.1 = true → ∀ p ∈ Area.m.slots, ∀ slot, slotOf p.1 p.2 = some slot →
      (s.loadSettings a b).1.get slot = m p.1 p.2) ∧
    ((s.loadSettings a b).2.2 = true → ∀ p ∈ Area.l.slots, ∀ slot, slotOf p.1 p.2 = some slot →
      (s.loadSettings a b).1.get slot = l p.1 p.2) ∧
    ((s.loadSettings a b).2.1 = false → (s.loadSettings a b).1.arms = Settings.default.arms ∧
      (s.loadSettings a b).1.meters = Settings.default.meters ∧
      (s.loadSettings a b).1.injectors = Settings.default.injectors) ∧
    ((s.loadSettings a b).2.2 = false → (s.loadSettings a b).1.station = Settings.default.station)

/-- STRAP_CHANGE: a filtered strap number unlike the sampled straps latches ADDRESS_CHANGED once; the address
and the sampled straps stay. PERMISSIVE_RESTORE: one level alone changes. -/
def Obligations.LevelsAndStrapsAreWatched : Prop :=
  ∀ (straps : BitVec 5) (p q : Permissive) (s : State), s.operating = true →
    (straps ≠ s.store.filteredStraps →
      exec (.strapChange straps) s = .next
        { s with
          store := { s.store with filteredStraps := straps }
          stationAlarms :=
            if straps = s.store.sampledStraps ∨ StationAlarm.addressChanged ∈ s.stationAlarms then s.stationAlarms
            else s.stationAlarms ++ [.addressChanged] }) ∧
    ∃ t, exec (.permissiveRestore p) s = .next t ∧ t = { s with levels := t.levels } ∧ levelOf t.levels p = true ∧
      (q ≠ p → levelOf t.levels q = levelOf s.levels q)

/-! ## Permissives (09_permissives_and_alarms.md) -/

/-- PERMISSIVE_LOSS: on every arm the loss acts on, nothing flows any more, and the record is HELD, in SETTLE or
not DELIVERING: one that was in LOW, HIGH or TAPER is HELD, one in FINISH in SETTLE with FINISH_CUT, either with
cause PERMISSIVE and one more hold. An arm with a DELIVERING record has PERMIT_LOSS latched and the permissive among
its loss sources; the alarms of the arms it does not act on are as they were. The order of the arms is the model's
choice (log entry 36); no clause here rests on it. -/
def Obligations.LossStopsEveryArmItActsOn : Prop :=
  ∀ (p : Permissive) (s : State), s.DeliveryOk → s.operating = true → levelOf s.levels p = true →
    ∃ t, exec (.permissiveLoss p) s = .next t ∧ t.levels = setLevel s.levels p false ∧
      (∀ n : ArmId, s.lossActs p n = true → (t.phase n = none ∨ t.phase n = some .settle) ∧
        (t.arm n).valve = .close ∧ (t.ratio n).setpoint = 0) ∧
      (∀ (n : ArmId) (l : Load), s.lossActs p n = true → s.active n = some l →
        (flowingPhase (s.phase n) = true → ∃ l', t.active n = some l' ∧ l'.number = l.number ∧ l'.state = .held ∧
          l'.lastCause = some .permissive ∧ l'.holdCount = min 255 (l.holdCount + 1)) ∧
        (s.phase n = some .finish → ∃ l', t.active n = some l' ∧ l'.number = l.number ∧ l'.state = .delivering ∧
          l'.phase = some .settle ∧ l'.flags.finishCut = true ∧ l'.lastCause = some .permissive ∧
          l'.holdCount = min 255 (l.holdCount + 1))) ∧
      (∀ n : ArmId, s.lossActs p n = true → (s.phase n).isSome = true →
        AlarmKind.permitLoss ∈ (t.alarm n).latched ∧ lossSourceOf p ∈ (t.alarm n).sources) ∧
      (∀ n : ArmId, s.lossActs p n = false ∨ s.phase n = none → t.alarm n = s.alarm n) ∧
      t = { s with
        levels := t.levels, loads := t.loads, arms := t.arms, ratios := t.ratios, reservations := t.reservations,
        queue := t.queue, injectors := t.injectors, alarms := t.alarms }

/-! ## START, RESUME and holds (01_load_records.md, 05_delivery_sequencing.md) -/

/-- START LOAD and the start push-button's edge on a READY record that meets the start conditions: the record is
DELIVERING with abort taken no; pending counts, debts, unassigned volumes and the hold drain are 0; the sample
clock is restarted; the arm's injectors have their mask off. The LOW request asks for the amount of R131: granted
at once, the record is not in HEADER_WAIT and in LOW or TAPER holds that amount; not granted, the request stands at
the back of the queue and the record waits. With f = 0 it never waits. -/
def Obligations.StartBeginsTheDelivery : Prop :=
  ∀ (c : Instr) (p : List Byte) (n : ArmId) (l : Load) (a : Nat) (s : State),
    s.ListsOk → (s.loads.map (·.number)).Nodup → s.active n = some l → l.state = .ready → s.mayStart n l = true →
    a = s.ruledAmount n (s.armCfg n).lowRate (s.fraction l) →
    (c = .startButtonEdge ⟨n, true⟩ ∧ s.buttons.start[n] = false)
      ∨ (c = .startLoad p ∧ s.Accepts ∧ p.length = 2 ∧ fieldAt p 0 2 = l.number ∧ l.number ≠ 0) →
    ∃ t l', exec c s = .next t ∧ t.active n = some l' ∧ l'.number = l.number ∧ l'.preset = l.preset ∧
      l'.recipe = l.recipe ∧ l'.state = .delivering ∧ l'.abortTaken = some false ∧ l'.holdCount = l.holdCount ∧
      (s.fraction l = 0 → l'.phase ≠ some .headerWait) ∧
      (s.grantedAtOnce a → l'.phase ≠ some .headerWait ∧
        (l'.phase = some .low ∨ l'.phase = some .taper → t.resv n = ⟨.low, a, a⟩) ∧
        (l'.phase = some .low → l'.upgradePending = some false → t.queue = s.queue)) ∧
      (¬ s.grantedAtOnce a → l'.phase = some .headerWait ∧ t.queue = s.queue ++ [⟨n, .low, a⟩] ∧
        t.resv n = { s.resv n with lowAmount := a }) ∧
      (∀ m : MeterId, meterArm m = n → t.meter m = { s.meter m with pending := 0, debt := 0, unassigned := 0 }) ∧
      (∀ m : MeterId, meterArm m ≠ n → t.meter m = s.meter m) ∧
      (t.arm n).holdDrain = 0 ∧ (t.arm n).qGas = 0 ∧ (t.arm n).qEth = 0 ∧ (t.arm n).stalled = none ∧
      (t.arm n).sampleClock = some (s.now + (s.armCfg n).period / 2) ∧
      (∀ i : InjId, (s.injCfg i).arm = armNumber n → (t.injector i).mask = false) ∧
      (c = .startLoad p → t.link = s.linkAnswered 0x11 .ok
        (be16 l.number ++ byte1 LoadState.delivering.code ++ byte1 (phaseCode l'.phase))) ∧
      t = { s with
        link := t.link, loads := t.loads, arms := t.arms, ratios := t.ratios, reservations := t.reservations,
        queue := t.queue, meters := t.meters, injectors := t.injectors, buttons := s.buttonsAfter c }

/-- RESUME LOAD and the start push-button's edge on a HELD record that meets the start conditions: the record is
DELIVERING again with abort taken no and its hold-limit timer cancelled; its totals and hold count stay, and so
do pending counts, debts and unassigned volumes; the sample clock is restarted. The LOW request is granted at once
or joins the back of the queue, as at a START. -/
def Obligations.ResumeContinuesTheDelivery : Prop :=
  ∀ (c : Instr) (p : List Byte) (n : ArmId) (l : Load) (a : Nat) (s : State),
    s.ListsOk → (s.loads.map (·.number)).Nodup → s.active n = some l → l.state = .held → s.mayStart n l = true →
    a = s.ruledAmount n (s.armCfg n).lowRate (s.fraction l) →
    (c = .startButtonEdge ⟨n, true⟩ ∧ s.buttons.start[n] = false)
      ∨ (c = .resumeLoad p ∧ s.Accepts ∧ p.length = 2 ∧ fieldAt p 0 2 = l.number ∧ l.number ≠ 0) →
    ∃ t l', exec c s = .next t ∧ t.active n = some l' ∧ l'.number = l.number ∧ l'.state = .delivering ∧
      l'.abortTaken = some false ∧ l'.holdTimer = none ∧ l'.holdCount = l.holdCount ∧ l'.lastCause = l.lastCause ∧
      l'.gasGross = l.gasGross ∧ l'.gasNet = l.gasNet ∧ l'.ethGross = l.ethGross ∧ l'.ethNet = l.ethNet ∧
      (s.grantedAtOnce a → l'.phase ≠ some .headerWait ∧
        (l'.phase = some .low ∨ l'.phase = some .taper → t.resv n = ⟨.low, a, a⟩) ∧
        (l'.phase = some .low → l'.upgradePending = some false → t.queue = s.queue)) ∧
      (¬ s.grantedAtOnce a → l'.phase = some .headerWait ∧ t.queue = s.queue ++ [⟨n, .low, a⟩] ∧
        t.resv n = { s.resv n with lowAmount := a }) ∧
      (t.arm n).qGas = 0 ∧ (t.arm n).qEth = 0 ∧
      (t.arm n).sampleClock = some (s.now + (s.armCfg n).period / 2) ∧
      (∀ i : InjId, (s.injCfg i).arm = armNumber n → (t.injector i).mask = false) ∧
      (c = .resumeLoad p → t.link = s.linkAnswered 0x13 .ok
        (be16 l.number ++ byte1 LoadState.delivering.code ++ byte1 (phaseCode l'.phase))) ∧
      t = { s with
        link := t.link, loads := t.loads, arms := t.arms, ratios := t.ratios, reservations := t.reservations,
        queue := t.queue, injectors := t.injectors, buttons := s.buttonsAfter c }

/-- START LOAD and RESUME LOAD refuse in the order of R12 and R16. A start push-button's change that is no edge, or
an edge that finds no record to start or resume or the start conditions unmet, leaves no trace but the level of the
button (R13, R103); before RUNNING and UNCONFIGURED it leaves none (R193). That a release comes as the button's own
row, and that POWER_ON and LOADING follow no level, is the model's choice (log entry 38). -/
def Obligations.StartConditionsRefuse : Prop :=
  ∀ (p : List Byte) (b : ButtonChange) (l : Load) (s : State),
    (s.Accepts → p.length = 2 →
      (fieldAt p 0 2 = 0 →
        exec (.startLoad p) s = .next (s.refusedAs 0x11 .badField) ∧
        exec (.resumeLoad p) s = .next (s.refusedAs 0x13 .badField)) ∧
      (fieldAt p 0 2 ≠ 0 → s.load? (fieldAt p 0 2) = none →
        exec (.startLoad p) s = .next (s.refusedAs 0x11 .notFound) ∧
        exec (.resumeLoad p) s = .next (s.refusedAs 0x13 .notFound)) ∧
      (fieldAt p 0 2 ≠ 0 → s.load? (fieldAt p 0 2) = some l →
        (l.state ≠ .ready → exec (.startLoad p) s = .next (s.refusedAs 0x11 .wrongState)) ∧
        (l.state ≠ .held → exec (.resumeLoad p) s = .next (s.refusedAs 0x13 .wrongState)) ∧
        (l.state = .ready → s.mayStart l.arm l = false →
          exec (.startLoad p) s = .next (s.refusedAs 0x11 .notPermitted)) ∧
        (l.state = .held → s.mayStart l.arm l = false →
          exec (.resumeLoad p) s = .next (s.refusedAs 0x13 .notPermitted)))) ∧
    (s.operating = true →
      b.pressed = false ∨ s.buttons.start[b.arm] = true ∨ s.active b.arm = none ∨
        (s.active b.arm = some l ∧ (s.mayStart b.arm l = false ∨ l.state = .delivering)) →
      exec (.startButtonEdge b) s = .next { s with
        buttons := { s.buttons with start := s.buttons.start.set b.arm b.pressed } }) ∧
    (s.operating = false → exec (.startButtonEdge b) s = .next s)

/-- HOLD LOAD and the stop push-button's edge on a DELIVERING record in HEADER_WAIT, LOW, HIGH or TAPER make it HELD
with their cause; in FINISH they send it to SETTLE with FINISH_CUT. The valve closes, the setpoint is 0 and the
arm holds no reservation and has no request. The other requests are granted from the head of the queue on, in its
order: a LOW grant ends a HEADER_WAIT, an UPGRADE grant enters HIGH on the amount raised, an upgrade asked for at a
LOW grant joins the back, and those that stay keep their places. HOLD LOAD refuses in the order of R18; a stop
button's change that is no edge, or an edge where no record is held by it, changes the button's level alone
(R103), and before RUNNING and UNCONFIGURED nothing (R193; in POWER_ON and LOADING the model's choice, log entry
38). -/
def Obligations.HoldCauseStopsTheFlow : Prop :=
  (∀ (c : Instr) (cause : HoldCause) (p : List Byte) (n : ArmId) (l : Load) (s : State),
    s.DeliveryOk → s.active n = some l → holdablePhase (s.phase n) = true ∨ s.phase n = some .finish →
    (c = .stopButtonEdge ⟨n, true⟩ ∧ s.buttons.stop[n] = false ∧ cause = .stopButton ∧ (s.arm n).mode = .available)
      ∨ (c = .holdLoad p ∧ cause = .host ∧ s.Accepts ∧ p.length = 2 ∧ fieldAt p 0 2 = l.number ∧ l.number ≠ 0) →
    ∃ t l' granted waiting joined, exec c s = .next t ∧ t.active n = some l' ∧ l'.number = l.number ∧
      l'.holdCount = min 255 (l.holdCount + 1) ∧ l'.lastCause = some cause ∧
      l'.gasGross = l.gasGross ∧ l'.gasNet = l.gasNet ∧ l'.ethGross = l.ethGross ∧ l'.ethNet = l.ethNet ∧
      (holdablePhase (s.phase n) = true →
        l'.state = .held ∧ l'.phase = none ∧ l'.upgradePending = none ∧ l'.abortTaken = none ∧ l'.flags = l.flags ∧
        l'.holdTimer = s.holdDue ∧ (t.arm n).holdDrain = 0 ∧ (t.arm n).gasRun = none ∧ (t.arm n).ethRun = none) ∧
      (s.phase n = some .finish →
        l'.state = .delivering ∧ l'.phase = some .settle ∧ l'.flags.finishCut = true ∧ (t.ratio n).finishTimer = none ∧
        (t.arm n).settle = .running (s.now + 1000 * (s.armCfg n).settle)) ∧
      (t.arm n).valve = .close ∧ (t.arm n).gasTarget = 0 ∧ (t.ratio n).setpoint = 0 ∧
      (t.resv n).level = .none ∧ (t.resv n).amount = 0 ∧
      s.queue.filter (fun r => r.arm != n) = granted ++ waiting ∧ t.queue = waiting ++ joined ∧
      (∀ r ∈ granted, (r.kind = .low → t.phase r.arm ≠ some .headerWait) ∧
        (r.kind = .upgrade → t.phase r.arm = some .high ∧
          t.resv r.arm = { s.resv r.arm with level := .high, amount := (s.resv r.arm).amount + r.amount })) ∧
      (∀ r ∈ waiting, t.phase r.arm = s.phase r.arm ∧ t.resv r.arm = s.resv r.arm) ∧
      (∀ r ∈ joined, r.kind = .upgrade ∧ ∃ g ∈ granted, g.arm = r.arm ∧ g.kind = .low) ∧
      (c = .holdLoad p → t.link = s.linkAnswered 0x12 .ok
        (be16 l.number ++ byte1 l'.state.code ++ byte1 (phaseCode l'.phase))) ∧
      t = { s with
        link := t.link, loads := t.loads, arms := t.arms, ratios := t.ratios, reservations := t.reservations,
        queue := t.queue, injectors := t.injectors, buttons := s.buttonsAfter c }) ∧
  ∀ (p : List Byte) (b : ButtonChange) (l : Load) (s : State),
    (s.Accepts → p.length = 2 →
      (fieldAt p 0 2 = 0 → exec (.holdLoad p) s = .next (s.refusedAs 0x12 .badField)) ∧
      (fieldAt p 0 2 ≠ 0 → s.load? (fieldAt p 0 2) = none →
        exec (.holdLoad p) s = .next (s.refusedAs 0x12 .notFound)) ∧
      (fieldAt p 0 2 ≠ 0 → s.load? (fieldAt p 0 2) = some l → l.state ≠ .delivering ∨ l.phase = some .settle →
        exec (.holdLoad p) s = .next (s.refusedAs 0x12 .wrongState))) ∧
    (s.operating = true →
      b.pressed = false ∨ s.buttons.stop[b.arm] = true ∨ (s.arm b.arm).mode ≠ .available ∨ s.phase b.arm = none ∨
        s.phase b.arm = some .settle →
      exec (.stopButtonEdge b) s = .next { s with
        buttons := { s.buttons with stop := s.buttons.stop.set b.arm b.pressed } }) ∧
    (s.operating = false → exec (.stopButtonEdge b) s = .next s)

/-- HOLD_ALL and a LINK_SILENCE with action HOLD reach every arm: nothing flows at any, and each record is HELD, in
SETTLE or not DELIVERING. One that was in LOW, HIGH or TAPER is HELD with that cause, and one in FINISH is in SETTLE
with FINISH_CUT. No arm alarm is latched. With action CONTINUE the expiry latches LINK_SILENCE alone. The order of
the arms is the model's choice (log entry 36); no clause here rests on it. -/
def Obligations.StationHoldsReachEveryArm : Prop :=
  (∀ (c : Instr) (cause : HoldCause) (due : Nat) (s : State), s.DeliveryOk →
    (c = .holdAll ∧ cause = .broadcast ∧ s.Accepts)
      ∨ (c = .linkSilence ∧ cause = .linkSilence ∧ s.link.silence = some due ∧ s.settings.station.silenceAction = .hold) →
    ∃ t, exec c s = .next t ∧
      (∀ n : ArmId, (t.phase n = none ∨ t.phase n = some .settle) ∧ (t.arm n).valve = .close ∧
        (t.ratio n).setpoint = 0) ∧
      (∀ (n : ArmId) (l : Load), s.active n = some l →
        (flowingPhase (s.phase n) = true → ∃ l', t.active n = some l' ∧ l'.number = l.number ∧ l'.state = .held ∧
          l'.lastCause = some cause ∧ l'.holdCount = min 255 (l.holdCount + 1)) ∧
        (s.phase n = some .finish → ∃ l', t.active n = some l' ∧ l'.number = l.number ∧ l'.state = .delivering ∧
          l'.phase = some .settle ∧ l'.flags.finishCut = true ∧ l'.lastCause = some cause ∧
          l'.holdCount = min 255 (l.holdCount + 1))) ∧
      (c = .holdAll → t.link = s.linkReceived true ∧ t.now = s.now ∧ t.stationAlarms = s.stationAlarms) ∧
      (c = .linkSilence → t.link = { s.link with silence := none } ∧ t.now = max s.now due ∧
        StationAlarm.linkSilence ∈ t.stationAlarms) ∧
      t = { s with
        now := t.now, link := t.link, loads := t.loads, arms := t.arms, ratios := t.ratios,
        reservations := t.reservations, queue := t.queue, injectors := t.injectors, stationAlarms := t.stationAlarms }) ∧
  ∀ (due : Nat) (s : State), s.link.silence = some due → s.settings.station.silenceAction = .carryOn →
    exec .linkSilence s = .next { s with
      now := max s.now due
      link := { s.link with silence := none }
      stationAlarms :=
        if StationAlarm.linkSilence ∈ s.stationAlarms then s.stationAlarms else s.stationAlarms ++ [.linkSilence] }

/-! ## Meter channels (03_meter_inputs_and_pulse_security.md) -/

/-- METER_A_EDGE, forward: with the debt above 0 the pulse repays one; with debt 0 it is accepted. With pulse
security disabled every edge is forward and channel B and the window are not read. -/
def Obligations.ForwardPulseRepaysTheDebtFirst : Prop :=
  ∀ (m : MeterId) (b : Bool) (s : State), s.isRunning = true →
    (s.meterCfg m).security = false ∨ (b = false ∧ (s.meter m).windowA + 1 < (s.meterCfg m).window) →
    exec (.meterAEdge m b) s = .next { s with meters := s.meters.set m { s.meter m with
      debt := (s.meter m).debt - 1
      pending := if 0 < (s.meter m).debt then (s.meter m).pending else min 65535 ((s.meter m).pending + 1)
      windowA := (s.meter m).windowA + if (s.meterCfg m).security = true then 1 else 0 } }

/-- METER_A_EDGE, reverse: the debt rises by one and saturates, the pending count stays, and a debt above the
reverse limit is a detection of REVERSE_FLOW on the meter's arm. -/
def Obligations.ReversePulseRaisesTheDebt : Prop :=
  ∀ (m : MeterId) (s s1 : State), s.isRunning = true → (s.meterCfg m).security = true →
    (s.meter m).windowA + 1 < (s.meterCfg m).window →
    s1 = { s with meters := s.meters.set m { s.meter m with
      debt := min 65535 ((s.meter m).debt + 1), windowA := (s.meter m).windowA + 1 } } →
    ∃ t, exec (.meterAEdge m true) s = .next t ∧
      (min 65535 ((s.meter m).debt + 1) ≤ (s.meterCfg m).reverseLimit → t = s1) ∧
      ((s.meterCfg m).reverseLimit < min 65535 ((s.meter m).debt + 1) → s1.Detected t (meterArm m) .reverseFlow)

/-- METER_A_EDGE at the window size: both window counts return to 0; a B count within the tolerance of W is a
match and clears the mismatches; the second mismatch in a row is a detection and counts from 0 again. A reverse edge
that leaves the debt above the reverse limit is a detection of REVERSE_FLOW at the same edge; that it comes before the
window's own is the model's choice (log entry 15). -/
def Obligations.WindowIsJudgedAtItsSize : Prop :=
  ∀ (m : MeterId) (b ok : Bool) (above : Prop) (s s1 : State), s.isRunning = true → (s.meterCfg m).security = true →
    (s.meterCfg m).window ≤ (s.meter m).windowA + 1 →
    (above ↔ b = true ∧ (s.meterCfg m).reverseLimit < min 65535 ((s.meter m).debt + 1)) →
    (ok = true ↔ (((s.meter m).windowB : Int) - (s.meterCfg m).window).natAbs ≤ (s.meterCfg m).tolerance) →
    s1 = { s with meters := s.meters.set m { s.meter m with
      debt := if b = true then min 65535 ((s.meter m).debt + 1) else (s.meter m).debt - 1
      pending :=
        if b = true ∨ 0 < (s.meter m).debt then (s.meter m).pending else min 65535 ((s.meter m).pending + 1)
      windowA := 0
      windowB := 0
      mismatches := if ok = true ∨ (s.meter m).mismatches ≠ 0 then 0 else 1 } } →
    ∃ u t, exec (.meterAEdge m b) s = .next t ∧
      (¬ above → u = s1) ∧ (above → s1.Detected u (meterArm m) .reverseFlow) ∧
      (ok = true ∨ (s.meter m).mismatches = 0 → t = u) ∧
      (ok = false → (s.meter m).mismatches ≠ 0 →
        u.Detected t (meterArm m) (if m.val % 2 = 0 then .pulseGas else .pulseEth))

/-- METER_B_EDGE: the B count rises; above W plus the tolerance the window closes as a mismatch. With pulse
security disabled nothing is read. -/
def Obligations.BEdgesCloseTheWindowEarly : Prop :=
  ∀ (m : MeterId) (s s1 : State), s.isRunning = true →
    ((s.meterCfg m).security = false → exec (.meterBEdge m) s = .next s) ∧
    ((s.meterCfg m).security = true → (s.meter m).windowB + 1 ≤ (s.meterCfg m).window + (s.meterCfg m).tolerance →
      exec (.meterBEdge m) s =
        .next { s with meters := s.meters.set m { s.meter m with windowB := (s.meter m).windowB + 1 } }) ∧
    ((s.meterCfg m).security = true → (s.meterCfg m).window + (s.meterCfg m).tolerance < (s.meter m).windowB + 1 →
      s1 = { s with meters := s.meters.set m { s.meter m with
        windowA := 0, windowB := 0, mismatches := if (s.meter m).mismatches = 0 then 1 else 0 } } →
      ∃ t, exec (.meterBEdge m) s = .next t ∧ ((s.meter m).mismatches = 0 → t = s1) ∧
        ((s.meter m).mismatches ≠ 0 →
          s1.Detected t (meterArm m) (if m.val % 2 = 0 then .pulseGas else .pulseEth)))

/-! ## Injector controllers (08_additive_injection.md) -/

/-- VERIFY_PULSE counts in STROKING and VERIFYING alone, up to 65,535, where the count saturates; STROKE_TIME_END
takes a STROKING injector to VERIFYING for the verify tail in force. -/
def Obligations.StrokesAreVerifiedThroughTheTail : Prop :=
  ∀ (i : InjId) (due : Nat) (s : State),
    ((s.injector i).state = .stroking ∨ (s.injector i).state = .verifying →
      exec (.verifyPulse i) s =
        .next { s with injectors := s.injectors.set i { s.injector i with
          pulses := min 65535 ((s.injector i).pulses + 1) } }) ∧
    ((s.injector i).state = .idle ∨ (s.injector i).state = .masked → exec (.verifyPulse i) s = .next s) ∧
    ((s.injector i).state = .stroking → (s.injector i).timer = some due →
      exec (.strokeTimeEnd i) s = .next { s with
        now := max s.now due
        injectors := s.injectors.set i { s.injector i with
          state := .verifying, timer := some (max s.now due + (s.injCfg i).tail) } })

/-- VERIFY_TAIL_END: at or above the threshold the stroke is verified and its volume joins the entry it was
issued for; below it the entry stays; a retired record's judgement goes nowhere. The injector leaves VERIFYING,
for MASKED with its mask on. In SETTLE the judgement may leave the injector done: with abort taken no, the cap of
end strokes reached and strokes owed, the record takes ADDITIVE_SHORT; with the settle timer expired and every
other injector done, the record ends at this judgement, and otherwise it stays in SETTLE. That the end waits for
the record's bound injectors alone, not for every injector of the arm, is the model's choice (log entry 40). -/
def Obligations.TailEndJudgesTheStroke : Prop :=
  ∀ (i : InjId) (due : Nat) (k : Stroke) (s : State),
    (s.injector i).state = .verifying → (s.injector i).timer = some due → (s.injector i).stroke = some k →
    ∃ t, exec (.verifyTailEnd i) s = .next t ∧ t.now = max s.now due ∧ (t.injector i).state ≠ .verifying ∧
      ((s.injector i).mask = true →
        t.injector i = { s.injector i with state := .masked, stroke := none, timer := none }) ∧
      (∀ (number : Nat) (l : Load) (e : AddEntry), k.load = some number → s.load? number = some l →
        l.entryOf i = some e →
        ∃ l' e', t.load? number = some l' ∧ l'.entryOf i = some e' ∧ e'.due = e.due ∧ e'.interval = e.interval ∧
          ((s.injCfg i).pulses * (100 - (s.injCfg i).tolerance) / 100 ≤ (s.injector i).pulses →
            e'.verified = min 4294967295 (e.verified + 1) ∧
            e'.injected = min 4294967295
              (e.injected + (s.injector i).pulses * (s.injCfg i).stroke / (s.injCfg i).pulses)) ∧
          ((s.injector i).pulses < (s.injCfg i).pulses * (100 - (s.injCfg i).tolerance) / 100 →
            e'.verified = e.verified ∧ e'.injected = e.injected)) ∧
      (k.load = none → ∀ (number : Nat) (l : Load) (e : AddEntry) (j : InjId), s.load? number = some l →
        l.entryOf j = some e →
        ∃ l' e', t.load? number = some l' ∧ l'.entryOf j = some e' ∧ e'.verified = e.verified ∧
          e'.injected = e.injected ∧ e'.due = e.due) ∧
      (∀ (n : ArmId) (l : Load) (e : AddEntry) (capped : Prop), s.DeliveryOk → (s.injCfg i).arm = armNumber n →
        s.active n = some l → s.phase n = some .settle → l.entryOf i = some e → (l.entries.map (·.injector)).Nodup →
        (capped ↔ (s.injCfg i).catchUp ≤ (s.injector i).endIssued) →
        ∃ l' e', t.load? l.number = some l' ∧ l'.entryOf i = some e' ∧
          ((s.injector i).mask = false → l.abortTaken = some false → capped → e'.verified < e'.due →
            l'.flags.additiveShort = true) ∧
          (l'.flags.additiveShort = true → l'.state = .delivering → l.flags.additiveShort = true ∨
            ((s.injector i).mask = false ∧ l.abortTaken = some false ∧ capped ∧ e'.verified < e'.due)) ∧
          ((s.arm n).settle = .expired → (∀ x ∈ l.entries, x.injector ≠ i → s.injectorDone l x = true) →
            (s.injector i).mask = false → l.abortTaken = some true ∨ e'.due ≤ e'.verified ∨ capped →
            l'.state = .ended ∧ t.attention = s.attention + 1 ∧
              l'.endReason = some (if l.abortTaken = some true then .aborted else .complete)) ∧
          ((s.arm n).settle ≠ .expired ∨ (∃ x ∈ l.entries, x.injector ≠ i ∧ s.injectorDone l x = false) →
            l'.state = .delivering ∧ l'.phase = some .settle)) ∧
      t = { s with
        now := t.now, loads := t.loads, arms := t.arms, ratios := t.ratios, injectors := t.injectors,
        alarms := t.alarms }

/-! ## Temperature port (04_volume_arithmetic.md) and arm states (05_delivery_sequencing.md) -/

/-- TEMP_READ_START: a read of the bay is under way, and the next starts 100 ms after it. -/
def Obligations.ReadsStartEveryHundredMs : Prop :=
  ∀ (due : Nat) (s : State), s.operating = true →
    (s.port.nextA = some due → exec (.tempReadStart .a) s = .next { s with
      now := max s.now due, port := { s.port with nextA := some (due + 100), readingA := true } }) ∧
    (s.port.nextB = some due → exec (.tempReadStart .b) s = .next { s with
      now := max s.now due, port := { s.port with nextB := some (due + 100), readingB := true } })

/-- TEMP_READ_END: a good read delivers the eight samples of its bay, of which the valid ones are kept and
counted up to 3 and the others set the count to 0; a failed read delivers none and sets the eight counts to 0. A
CHECKING arm of the bay whose channels both stand at 3 becomes AVAILABLE, with its sample clock started and its
oldest STAGED record READY. -/
def Obligations.ReadsDeliverAndReleaseTheArms : Prop :=
  ∀ (bay : Bay) (r : Option (Vector TempReport 8)) (s : State), s.operating = true → s.port.reading bay = true →
    s.TablesOk →
    ∃ t, exec (.tempReadEnd bay r) s = .next t ∧
      (∀ k : Fin 8,
        (∀ v, r = some v → (v[k].good = true ∧ -4000 ≤ v[k].value ∧ v[k].value ≤ 6000) →
          t.channel (bayChannel bay k) =
            { latest := some ⟨v[k].value, v[k].good, s.now⟩, lastValid := some v[k].value, lastValidTime := some s.now
              validCount := min 3 ((s.channel (bayChannel bay k)).validCount + 1) }) ∧
        (∀ v, r = some v → ¬ (v[k].good = true ∧ -4000 ≤ v[k].value ∧ v[k].value ≤ 6000) →
          t.channel (bayChannel bay k) = { s.channel (bayChannel bay k) with
            latest := some ⟨v[k].value, v[k].good, s.now⟩, validCount := 0 }) ∧
        (r = none → t.channel (bayChannel bay k) = { s.channel (bayChannel bay k) with validCount := 0 })) ∧
      (∀ m : MeterId, bayOf (meterArm m) ≠ bay → t.channel m = s.channel m) ∧
      t.port.reading bay = false ∧
      (∀ n : ArmId, bayOf n = bay → (s.arm n).mode = .checking → (t.channel (gasMeter n)).validCount = 3 →
        (t.channel (ethMeter n)).validCount = 3 →
        t.arm n = { s.arm n with
          mode := .available, checkTimer := none, sampleClock := some (s.now + (s.armCfg n).period / 2) } ∧
        ∀ l, s.active n = none → s.oldestStaged n = some l → t.active n = some { l with state := .ready }) ∧
      (∀ n : ArmId, bayOf n ≠ bay ∨ (s.arm n).mode ≠ .checking ∨ (t.channel (gasMeter n)).validCount ≠ 3 ∨
        (t.channel (ethMeter n)).validCount ≠ 3 → t.arm n = s.arm n ∧ t.armList n = s.armList n) ∧
      t = { s with port := t.port, channels := t.channels, arms := t.arms, loads := t.loads }

/-- CHECKING_TIMEOUT: TEMP_FAULT is detected on the arm and the checking timer starts again for 30 s. -/
def Obligations.CheckingTimesOutEveryThirtySeconds : Prop :=
  ∀ (n : ArmId) (due : Nat) (s : State), (s.arm n).mode = .checking → (s.arm n).checkTimer = some due →
    ∃ t, exec (.checkingTimeout n) s = .next t ∧
      State.Detected { s with
        now := max s.now due
        arms := s.arms.set n { s.arm n with checkTimer := some (max s.now due + 30000) } } t n .tempFault

/-! ## Sample events (04_volume_arithmetic.md, 05_delivery_sequencing.md) -/

/-- SAMPLE_EVENT of an arm without a record that counts volume: each meter's gross increment joins its
unassigned volume, no record changes, and a rise above the leak limit is a detection of UNAUTH_FLOW. -/
def Obligations.IdleFlowIsUnassigned : Prop :=
  ∀ (n : ArmId) (due : Nat) (g e : MeterSample) (s : State),
    s.isRunning = true → (s.arm n).mode = .available → (s.arm n).sampleClock = some due →
    (∀ l, s.active n = some l → l.state = .ready) →
    g = sampleMeter (s.meterCfg (gasMeter n)) (s.armCfg n).period ((s.reach due).sampleTemp (gasMeter n))
      (s.meter (gasMeter n)) →
    e = sampleMeter (s.meterCfg (ethMeter n)) (s.armCfg n).period ((s.reach due).sampleTemp (ethMeter n))
      (s.meter (ethMeter n)) →
    ∃ t, exec (.sampleEvent n) s = .next t ∧ t.now = max s.now due ∧
      t.meter (gasMeter n) =
        { g.meter with unassigned := min 4294967295 ((s.meter (gasMeter n)).unassigned + g.gross) } ∧
      t.meter (ethMeter n) =
        { e.meter with unassigned := min 4294967295 ((s.meter (ethMeter n)).unassigned + e.gross) } ∧
      (∀ m : MeterId, meterArm m ≠ n → t.meter m = s.meter m) ∧
      t.arms = s.arms.set n { s.arm n with
        qGas := g.flow, qEth := e.flow, sampleClock := some (due + (s.armCfg n).period) } ∧
      ((0 < g.gross ∧ 1000 * (s.armCfg n).leakLimit < (t.meter (gasMeter n)).unassigned) ∨
          (0 < e.gross ∧ 1000 * (s.armCfg n).leakLimit < (t.meter (ethMeter n)).unassigned) →
        s.classOf .unauthFlow ≠ .off → AlarmKind.unauthFlow ∈ (t.alarm n).latched) ∧
      (∀ k ∈ (t.alarm n).latched, k ∉ (s.alarm n).latched → k = .unauthFlow ∨ k = .tempFault) ∧
      (∀ m : ArmId, m ≠ n → t.alarm m = s.alarm m) ∧
      t = { s with now := t.now, meters := t.meters, arms := t.arms, alarms := t.alarms }

/-- SAMPLE_EVENT of an arm whose record counts volume: the four totals rise by the meters' increments and
saturate, the averages are the volume-weighted means, and TEMP_HELD is set by a held temperature. Unassigned
volumes stay, and while HELD the hold drain rises by both gross increments. TEMP_FAULT joins the latched set exactly
for a channel past the temperature hold time, and UNAUTH_FLOW exactly for a HELD record whose drain the sample leaves
above the leak limit, unless the class is OFF. -/
def Obligations.SamplesJoinTheRecord : Prop :=
  ∀ (n : ArmId) (due : Nat) (l : Load) (v : ArmSample) (s : State),
    s.DeliveryOk → s.isRunning = true → (s.arm n).mode = .available → (s.arm n).sampleClock = some due →
    s.active n = some l → l.state = .delivering ∨ l.state = .held → v = (s.reach due).sampleArm n →
    ∃ t l', exec (.sampleEvent n) s = .next t ∧ t.active n = some l' ∧ l'.number = l.number ∧
      l'.preset = l.preset ∧
      l'.gasGross = min 4294967295 (l.gasGross + v.gas.gross) ∧ l'.gasNet = min 4294967295 (l.gasNet + v.gas.net) ∧
      l'.ethGross = min 4294967295 (l.ethGross + v.eth.gross) ∧ l'.ethNet = min 4294967295 (l.ethNet + v.eth.net) ∧
      l'.gasTempSum = l.gasTempSum + v.gasTemp * ((l'.gasGross - l.gasGross : Nat) : Int) ∧
      l'.ethTempSum = l.ethTempSum + v.ethTemp * ((l'.ethGross - l.ethGross : Nat) : Int) ∧
      (l.gasGross < l'.gasGross → l'.gasAverage = some (roundAway l'.gasTempSum l'.gasGross)) ∧
      (l.ethGross < l'.ethGross → l'.ethAverage = some (roundAway l'.ethTempSum l'.ethGross)) ∧
      (l'.gasGross ≤ l.gasGross → l'.gasAverage = l.gasAverage) ∧
      (l'.ethGross ≤ l.ethGross → l'.ethAverage = l.ethAverage) ∧
      (l'.flags.tempHeld = true ↔ l.flags.tempHeld = true ∨ v.held = true) ∧
      t.meter (gasMeter n) = v.gas.meter ∧ t.meter (ethMeter n) = v.eth.meter ∧
      (∀ m : MeterId, meterArm m ≠ n → t.meter m = s.meter m) ∧
      (t.arm n).qGas = v.gas.flow ∧ (t.arm n).qEth = v.eth.flow ∧
      (t.arm n).sampleClock = some (due + (s.armCfg n).period) ∧
      (l.state = .held → l'.state = .held ∧
        (t.arm n).holdDrain = min 4294967295 ((s.arm n).holdDrain + (v.gas.gross + v.eth.gross))) ∧
      (AlarmKind.tempFault ∈ (t.alarm n).latched ↔ AlarmKind.tempFault ∈ (s.alarm n).latched ∨
        (s.classOf .tempFault ≠ .off ∧ s.staleAt n (max s.now due))) ∧
      (AlarmKind.unauthFlow ∈ (t.alarm n).latched ↔ AlarmKind.unauthFlow ∈ (s.alarm n).latched ∨
        (s.classOf .unauthFlow ≠ .off ∧ l.state = .held ∧ 0 < v.gas.gross + v.eth.gross ∧
          1000 * (s.armCfg n).leakLimit < (t.arm n).holdDrain)) ∧
      t = { s with
        now := max s.now due, loads := t.loads, arms := t.arms, ratios := t.ratios, reservations := t.reservations,
        queue := t.queue, meters := t.meters, injectors := t.injectors, alarms := t.alarms }

/-- Over any run of samples of a meter, each with its pulses pending and its temperature: K times the sum of the
indicated volumes, 10,000 times the sum of the gross increments and 1,000,000 times the sum of the net
increments, each plus its final carry, are the sums of what was divided plus the first carry. -/
def Obligations.SamplesLoseNothing : Prop :=
  ∀ (c : MeterSettings) (period : Nat) (run : List (Nat × Int)) (m : Meter),
    0 < c.kFactor → m.carryI < c.kFactor → m.carryG < 10000 → m.carryN < 1000000 →
    let sampled := fun (m : Meter) (x : Nat × Int) => sampleMeter c period x.2 { m with pending := x.1 }
    let after := run.foldl (fun m x => (sampled m x).meter) m
    let sum := fun (f : Meter → Nat × Int → Nat) =>
      (run.foldl (fun (a : Meter × Nat) x => ((sampled a.1 x).meter, a.2 + f a.1 x)) (m, 0)).2
    let indicated := fun (m : Meter) (x : Nat × Int) => (min x.1 2500 * 1000000 + m.carryI) / c.kFactor
    c.kFactor * sum indicated + after.carryI = 1000000 * sum (fun _ x => min x.1 2500) + m.carryI ∧
    10000 * sum (fun m x => (sampled m x).gross) + after.carryG =
      sum (fun m x => indicated m x * c.factor (sampled m x).flow) + m.carryG ∧
    1000000 * sum (fun m x => (sampled m x).net) + after.carryN =
      sum (fun m x => (sampled m x).gross * vcf c.alpha x.2) + m.carryN ∧
    after.carryI < c.kFactor ∧ after.carryG < 10000 ∧ after.carryN < 1000000

/-- The meter factor of an ascending curve: each point has its own factor, and between two points the factor
lies between theirs. -/
def Obligations.FactorStaysOnItsCurve : Prop :=
  ∀ (c : MeterSettings) (q : Nat), c.q1 < c.q2 → c.q2 < c.q3 → c.q3 < c.q4 →
    (q ≤ c.q1 → c.factor q = c.f1) ∧ c.factor c.q2 = c.f2 ∧ c.factor c.q3 = c.f3 ∧ (c.q4 ≤ q → c.factor q = c.f4) ∧
    (c.q1 ≤ q → q ≤ c.q2 → min c.f1 c.f2 ≤ c.factor q ∧ c.factor q ≤ max c.f1 c.f2) ∧
    (c.q2 ≤ q → q ≤ c.q3 → min c.f2 c.f3 ≤ c.factor q ∧ c.factor q ≤ max c.f2 c.f3) ∧
    (c.q3 ≤ q → q ≤ c.q4 → min c.f3 c.f4 ≤ c.factor q ∧ c.factor q ≤ max c.f3 c.f4)

/-- After a SAMPLE_EVENT that leaves the record in LOW, HIGH or TAPER, the gas valve command is OPEN below the
target less the deadband, CLOSE above the target plus it, and HOLD between; the target is the phase's rate, limited
with f above 0 to the throttle limit of the arm's amount. The phase a DELIVERING record is left in follows from the
totals after the sample. At or past the finish point it is FINISH, or SETTLE with f = 0 or the close test passed;
short of it but at or past the taper point it is TAPER; short of both it stays, but that a record in LOW at or past
its low-start point asks for its upgrade, which puts it in HIGH or into the queue. A record in FINISH stays there
until the close test passes. A STOP-class detection may cut FINISH to SETTLE instead. -/
def Obligations.SampleDecidesTheGasValve : Prop :=
  (∀ (n : ArmId) (due q db target : Nat) (s t : State), (s.arm n).sampleClock = some due →
    s.isRunning = true → (s.arm n).mode = .available → exec (.sampleEvent n) s = .next t →
    flowingPhase (t.phase n) = true → q = (t.arm n).qGas → target = (t.arm n).gasTarget →
    db = (s.armCfg n).deadband * target / 100 →
    ((q : Int) < target - db → (t.arm n).valve = .openFurther) ∧
    (target + db < q → (t.arm n).valve = .close) ∧
    ((target : Int) - db ≤ q → q ≤ target + db → (t.arm n).valve = .hold)) ∧
  (∀ (n : ArmId) (due rate f : Nat) (l : Load) (s t : State), s.DeliveryOk → s.HeaderOk →
    (s.arm n).sampleClock = some due → s.isRunning = true → (s.arm n).mode = .available →
    exec (.sampleEvent n) s = .next t → t.active n = some l → flowingPhase (t.phase n) = true → f = t.fraction l →
    rate = (if l.phase = some .high then (s.armCfg n).highRate else (s.armCfg n).lowRate) →
    (t.arm n).gasTarget = if f = 0 then rate else min rate ((t.resv n).amount * 10 * (1000 - f) / (11 * f))) ∧
  ∀ (n : ArmId) (due f asked now : Nat) (l l' : Load) (finish taper lowStart closes cut : Prop) (s t : State),
    s.DeliveryOk → (s.arm n).sampleClock = some due → s.isRunning = true → (s.arm n).mode = .available →
    s.active n = some l → exec (.sampleEvent n) s = .next t → t.active n = some l' → l'.state = .delivering →
    f = s.fraction l → now = max s.now due →
    asked = s.ruledAmount n (s.armCfg n).highRate f - (s.resv n).amount →
    (finish ↔ s.finishReached n l') →
    (taper ↔ 1000 * l'.preset ≤ l'.gasGross + l'.ethGross + 1000 * (s.armCfg n).taper) →
    (lowStart ↔ 1000 * (s.armCfg n).lowStart ≤ l'.gasGross + l'.ethGross) →
    (closes ↔ f = 0 ∨ l'.deficitOn f ≤ (s.armCfg n).ethComp) →
    (cut ↔ l'.phase = some .settle ∧ l'.flags.finishCut = true ∧ l'.lastCause = some .alarm) →
    (flowingPhase (s.phase n) = true ∧ finish ∨ s.phase n = some .finish →
      (closes → l'.phase = some .settle) ∧ (¬ closes → l'.phase = some .finish ∨ cut)) ∧
    (flowingPhase (s.phase n) = true → ¬ finish → taper → l'.phase = some .taper ∧
      (s.phase n = some .high → t.resv n = ⟨.low, (s.resv n).lowAmount, (s.resv n).lowAmount⟩) ∧
      (s.phase n = some .low → t.resv n = s.resv n ∧ ∀ r ∈ t.queue, r.arm ≠ n)) ∧
    (¬ finish → ¬ taper → s.phase n = some .high ∨ s.phase n = some .taper → l'.phase = s.phase n) ∧
    (¬ finish → ¬ taper → s.phase n = some .low →
      (l.upgradePending = some true ∨ ¬ lowStart →
        l'.phase = some .low ∧ l'.upgradePending = l.upgradePending ∧ t.queue = s.queue) ∧
      (l.upgradePending = some false → lowStart →
        (s.grantedAtOnce asked → l'.phase = some .high ∧ t.queue = s.queue ∧
          t.resv n = { s.resv n with level := .high, amount := (s.resv n).amount + asked }) ∧
        (¬ s.grantedAtOnce asked → l'.phase = some .low ∧ l'.upgradePending = some true ∧
          t.resv n = s.resv n ∧ t.queue = s.queue ++ [⟨n, .upgrade, asked⟩]))) ∧
    (flowingPhase (s.phase n) = true → l'.phase = some .finish →
      (t.arm n).valve = .close ∧ (t.arm n).gasTarget = 0 ∧ (t.arm n).gasRun = none ∧ (t.arm n).ethRun = none ∧
        (t.ratio n).devRun = none ∧ (t.ratio n).finishTimer = some (now + 1000 * (s.armCfg n).finishTimeout)) ∧
    (blendingPhase (s.phase n) = true → l'.phase = some .settle →
      (t.arm n).valve = .close ∧ (t.arm n).gasTarget = 0 ∧ t.ratio n = ⟨0, none, none⟩ ∧
        (t.resv n).level = .none ∧ (t.resv n).amount = 0 ∧
        (t.arm n).settle = .running (now + 1000 * (s.armCfg n).settle)) ∧
    (s.phase n = some .headerWait ∨ s.phase n = some .settle → l'.phase = s.phase n)

/-- After a SAMPLE_EVENT that leaves the record in LOW, HIGH, TAPER or FINISH, the setpoint is the follow term
plus the catch-up term, clamped to 0 and to the amount the arm holds. Above the monitor start volume the deviation
run starts at a deficit outside the band, goes on while it stays outside, and ends inside; a run as old as the
alarm delay is a detection of RATIO_DEV and ends, and nothing else is. -/
def Obligations.SampleSetsTheSetpoint : Prop :=
  (∀ (n : ArmId) (due f : Nat) (d : Int) (l : Load) (s t : State), (s.arm n).sampleClock = some due →
    s.isRunning = true → (s.arm n).mode = .available → exec (.sampleEvent n) s = .next t → t.active n = some l →
    blendingPhase (t.phase n) = true → f = t.fraction l → d = (l.gasNet * f / (1000 - f) : Nat) - (l.ethNet : Int) →
    ((t.ratio n).setpoint : Int) = min ((t.resv n).amount : Int)
      (max 0 (((t.arm n).qGas * f / (1000 - f) : Nat) + (d * 60).tdiv (1000 * (s.armCfg n).catchUp)))) ∧
  ∀ (n : ArmId) (due now : Nat) (l l' : Load) (checked outside late : Prop) (s t : State), s.DeliveryOk →
    (s.arm n).sampleClock = some due → s.isRunning = true → (s.arm n).mode = .available →
    s.active n = some l → exec (.sampleEvent n) s = .next t → t.active n = some l' → now = max s.now due →
    (checked ↔ 1000 * (s.armCfg n).monitorStart < l'.gasGross + l'.ethGross) →
    (outside ↔ s.deviationBand n l' < (l'.deficitOn (s.fraction l)).natAbs) →
    (late ↔ ∃ b, (s.ratio n).devRun = some b ∧ 1000 * (s.armCfg n).ratioDelay ≤ now - b) →
    (flowingPhase (s.phase n) = true → flowingPhase (t.phase n) = true →
      (¬ checked → (t.ratio n).devRun = (s.ratio n).devRun) ∧
      (checked → ¬ outside → (t.ratio n).devRun = none) ∧
      (checked → outside → (s.ratio n).devRun = none → (t.ratio n).devRun = some now) ∧
      (checked → outside → ¬ late → (s.ratio n).devRun ≠ none → (t.ratio n).devRun = (s.ratio n).devRun) ∧
      (checked → outside → late → (t.ratio n).devRun = none)) ∧
    (s.flowsOn n now ((s.reach due).sampleArm n) l' → checked → outside → late →
      (s.classOf .ratioDev ≠ .off → AlarmKind.ratioDev ∈ (t.alarm n).latched) ∧
      (s.classOf .ratioDev = .stop → l'.state = .held ∧ l'.lastCause = some .alarm)) ∧
    (AlarmKind.ratioDev ∈ (t.alarm n).latched → AlarmKind.ratioDev ∈ (s.alarm n).latched ∨
      (flowingPhase (s.phase n) = true ∧ checked ∧ outside ∧ late))

/-- No-flow supervision at a SAMPLE_EVENT of a record in LOW, HIGH or TAPER whose channels are not stale: a gas run
is on while the valve command is not CLOSE and no gas flows, an ethanol run while the setpoint is above 0 and no
ethanol flows. A run starts at this sample, goes on, or, as old as the no-flow timeout, is detected and ends. A
detection sets the stalled meter, GAS, ETHANOL or BOTH, and latches NO_FLOW unless its class is OFF; with class STOP
the record is HELD. Without a detection both stay as they were. -/
def Obligations.StalledGasIsDetected : Prop :=
  ∀ (n : ArmId) (due now : Nat) (v : ArmSample) (gasStill ethStill gasLate ethLate : Prop) (s : State),
    s.DeliveryOk → s.isRunning = true → (s.arm n).mode = .available → (s.arm n).sampleClock = some due →
    flowingPhase (s.phase n) = true → ¬ s.staleAt n now → now = max s.now due → v = (s.reach due).sampleArm n →
    (gasStill ↔ (s.arm n).valve ≠ .close ∧ v.gas.flow = 0) →
    (ethStill ↔ 0 < (s.ratio n).setpoint ∧ v.eth.flow = 0) →
    (gasLate ↔ gasStill ∧ ∃ b, (s.arm n).gasRun = some b ∧ 1000 * (s.armCfg n).noFlow ≤ now - b) →
    (ethLate ↔ ethStill ∧ ∃ b, (s.arm n).ethRun = some b ∧ 1000 * (s.armCfg n).noFlow ≤ now - b) →
    ∃ t, exec (.sampleEvent n) s = .next t ∧
      (flowingPhase (t.phase n) = true →
        (¬ gasStill ∨ gasLate → (t.arm n).gasRun = none) ∧ (¬ ethStill ∨ ethLate → (t.arm n).ethRun = none) ∧
        (gasStill → ¬ gasLate → (t.arm n).gasRun = some ((s.arm n).gasRun.getD now)) ∧
        (ethStill → ¬ ethLate → (t.arm n).ethRun = some ((s.arm n).ethRun.getD now))) ∧
      (flowingPhase (t.phase n) = false → (t.arm n).gasRun = none ∧ (t.arm n).ethRun = none) ∧
      (gasLate → ¬ ethLate → (t.arm n).stalled = some .gas) ∧ (ethLate → ¬ gasLate → (t.arm n).stalled = some .ethanol) ∧
      (gasLate → ethLate → (t.arm n).stalled = some .both) ∧
      (¬ gasLate → ¬ ethLate → (t.arm n).stalled = (s.arm n).stalled) ∧
      (AlarmKind.noFlow ∈ (t.alarm n).latched ↔ AlarmKind.noFlow ∈ (s.alarm n).latched ∨
        (s.classOf .noFlow ≠ .off ∧ (gasLate ∨ ethLate))) ∧
      (s.classOf .noFlow = .stop → gasLate ∨ ethLate →
        ∃ l, t.active n = some l ∧ l.state = .held ∧ l.lastCause = some .alarm)

/-- After a SAMPLE_EVENT of a record that counts volume, outside SETTLE, the strokes due of every entry are the
total net divided by its interval; and no injector is left that could issue a stroke. In LOW, HIGH, TAPER and
FINISH an entry whose outstanding strokes, less one in flight, exceed its injector's catch-up limit is a detection
of ADD_SHORT, and nothing else is: with class STOP it holds the record, or cuts it to SETTLE in FINISH. That the
comparison comes before the strokes this sample issues, so that `behind` takes off only the strokes in flight before
the sample, is the model's choice (log entry 13). -/
def Obligations.SampleIssuesTheStrokesDue : Prop :=
  (∀ (n : ArmId) (due : Nat) (l : Load) (s t : State), (s.arm n).sampleClock = some due →
    s.isRunning = true → (s.arm n).mode = .available → exec (.sampleEvent n) s = .next t → t.active n = some l →
    l.state = .delivering ∨ l.state = .held →
    (l.deliveringPhase ≠ some .settle →
      ∀ e ∈ l.entries, e.due = min 4294967295 ((l.gasNet + l.ethNet) / e.interval)) ∧
    (∀ (i : InjId) (e : AddEntry), l.entryOf i = some e → t.mayIssue l e = false)) ∧
  ∀ (n : ArmId) (due now : Nat) (l l' : Load) (behind : Prop) (s t : State), s.DeliveryOk →
    (s.arm n).sampleClock = some due → s.isRunning = true → (s.arm n).mode = .available →
    s.active n = some l → exec (.sampleEvent n) s = .next t → t.active n = some l' → now = max s.now due →
    (behind ↔ ∃ e ∈ l'.entries, (s.injCfg e.injector).catchUp <
      min 4294967295 ((l'.gasNet + l'.ethNet) / e.interval) - e.verified
        - (if (s.injector e.injector).stroke = some ⟨some l.number⟩ then 1 else 0)) →
    (s.flowsOn n now ((s.reach due).sampleArm n) l' →
      (l'.deficitOn (s.fraction l)).natAbs ≤ s.deviationBand n l' → behind →
      (s.classOf .addShort ≠ .off → AlarmKind.addShort ∈ (t.alarm n).latched) ∧
      (s.classOf .addShort = .stop → l'.state = .held ∧ l'.lastCause = some .alarm)) ∧
    (s.phase n = some .finish → ¬ s.staleAt n now → ((s.armCfg n).ethComp : Int) < l'.deficitOn (s.fraction l) →
      behind →
      (s.classOf .addShort ≠ .off → AlarmKind.addShort ∈ (t.alarm n).latched) ∧
      (s.classOf .addShort = .stop → l'.state = .delivering ∧ l'.phase = some .settle ∧ l'.flags.finishCut = true ∧
        l'.lastCause = some .alarm)) ∧
    (AlarmKind.addShort ∈ (t.alarm n).latched → AlarmKind.addShort ∈ (s.alarm n).latched ∨
      (blendingPhase (s.phase n) = true ∧ behind))

/-! ## Ends (05_delivery_sequencing.md, 01_load_records.md) -/

/-- SETTLE_EXPIRY with every bound injector done, HOLD_LIMIT_EXPIRY, and ABORT LOAD of a HELD record make the
active record ENDED with their reason; no other arm and no other record is touched but the one promoted, and the
table keeps its order. With an injector not yet done, SETTLE_EXPIRY leaves the settle timer expired and the record
as it is. That the end waits for the record's bound injectors alone, not for every injector of the arm, is the
model's choice (log entry 40). -/
def Obligations.RecordsEndWithTheirReason : Prop :=
  (∀ (c : Instr) (p : List Byte) (n : ArmId) (l : Load) (r : EndReason) (due : Nat) (s : State),
    s.DeliveryOk → s.active n = some l →
    (c = .settleExpiry n ∧ s.phase n = some .settle ∧ (s.arm n).settle = .running due ∧
        (∀ e ∈ l.entries, s.injectorDone l e = true) ∧ r = (if l.abortTaken = some true then .aborted else .complete))
      ∨ (c = .holdLimitExpiry l.number ∧ l.state = .held ∧ l.holdTimer = some due ∧ r = .holdExpired)
      ∨ (c = .abortLoad p ∧ l.state = .held ∧ s.Accepts ∧ p.length = 2 ∧ fieldAt p 0 2 = l.number ∧ l.number ≠ 0 ∧
        r = .aborted ∧ due = s.now) →
    ∃ t, exec c s = .next t ∧ s.EndedAs t n l r ∧ t.now = max s.now due ∧
      (c = .abortLoad p → t.link = s.linkAnswered 0x15 .ok (be16 l.number ++ [5, 0])) ∧
      (∀ m : ArmId, m ≠ n → t.arm m = s.arm m ∧ t.armList m = s.armList m ∧ t.alarm m = s.alarm m) ∧
      (∀ k ∈ s.loads, k.number ≠ l.number → (s.arm n).mode ≠ .available ∨ s.oldestStaged n ≠ some k →
        t.load? k.number = some k) ∧
      t.loads.map (·.number) = s.loads.map (·.number) ∧
      t = { s with
        now := t.now, link := t.link, loads := t.loads, arms := t.arms, ratios := t.ratios, injectors := t.injectors,
        alarms := t.alarms }) ∧
  ∀ (n : ArmId) (l : Load) (e : AddEntry) (due : Nat) (s : State), s.active n = some l →
    s.phase n = some .settle → (s.arm n).settle = .running due → e ∈ l.entries → s.injectorDone l e = false →
    exec (.settleExpiry n) s = .next { s with
      now := max s.now due, arms := s.arms.set n { s.arm n with settle := .expired } }

/-- FINISH_TIMEOUT in FINISH: the ethanol is closed, the reservation freed and the record in SETTLE, with its
settle timer started and, with abort taken no, its end strokes due. -/
def Obligations.FinishTimesOut : Prop :=
  ∀ (n : ArmId) (l : Load) (due : Nat) (s : State), s.active n = some l → s.phase n = some .finish →
    (s.ratio n).finishTimer = some due →
    ∃ t l', exec (.finishTimeout n) s = .next t ∧ t.now = max s.now due ∧ t.active n = some l' ∧
      l'.number = l.number ∧ l'.state = .delivering ∧ l'.phase = some .settle ∧ l'.abortTaken = l.abortTaken ∧
      l'.flags = l.flags ∧ l'.holdCount = l.holdCount ∧
      l'.gasGross = l.gasGross ∧ l'.gasNet = l.gasNet ∧ l'.ethGross = l.ethGross ∧ l'.ethNet = l.ethNet ∧
      t.ratio n = { setpoint := 0, devRun := none, finishTimer := none } ∧
      (t.resv n).level = .none ∧ (t.resv n).amount = 0 ∧ (t.arm n).valve = .close ∧ (t.arm n).gasTarget = 0 ∧
      (t.arm n).settle = .running (max s.now due + 1000 * (s.armCfg n).settle) ∧
      (l.abortTaken = some false → ∀ (i : InjId) (e : AddEntry), l.entryOf i = some e →
        ∃ e', l'.entryOf i = some e' ∧ e'.due = max e.due (min 4294967295
          ((l.gasNet + l.ethNet) / e.interval +
            if e.interval / 2 ≤ (l.gasNet + l.ethNet) % e.interval then 1 else 0))) ∧
      t = { s with
        now := t.now, loads := t.loads, arms := t.arms, ratios := t.ratios, reservations := t.reservations,
        queue := t.queue, injectors := t.injectors }

/-- ABORT LOAD of a DELIVERING record in LOW, HIGH, TAPER or FINISH: abort taken yes and SETTLE; the valve
closes, the setpoint is 0, the reservation is freed and the record is issued no stroke. In SETTLE it sets abort
taken yes and nothing else: that the record does not end by it, even with the settle timer expired, is the model's
choice (log entry 31). In HEADER_WAIT the record's request leaves the queue and the record ends ABORTED. The request
refuses in the order of R19. -/
def Obligations.AbortSendsTheRecordToSettle : Prop :=
  (∀ (p : List Byte) (n : ArmId) (l : Load) (s : State), s.DeliveryOk → s.active n = some l → s.Accepts →
    p.length = 2 → fieldAt p 0 2 = l.number → l.number ≠ 0 →
    (blendingPhase (s.phase n) = true →
      ∃ t, exec (.abortLoad p) s = .next t ∧
        t.active n = some { l with phase := some .settle, upgradePending := none, abortTaken := some true } ∧
        (t.arm n).valve = .close ∧ (t.arm n).settle = .running (s.now + 1000 * (s.armCfg n).settle) ∧
        t.ratio n = { setpoint := 0, devRun := none, finishTimer := none } ∧
        (t.resv n).level = .none ∧ (t.resv n).amount = 0 ∧
        t.link = s.linkAnswered 0x15 .ok (be16 l.number ++ [3, 6]) ∧
        t = { s with
          link := t.link, loads := t.loads, arms := t.arms, ratios := t.ratios, reservations := t.reservations,
          queue := t.queue, injectors := t.injectors }) ∧
    (s.phase n = some .settle →
      ∃ t, exec (.abortLoad p) s = .next t ∧ t.active n = some { l with abortTaken := some true } ∧
        (∀ m : ArmId, m ≠ n → t.armList m = s.armList m) ∧
        t = { s with link := s.linkAnswered 0x15 .ok (be16 l.number ++ [3, 6]), loads := t.loads }) ∧
    (s.phase n = some .headerWait →
      ∃ t, exec (.abortLoad p) s = .next t ∧ s.EndedAs t n l .aborted ∧ (∀ r ∈ t.queue, r.arm ≠ n) ∧
        t.link = s.linkAnswered 0x15 .ok (be16 l.number ++ [5, 0]) ∧
        t = { s with
          link := t.link, loads := t.loads, arms := t.arms, ratios := t.ratios, reservations := t.reservations,
          queue := t.queue, injectors := t.injectors, alarms := t.alarms })) ∧
  ∀ (p : List Byte) (l : Load) (s : State), s.Accepts → p.length = 2 →
    (fieldAt p 0 2 = 0 → exec (.abortLoad p) s = .next (s.refusedAs 0x15 .badField)) ∧
    (fieldAt p 0 2 ≠ 0 → s.load? (fieldAt p 0 2) = none → exec (.abortLoad p) s = .next (s.refusedAs 0x15 .notFound)) ∧
    (fieldAt p 0 2 ≠ 0 → s.load? (fieldAt p 0 2) = some l → l.state = .staged ∨ l.state = .ready ∨ l.state = .ended →
      exec (.abortLoad p) s = .next (s.refusedAs 0x15 .wrongState))

/-! ## Load requests (01_load_records.md) -/

/-- STAGE LOAD that passes the checks of R9: the record joins the table STAGED with its entries bound, the
recipe's count rises by one, and the record is READY at once when the arm is AVAILABLE with no active and no
earlier STAGED record. The reply names its state. -/
def Obligations.StageCreatesTheRecord : Prop :=
  ∀ (p : List Byte) (n : ArmId) (r : Recipe) (l : Load) (st : LoadState) (s : State),
    s.Accepts → s.TablesOk → s.store.mode = .running → p.length = 7 →
    fieldAt p 0 2 ≠ 0 → fieldAt p 2 1 = armNumber n → 1 ≤ fieldAt p 3 2 → fieldAt p 3 2 ≤ 999 →
    50 ≤ fieldAt p 5 2 → fieldAt p 5 2 ≤ 40000 →
    s.load? (fieldAt p 0 2) = none → s.recipe? (fieldAt p 3 2) = some r → r.state = .active →
    (s.arm n).mode ≠ .outOfService → s.loads.length < 16 → s.stagedCount n < 3 → s.entryFault n 1 r.entries = none →
    st = (if (s.arm n).mode = .available ∧ s.active n = none ∧ s.stagedCount n = 0 then .ready else .staged) →
    l = { Load.staged (fieldAt p 0 2) n (fieldAt p 3 2) (fieldAt p 5 2) (s.bindEntries n r.entries) with state := st } →
    ∃ t, exec (.stageLoad p) s = .next t ∧ t.load? (fieldAt p 0 2) = some l ∧
      t.recipe? (fieldAt p 3 2) = some { r with count := r.count + 1 } ∧
      (∀ k, k ≠ fieldAt p 3 2 → t.recipe? k = s.recipe? k) ∧
      (∀ m : ArmId, m ≠ n → t.armList m = s.armList m) ∧
      (s.stagedCount n = 0 ∨ s.active n ≠ none ∨ (s.arm n).mode ≠ .available → t.loads = s.loads ++ [l]) ∧
      t.link = s.linkAnswered 0x10 .ok (be16 (fieldAt p 0 2) ++ byte1 st.code) ∧
      t = { s with link := t.link, loads := t.loads, recipes := t.recipes }

/-- STAGE LOAD refuses in the order of R9, the refusals that name a recipe entry carrying its position. -/
def Obligations.StageRefusesInOrder : Prop :=
  ∀ (p : List Byte) (n : ArmId) (r : Recipe) (s : State), s.Accepts → p.length = 7 →
    (s.store.mode = .unconfigured → exec (.stageLoad p) s = .next (s.refusedAs 0x10 .unconfigured)) ∧
    (s.store.mode = .running →
      (fieldAt p 0 2 = 0 ∨ fieldAt p 2 1 = 0 ∨ 8 < fieldAt p 2 1 ∨ fieldAt p 3 2 = 0 ∨ 999 < fieldAt p 3 2 ∨
          fieldAt p 5 2 < 50 ∨ 40000 < fieldAt p 5 2 →
        exec (.stageLoad p) s = .next (s.refusedAs 0x10 .badField)) ∧
      (fieldAt p 0 2 ≠ 0 → fieldAt p 2 1 = armNumber n → 1 ≤ fieldAt p 3 2 → fieldAt p 3 2 ≤ 999 →
        50 ≤ fieldAt p 5 2 → fieldAt p 5 2 ≤ 40000 →
        (s.load? (fieldAt p 0 2) ≠ none → exec (.stageLoad p) s = .next (s.refusedAs 0x10 .duplicate)) ∧
        (s.load? (fieldAt p 0 2) = none → s.recipe? (fieldAt p 3 2) = none →
          exec (.stageLoad p) s = .next (s.refusedAs 0x10 .notFound)) ∧
        (s.load? (fieldAt p 0 2) = none → s.recipe? (fieldAt p 3 2) = some r →
          (r.state = .retiring → exec (.stageLoad p) s = .next (s.refusedAs 0x10 .wrongState)) ∧
          (r.state = .active →
            ((s.arm n).mode = .outOfService → exec (.stageLoad p) s = .next (s.refusedAs 0x10 .notPermitted)) ∧
            ((s.arm n).mode ≠ .outOfService →
              (16 ≤ s.loads.length → exec (.stageLoad p) s = .next (s.refusedAs 0x10 .tableFull)) ∧
              (s.loads.length < 16 →
                (3 ≤ s.stagedCount n → exec (.stageLoad p) s = .next (s.refusedAs 0x10 .armQueueFull)) ∧
                (s.stagedCount n < 3 → ∀ (e : RecipeEntry) (before after : List RecipeEntry),
                  r.entries = before ++ e :: after → s.entryFault n 1 before = none →
                  (s.injectorFor n e.code = none → exec (.stageLoad p) s =
                    .next (s.withLink (s.linkAnswered 0x10 .noInjector (byte1 (before.length + 1))))) ∧
                  (∀ i, s.injectorFor n e.code = some i →
                    (s.injCfg i).stroke * 100000 / e.dose <
                      (s.armCfg n).highRate * ((s.injCfg i).strokeTime + (s.injCfg i).tail) / 60 →
                    exec (.stageLoad p) s =
                      .next (s.withLink (s.linkAnswered 0x10 .doseTooHigh (byte1 (before.length + 1))))))))))))

/-- AMEND PRESET refuses in the order of R20; a preset it takes is in the record, whose totals and counts of
holds stay. A record not DELIVERING, or in HEADER_WAIT, has nothing else changed. By the rows of R102, with the new
points: at or past the finish point a record in LOW, HIGH or TAPER is in FINISH, or, with f = 0 or the close test
passed, in SETTLE. Short of it but at or past the taper point it is in TAPER: from LOW or HIGH with the gas valve
decided at once, and one in TAPER already has nothing else changed. Short of both, one in HIGH has nothing else
changed, and so has one in LOW unless the low-start test asks for its upgrade; one in TAPER returns to LOW with its
reservation and the same low-start test. -/
def Obligations.AmendmentMovesThePreset : Prop :=
  ∀ (p : List Byte) (n : ArmId) (f asked : Nat) (l : Load) (finish taper lowStart closes : Prop) (s : State),
    s.Accepts → s.DeliveryOk → p.length = 4 → n = l.arm → f = s.fraction l →
    asked = s.ruledAmount n (s.armCfg n).highRate f - (s.resv n).amount →
    (finish ↔ s.finishReached n { l with preset := fieldAt p 2 2 }) →
    (taper ↔ 1000 * fieldAt p 2 2 ≤ l.gasGross + l.ethGross + 1000 * (s.armCfg n).taper) →
    (lowStart ↔ 1000 * (s.armCfg n).lowStart ≤ l.gasGross + l.ethGross) →
    (closes ↔ f = 0 ∨ l.deficitOn f ≤ (s.armCfg n).ethComp) →
    (fieldAt p 0 2 = 0 ∨ fieldAt p 2 2 < 50 ∨ 40000 < fieldAt p 2 2 →
      exec (.amendPreset p) s = .next (s.refusedAs 0x14 .badField)) ∧
    (fieldAt p 0 2 ≠ 0 → 50 ≤ fieldAt p 2 2 → fieldAt p 2 2 ≤ 40000 →
      (s.load? (fieldAt p 0 2) = none → exec (.amendPreset p) s = .next (s.refusedAs 0x14 .notFound)) ∧
      (s.load? (fieldAt p 0 2) = some l →
        (l.state = .ended ∨ l.deliveringPhase = some .finish ∨ l.deliveringPhase = some .settle →
          exec (.amendPreset p) s = .next (s.refusedAs 0x14 .wrongState)) ∧
        (l.state ≠ .ended → l.deliveringPhase ≠ some .finish → l.deliveringPhase ≠ some .settle →
          (1000 * fieldAt p 2 2 < l.gasGross + l.ethGross + (s.arm l.arm).history.current →
            exec (.amendPreset p) s = .next (s.refusedAs 0x14 .tooLow)) ∧
          (l.gasGross + l.ethGross + (s.arm l.arm).history.current ≤ 1000 * fieldAt p 2 2 →
            ∃ t l', exec (.amendPreset p) s = .next t ∧ t.load? l.number = some l' ∧ l'.preset = fieldAt p 2 2 ∧
              l'.state = l.state ∧ l'.gasGross = l.gasGross ∧ l'.gasNet = l.gasNet ∧ l'.ethGross = l.ethGross ∧
              l'.ethNet = l.ethNet ∧ l'.holdCount = l.holdCount ∧ l'.abortTaken = l.abortTaken ∧
              (flowingPhase l.deliveringPhase = false → l' = { l with preset := fieldAt p 2 2 } ∧
                t = { s with link := t.link, loads := t.loads }) ∧
              (flowingPhase l.deliveringPhase = true → finish →
                (closes → l'.phase = some .settle) ∧ (¬ closes → l'.phase = some .finish)) ∧
              (flowingPhase l.deliveringPhase = true → ¬ finish → taper → l'.phase = some .taper ∧
                (l.deliveringPhase = some .high → t.resv n = ⟨.low, (s.resv n).lowAmount, (s.resv n).lowAmount⟩) ∧
                (l.deliveringPhase = some .low → t.resv n = s.resv n ∧ ∀ r ∈ t.queue, r.arm ≠ n) ∧
                (l.deliveringPhase = some .taper → t = { s with link := t.link, loads := t.loads }) ∧
                (l.deliveringPhase ≠ some .taper → ∀ q target db : Nat, q = (s.arm n).qGas →
                  target = (t.arm n).gasTarget → db = (s.armCfg n).deadband * target / 100 →
                  ((q : Int) < target - db → (t.arm n).valve = .openFurther) ∧
                  (target + db < q → (t.arm n).valve = .close) ∧
                  ((target : Int) - db ≤ q → q ≤ target + db → (t.arm n).valve = .hold))) ∧
              (¬ finish → ¬ taper → l.deliveringPhase = some .high ∨
                  (l.deliveringPhase = some .low ∧ (l.upgradePending ≠ some false ∨ ¬ lowStart)) →
                l' = { l with preset := fieldAt p 2 2 } ∧ t = { s with link := t.link, loads := t.loads }) ∧
              (¬ finish → ¬ taper → l.deliveringPhase = some .taper → (t.arm n).valve = (s.arm n).valve ∧
                (¬ lowStart → l'.phase = some .low ∧ l'.upgradePending = some false ∧
                  t.resv n = s.resv n ∧ t.queue = s.queue)) ∧
              (¬ finish → ¬ taper → l.deliveringPhase = some .taper ∨
                  (l.deliveringPhase = some .low ∧ l.upgradePending = some false) → lowStart →
                (s.grantedAtOnce asked → l'.phase = some .high ∧ t.queue = s.queue ∧
                  t.resv n = { s.resv n with level := .high, amount := (s.resv n).amount + asked }) ∧
                (¬ s.grantedAtOnce asked → l'.phase = some .low ∧ l'.upgradePending = some true ∧
                  t.resv n = s.resv n ∧ t.queue = s.queue ++ [⟨n, .upgrade, asked⟩])) ∧
              (flowingPhase l.deliveringPhase = true → l'.phase = some .finish →
                (t.arm n).valve = .close ∧ (t.arm n).gasTarget = 0 ∧
                (t.arm n).gasRun = none ∧ (t.arm n).ethRun = none ∧ (t.ratio n).devRun = none ∧
                (t.ratio n).finishTimer = some (s.now + 1000 * (s.armCfg n).finishTimeout)) ∧
              (flowingPhase l.deliveringPhase = true → l'.phase = some .settle →
                (t.arm n).valve = .close ∧ (t.arm n).gasTarget = 0 ∧
                t.ratio n = ⟨0, none, none⟩ ∧ (t.resv n).level = .none ∧ (t.resv n).amount = 0 ∧
                (t.arm n).settle = .running (s.now + 1000 * (s.armCfg n).settle)) ∧
              t.link = s.linkAnswered 0x14 .ok
                (be16 l.number ++ be16 (fieldAt p 2 2) ++ byte1 (phaseCode l'.deliveringPhase)) ∧
              t = { s with
                link := t.link, loads := t.loads, arms := t.arms, ratios := t.ratios,
                reservations := t.reservations, queue := t.queue, injectors := t.injectors }))))

/-- RETIRE LOAD of a STAGED, READY or ENDED record: the record leaves the table, its recipe's count falls by
one, a RETIRING recipe whose count falls to 0 leaves its table, and after a READY record the arm's oldest STAGED
record is READY. A load number of 0, one no record carries, and a DELIVERING or HELD record are refused. -/
def Obligations.RetireRemovesTheRecord : Prop :=
  (∀ (p : List Byte) (l : Load) (s : State), s.Accepts → s.DeliveryOk → p.length = 2 → fieldAt p 0 2 = l.number →
    l.number ≠ 0 → s.load? l.number = some l →
    (l.state = .delivering ∨ l.state = .held → exec (.retireLoad p) s = .next (s.refusedAs 0x17 .wrongState)) ∧
    (l.state = .staged ∨ l.state = .ready ∨ l.state = .ended →
      ∃ t, exec (.retireLoad p) s = .next t ∧ t.load? l.number = none ∧
        (∀ r, s.recipe? l.recipe = some r →
          t.recipe? l.recipe =
            if r.state = .retiring ∧ r.count = 1 then none else some { r with count := r.count - 1 }) ∧
        (∀ k, k ≠ l.recipe → t.recipe? k = s.recipe? k) ∧
        (l.state ≠ .ready → t.loads = s.loads.filter (fun x => decide (x.number ≠ l.number))) ∧
        (l.state = .ready → (s.arm l.arm).mode = .available → ∀ k, s.oldestStaged l.arm = some k →
          t.active l.arm = some { k with state := .ready }) ∧
        (∀ m : ArmId, m ≠ l.arm → t.armList m = s.armList m) ∧
        (∀ i : InjId, (s.injector i).stroke ≠ some ⟨some l.number⟩ → t.injector i = s.injector i) ∧
        (∀ i : InjId, (s.injector i).stroke = some ⟨some l.number⟩ →
          t.injector i = { s.injector i with stroke := some ⟨none⟩ }) ∧
        t.link = s.linkAnswered 0x17 .ok (be16 l.number) ∧
        t = { s with link := t.link, loads := t.loads, recipes := t.recipes, injectors := t.injectors })) ∧
  ∀ (p : List Byte) (s : State), s.Accepts → p.length = 2 →
    (fieldAt p 0 2 = 0 → exec (.retireLoad p) s = .next (s.refusedAs 0x17 .badField)) ∧
    (fieldAt p 0 2 ≠ 0 → s.load? (fieldAt p 0 2) = none → exec (.retireLoad p) s = .next (s.refusedAs 0x17 .notFound))

/-! ## Recipe requests (02_blend_recipes.md) -/

/-- DEFINE RECIPE adds the recipe, ACTIVE with count 0, at the end of the table. It refuses a field out of
range or a repeated code, then a number in the table, then a full table. -/
def Obligations.DefineAddsARecipe : Prop :=
  ∀ (p : List Byte) (v : RecipeFields) (inRange : Prop) (s : State), s.Accepts → 6 ≤ p.length →
    p.length = 6 + 3 * fieldAt p 5 1 → p.length ≤ 249 → v = recipeFields p →
    (inRange ↔ 1 ≤ v.number ∧ v.number ≤ 999 ∧ v.fraction ≤ 850 ∧ 1 ≤ v.tolerance ∧ v.tolerance ≤ 50 ∧
      v.entries.length ≤ 3 ∧ (∀ e ∈ v.entries, 1 ≤ e.code ∧ e.code ≤ 8 ∧ 1 ≤ e.dose ∧ e.dose ≤ 9999) ∧
      (v.entries.map (·.code)).Nodup) →
    (¬ inRange → exec (.defineRecipe p) s = .next (s.refusedAs 0x20 .badField)) ∧
    (inRange → s.recipe? v.number ≠ none → exec (.defineRecipe p) s = .next (s.refusedAs 0x20 .duplicate)) ∧
    (inRange → s.recipe? v.number = none → 24 ≤ s.recipes.length →
      exec (.defineRecipe p) s = .next (s.refusedAs 0x20 .tableFull)) ∧
    (inRange → s.recipe? v.number = none → s.recipes.length < 24 →
      exec (.defineRecipe p) s = .next { s with
        link := s.linkAnswered 0x20 .ok (be16 v.number)
        recipes := s.recipes ++ [⟨v.number, .active, v.fraction, v.tolerance, v.entries, 0⟩] })

/-- AMEND RECIPE replaces the fraction, the tolerance and the entries of an ACTIVE recipe with count 0, and
RETIRE RECIPE removes it; with a count above 0 the one is refused IN_USE and the other leaves it RETIRING. Both
refuse a RETIRING recipe, before that a number no recipe carries, and before that a field out of range. -/
def Obligations.RecipesInUseAreKept : Prop :=
  (∀ (p q : List Byte) (v : RecipeFields) (r : Recipe) (s : State), s.Accepts → s.TablesOk →
    6 ≤ p.length → p.length = 6 + 3 * fieldAt p 5 1 → v = recipeFields p → v.inRange = true →
    v.number = r.number → q.length = 2 → fieldAt q 0 2 = r.number → s.recipe? r.number = some r →
    (r.state = .retiring →
      exec (.amendRecipe p) s = .next (s.refusedAs 0x21 .wrongState) ∧
      exec (.retireRecipe q) s = .next (s.refusedAs 0x22 .wrongState)) ∧
    (r.state = .active → 0 < r.count →
      exec (.amendRecipe p) s = .next (s.refusedAs 0x21 .inUse) ∧
      ∃ t, exec (.retireRecipe q) s = .next t ∧ t.recipe? r.number = some { r with state := .retiring } ∧
        (∀ k, k ≠ r.number → t.recipe? k = s.recipe? k) ∧ t.recipes.length = s.recipes.length ∧
        t = { s with
          link := s.linkAnswered 0x22 .ok (be16 r.number ++ [2] ++ byte1 r.count), recipes := t.recipes }) ∧
    (r.state = .active → r.count = 0 →
      (∃ t, exec (.amendRecipe p) s = .next t ∧
        t.recipe? r.number = some ⟨r.number, .active, v.fraction, v.tolerance, v.entries, 0⟩ ∧
        (∀ k, k ≠ r.number → t.recipe? k = s.recipe? k) ∧ t.recipes.length = s.recipes.length ∧
        t = { s with link := s.linkAnswered 0x21 .ok (be16 r.number), recipes := t.recipes }) ∧
      ∃ t, exec (.retireRecipe q) s = .next t ∧ t.recipe? r.number = none ∧
        (∀ k, k ≠ r.number → t.recipe? k = s.recipe? k) ∧ t.recipes.length + 1 = s.recipes.length ∧
        t = { s with link := s.linkAnswered 0x22 .ok (be16 r.number ++ [1, 0]), recipes := t.recipes })) ∧
  ∀ (p q : List Byte) (v : RecipeFields) (inRange : Prop) (s : State), s.Accepts → 6 ≤ p.length →
    p.length = 6 + 3 * fieldAt p 5 1 → p.length ≤ 249 → q.length = 2 → v = recipeFields p →
    (inRange ↔ 1 ≤ v.number ∧ v.number ≤ 999 ∧ v.fraction ≤ 850 ∧ 1 ≤ v.tolerance ∧ v.tolerance ≤ 50 ∧
      v.entries.length ≤ 3 ∧ (∀ e ∈ v.entries, 1 ≤ e.code ∧ e.code ≤ 8 ∧ 1 ≤ e.dose ∧ e.dose ≤ 9999) ∧
      (v.entries.map (·.code)).Nodup) →
    (¬ inRange → exec (.amendRecipe p) s = .next (s.refusedAs 0x21 .badField)) ∧
    (inRange → s.recipe? v.number = none → exec (.amendRecipe p) s = .next (s.refusedAs 0x21 .notFound)) ∧
    (fieldAt q 0 2 = 0 ∨ 999 < fieldAt q 0 2 → exec (.retireRecipe q) s = .next (s.refusedAs 0x22 .badField)) ∧
    (1 ≤ fieldAt q 0 2 → fieldAt q 0 2 ≤ 999 → s.recipe? (fieldAt q 0 2) = none →
      exec (.retireRecipe q) s = .next (s.refusedAs 0x22 .notFound))

/-- READ RECIPE: BAD_FIELD outside 1 to 999, NOT_FOUND for a number no recipe carries, else the recipe's number,
state, fraction, tolerance, count, entry count, and each entry's code and dose in the recipe's order. -/
def Obligations.ReadRecipeReportsTheRecipe : Prop :=
  ∀ (p : List Byte) (r : Recipe) (s : State), s.Accepts → p.length = 2 →
    (fieldAt p 0 2 = 0 ∨ 999 < fieldAt p 0 2 → exec (.readRecipe p) s = .next (s.refusedAs 0x23 .badField)) ∧
    (1 ≤ fieldAt p 0 2 → fieldAt p 0 2 ≤ 999 →
      (s.recipe? (fieldAt p 0 2) = none → exec (.readRecipe p) s = .next (s.refusedAs 0x23 .notFound)) ∧
      (s.recipe? (fieldAt p 0 2) = some r →
        exec (.readRecipe p) s = .next (s.withLink (s.linkAnswered 0x23 .ok
          (be16 r.number ++ byte1 (if r.state = .active then 1 else 2) ++ be16 r.fraction ++ byte1 r.tolerance
            ++ byte1 r.count ++ byte1 r.entries.length ++ r.entries.flatMap fun e => byte1 e.code ++ be16 e.dose)))))

/-- LIST RECIPES: one entry per recipe of the table, in ascending order of number, with its number, state,
fraction and count. -/
def Obligations.ListRecipesAscends : Prop :=
  ∀ s : State, s.Accepts →
    ∃ rs : List Recipe, rs.Perm s.recipes ∧ rs.Pairwise (fun a b => a.number ≤ b.number) ∧
      exec (.listRecipes []) s = .next (s.withLink (s.linkAnswered 0x24 .ok
        (byte1 rs.length ++ rs.flatMap fun r =>
          be16 r.number ++ byte1 (if r.state = .active then 1 else 2) ++ be16 r.fraction ++ byte1 r.count)))

/-! ## Reports and alarms (10_station_link.md, 09_permissives_and_alarms.md) -/

/-- STATION STATUS reports station state and reset cause, address and its source, line speed in force, station
alarm set, link error counter, the numbers of records and recipes, and whether a save is in progress. The code of
that last byte, 1 for yes and 0 for no, is the model's choice (log entry 41). -/
def Obligations.StationStatusReportsTheStation : Prop :=
  ∀ s : State, s.Accepts →
    exec (.stationStatus []) s = .next (s.withLink (s.linkAnswered 0x01 .ok
      (byte1 (if s.store.mode = .running then 1 else 2)
        ++ byte1 (match s.store.cause with
          | .powerOn => 1
          | .resetPin => 2
          | .hostRestart => 3)
        ++ byte1 s.link.address ++ byte1 (if s.link.source = .straps then 1 else 2) ++ be32 s.link.speed
        ++ byte1 (stationAlarmBits s.stationAlarms) ++ be16 (s.linkReceived false).errors
        ++ byte1 s.loads.length ++ byte1 s.recipes.length ++ byte1 (if s.store.save = none then 0 else 1))))

/-- READ LOAD, READ ARM, LIST LOADS and READ SETTING answer with their report, laid out byte for byte as R192 has
it, and change nothing but the link; they refuse a field out of range BAD_FIELD, and an unknown load NOT_FOUND. -/
def Obligations.ReadsChangeNothing : Prop :=
  ∀ (p : List Byte) (n : ArmId) (l : Load) (slot : Slot) (s : State), s.Accepts →
    let flag := fun (b : Bool) (k : Nat) => if b then 2 ^ k else 0
    let state := fun (x : LoadState) => 1 + [LoadState.staged, .ready, .delivering, .held, .ended].idxOf x
    let phase := fun (x : Option Phase) =>
      [none, some Phase.headerWait, some .low, some .high, some .taper, some .finish, some .settle].idxOf x
    let reason := fun (x : Option EndReason) =>
      [none, some EndReason.complete, some .aborted, some .holdExpired].idxOf x
    let cause := fun (x : Option HoldCause) =>
      [none, some HoldCause.host, some .stopButton, some .permissive, some .alarm, some .linkSilence,
        some .broadcast].idxOf x
    let kinds := [AlarmKind.noFlow, .unauthFlow, .pulseGas, .pulseEth, .reverseFlow, .ratioDev, .addShort, .tempFault,
      .overrunHigh, .offRatio, .permitLoss]
    let average := fun (x : Option Int) => signed16 (x.getD 0)
    let entry := fun (e : AddEntry) => byte1 e.code ++ byte1 (e.injector.val + 1) ++ be32 e.interval ++ be32 e.due
      ++ be32 e.issued ++ be32 e.verified ++ be32 e.injected
    let listed := fun (ls : List Load) => byte1 ls.length ++ ls.flatMap fun l =>
      be16 l.number ++ byte1 (l.arm.val + 1) ++ byte1 (state l.state) ++ byte1 (phase l.deliveringPhase)
        ++ byte1 (reason l.endReason)
    let g := gasMeter n
    let e := ethMeter n
    let temp := fun (m : MeterId) => average ((s.tempAnswer m).map (·.1))
    (p.length = 2 →
      (fieldAt p 0 2 = 0 → exec (.readLoad p) s = .next (s.refusedAs 0x16 .badField)) ∧
      (fieldAt p 0 2 ≠ 0 → s.load? (fieldAt p 0 2) = none →
        exec (.readLoad p) s = .next (s.refusedAs 0x16 .notFound)) ∧
      (fieldAt p 0 2 ≠ 0 → s.load? (fieldAt p 0 2) = some l →
        exec (.readLoad p) s = .next (s.withLink (s.linkAnswered 0x16 .ok
          (be16 l.number ++ byte1 (l.arm.val + 1) ++ be16 l.recipe ++ be16 l.preset ++ byte1 (state l.state)
            ++ byte1 (phase l.phase)
            ++ byte1 (flag l.gasAverage.isSome 0 + flag l.ethAverage.isSome 1 + flag l.lastCause.isSome 2
              + flag l.endReason.isSome 3 + flag l.achieved.isSome 4 + flag l.overrun.isSome 5
              + flag l.upgradePending.isSome 6 + flag l.abortTaken.isSome 7)
            ++ byte1 (flag (l.upgradePending == some true) 0 + flag (l.abortTaken == some true) 1)
            ++ be32 l.gasGross ++ be32 l.gasNet ++ be32 l.ethGross ++ be32 l.ethNet
            ++ average l.gasAverage ++ average l.ethAverage ++ byte1 l.holdCount
            ++ byte1 (cause l.lastCause) ++ byte1 (reason l.endReason)
            ++ byte1 (flag l.flags.offRatio 0 + flag l.flags.additiveShort 1 + flag l.flags.tempHeld 2
              + flag l.flags.finishCut 3 + flag l.flags.overrunHigh 4)
            ++ be16 (l.achieved.getD 0)
            ++ signed32 (max (-2147483648) (min 2147483647 (l.overrun.getD 0)))
            ++ byte1 l.entries.length ++ l.entries.flatMap entry))))) ∧
    (p.length = 1 →
      (fieldAt p 0 1 = 0 ∨ 8 < fieldAt p 0 1 → exec (.readArm p) s = .next (s.refusedAs 0x02 .badField)) ∧
      (fieldAt p 0 1 = armNumber n →
        exec (.readArm p) s = .next (s.withLink (s.linkAnswered 0x02 .ok
          (byte1 (n.val + 1) ++ byte1 (1 + [ArmMode.outOfService, .checking, .available].idxOf (s.arm n).mode)
            ++ byte1 (flag (s.active n).isSome 0 + flag (s.phase n).isSome 1 + flag (s.arm n).stalled.isSome 2
              + flag (s.tempAnswer g).isSome 3 + flag (s.tempAnswer e).isSome 4 + flag (s.alarm n).first.isSome 5)
            ++ be16 (((s.active n).map (·.number)).getD 0) ++ byte1 (phase (s.phase n))
            ++ be32 (s.arm n).qGas ++ be32 (s.arm n).qEth ++ be16 (s.arm n).gasTarget ++ be16 (s.ratio n).setpoint
            ++ byte1 ([ResLevel.none, .low, .high].idxOf (s.resv n).level) ++ be16 (s.resv n).amount
            ++ byte1 (1 + [Valve.close, .hold, .openFurther].idxOf (s.arm n).valve)
            ++ byte1 ([none, some Stalled.gas, some .ethanol, some .both].idxOf (s.arm n).stalled)
            ++ temp g ++ temp e
            ++ byte1 (flag ((s.tempAnswer g).any (·.2)) 0 + flag ((s.tempAnswer e).any (·.2)) 1)
            ++ be16 ((kinds.map fun k => if k ∈ (s.alarm n).latched then 2 ^ kinds.idxOf k else 0).sum)
            ++ byte1 ((none :: kinds.map some).idxOf (s.alarm n).first)
            ++ byte1 (([LossSource.estop, .headerPress, .ground, .overfill, .armConnected].zipIdx.map fun x =>
              if x.1 ∈ (s.alarm n).sources then 2 ^ x.2 else 0).sum)
            ++ byte1 (([Permissive.estop, .headerPress, .ground (bayOf n), .overfill (bayOf n),
              .armConnected n].zipIdx.map fun x => flag (levelOf s.levels x.1) x.2).sum)
            ++ be32 (s.meter g).unassigned ++ be32 (s.meter e).unassigned
            ++ be16 (s.meter g).debt ++ be16 (s.meter e).debt
            ++ be16 (((s.arm n).history.h1 + (s.arm n).history.h2 + (s.arm n).history.h3 + (s.arm n).history.h4) / 4))))) ∧
      (8 < fieldAt p 0 1 → exec (.listLoads p) s = .next (s.refusedAs 0x18 .badField)) ∧
      (fieldAt p 0 1 = 0 →
        exec (.listLoads p) s = .next (s.withLink (s.linkAnswered 0x18 .ok
          (listed ([0, 1, 2, 3, 4, 5, 6, 7].flatMap fun k => s.loads.filter fun l => l.arm == k))))) ∧
      (fieldAt p 0 1 = armNumber n →
        exec (.listLoads p) s = .next (s.withLink (s.linkAnswered 0x18 .ok
          (listed (s.loads.filter fun l => l.arm == n)))))) ∧
    (p.length = 3 →
      (slotOf (fieldAt p 0 2) (fieldAt p 2 1) = none →
        exec (.readSetting p) s = .next (s.refusedAs 0x40 .badField)) ∧
      (slotOf (fieldAt p 0 2) (fieldAt p 2 1) = some slot →
        exec (.readSetting p) s = .next { s with link := s.linkAnswered 0x40 .ok (be32 (s.settings.get slot)) }))

/-- CLEAR ALARMS empties the station alarm set and the link error counter, or one arm's latched set, first alarm
and loss sources; the permissive levels and every record stay. -/
def Obligations.ClearAlarmsClearsItsScope : Prop :=
  ∀ (p : List Byte) (n : ArmId) (s : State), s.Accepts → p.length = 1 →
    (8 < fieldAt p 0 1 → exec (.clearAlarms p) s = .next (s.refusedAs 0x30 .badField)) ∧
    (fieldAt p 0 1 = 0 → exec (.clearAlarms p) s = .next { s with
      stationAlarms := [], link := { s.linkAnswered 0x30 .ok [] with errors := 0 } }) ∧
    (fieldAt p 0 1 = armNumber n → exec (.clearAlarms p) s = .next { s with
      alarms := s.alarms.set n ⟨[], none, []⟩, link := s.linkAnswered 0x30 .ok [] })

/-! ## Settings (11_start_up_and_stored_settings.md) -/

/-- WRITE SETTING refuses in the order of R198: an item or index outside the table of R201, a value outside its
range, and the class of PERMIT_LOSS; a save in progress; an item in use; a rule between items. Each is spelled out
here item by item. A write it takes replaces that one working value at once and leaves the settings memory. No item
but 1 moves a record, none but 1, 2 and 10 an arm, none but 30, 32, 33 and 34 a meter, and these only their own arm or
meter; no write changes a pending count or an unassigned volume (R53, R108). -/
def Obligations.WriteReplacesOneSetting : Prop :=
  ∀ (p : List Byte) (item index v : Nat) (slot other : Slot) (inScope inRange inUse rule : Prop)
    (live : Nat → Prop) (set : (InjId → Nat) → Nat → List InjId) (s : State),
    s.Accepts → p.length = 7 → item = fieldAt p 0 2 → index = fieldAt p 2 1 → v = fieldAt p 3 4 →
    (inScope ↔ (1 ≤ item ∧ item ≤ 19 ∧ 1 ≤ index ∧ index ≤ 8) ∨ (30 ≤ item ∧ item ≤ 43 ∧ 1 ≤ index ∧ index ≤ 16) ∨
      (50 ≤ item ∧ item ≤ 57 ∧ 1 ≤ index ∧ index ≤ 12) ∨ (70 ≤ item ∧ item ≤ 76 ∧ index = 0) ∨
      (item = 80 ∧ 1 ≤ index ∧ index ≤ 11)) →
    (inRange ↔ ((item, v) ∈ [(2, 50), (2, 100), (2, 200), (2, 250), (70, 0), (73, 9600), (73, 19200), (73, 38400),
        (73, 57600), (73, 115200), (75, 0)] ∨
      ∃ lo hi, lo ≤ v ∧ v ≤ hi ∧ (item, lo, hi) ∈ [(1, 0, 1), (3, 50, 1000), (4, 200, 4000), (5, 10, 1000),
        (6, 20, 2000), (7, 1, 10), (8, 0, 10), (9, 2, 60), (10, 0, 50), (11, 0, 100), (12, 1, 50), (13, 20, 3000),
        (14, 2, 60), (15, 0, 1000), (16, 0, 20), (17, 1, 30), (18, 0, 5000), (19, 5, 60), (30, 0, 1), (31, 1, 10000),
        (32, 100, 10000), (33, 1, 50), (34, 1000, 9999999), (35, 0, 5000), (36, 0, 5000), (37, 0, 5000),
        (38, 0, 5000), (39, 9000, 11000), (40, 9000, 11000), (41, 9000, 11000), (42, 9000, 11000), (43, 500, 1500),
        (50, 0, 8), (51, 1, 8), (52, 10, 500), (53, 100, 2000), (54, 50, 1000), (55, 1, 10000), (56, 0, 50),
        (57, 1, 10), (70, 1, 60), (71, 2, 60), (72, 0, 6000), (74, 1, 31), (75, 5, 300), (76, 1, 2), (80, 1, 3)]) ∧
      ¬ (item = 80 ∧ index = 11 ∧ v ≠ 1)) →
    (∀ k, live k ↔ ∃ l ∈ s.loads, l.arm.val + 1 = k ∧ l.state ≠ .ended) →
    (inUse ↔ (item ≤ 19 ∧ live index) ∨ (30 ≤ item ∧ item ≤ 43 ∧ live ((index + 1) / 2)) ∨
      (∃ i : InjId, 50 ≤ item ∧ item ≤ 57 ∧ i.val + 1 = index ∧
        (live (s.injCfg i).arm ∨ (item = 50 ∧ live v) ∨ (s.injector i).stroke ≠ none)) ∨
      (item = 72 ∧ ((∃ n : ArmId, (s.resv n).level ≠ .none) ∨ s.queue ≠ [])) ∨
      (item = 80 ∧ ∃ l ∈ s.loads, l.state = .ready ∨ l.state = .delivering ∨ l.state = .held)) →
    (∀ arm k, set arm k = allInjectors.filter fun j => arm j = k) →
    (rule ↔
      (∀ n : ArmId, armNumber n = index → (item = 3 → v ≤ (s.armCfg n).highRate) ∧
        (item = 4 → (s.armCfg n).lowRate ≤ v)) ∧
      (∀ m : MeterId, m.val + 1 = index →
        let c := s.meterCfg m
        (item = 35 → v < c.q2 ∧ c.q2 < c.q3 ∧ c.q3 < c.q4) ∧ (item = 36 → c.q1 < v ∧ v < c.q3 ∧ c.q3 < c.q4) ∧
          (item = 37 → c.q1 < c.q2 ∧ c.q2 < v ∧ v < c.q4) ∧ (item = 38 → c.q1 < c.q2 ∧ c.q2 < c.q3 ∧ c.q3 < v)) ∧
      (∀ i : InjId, i.val + 1 = index →
        (item = 50 → v ≠ 0 → (set (fun j => if j = i then v else (s.injCfg j).arm) v).length ≤ 3 ∧
          ((set (fun j => if j = i then v else (s.injCfg j).arm) v).map fun j => (s.injCfg j).code).Nodup) ∧
        (item = 51 → (s.injCfg i).arm ≠ 0 → (set (fun j => (s.injCfg j).arm) (s.injCfg i).arm).length ≤ 3 ∧
          ((set (fun j => (s.injCfg j).arm) (s.injCfg i).arm).map fun j =>
            if j = i then v else (s.injCfg j).code).Nodup))) →
    (¬ inScope ∨ ¬ inRange ∨ (item = 80 ∧ index = 11) →
      exec (.writeSetting p) s = .next (s.refusedAs 0x41 .badField)) ∧
    (inScope → inRange → ¬ (item = 80 ∧ index = 11) →
      (s.store.save ≠ none → exec (.writeSetting p) s = .next (s.refusedAs 0x41 .busy)) ∧
      (s.store.save = none →
        (inUse → exec (.writeSetting p) s = .next (s.refusedAs 0x41 .inUse)) ∧
        (¬ inUse → ¬ rule → exec (.writeSetting p) s = .next (s.refusedAs 0x41 .badField)) ∧
        (¬ inUse → rule → slotOf item index = some slot →
          ∃ t, exec (.writeSetting p) s = .next t ∧ t.settings.get slot = v ∧
            (∀ item' index', slotOf item' index' = some other → other ≠ slot →
              t.settings.get other = s.settings.get other) ∧
            t.link = { s.linkAnswered 0x41 .ok [] with
              silence := if slot = .station 75 then (if v = 0 then none else some (s.now + 1000 * v))
                else (s.linkReceived false).silence } ∧
            (item ≠ 1 → t.loads = s.loads) ∧ (item ∉ [1, 2, 10] → t.arms = s.arms) ∧
            (item ∉ [30, 32, 33, 34] → t.meters = s.meters) ∧
            (∀ n : ArmId, armNumber n ≠ index → t.arm n = s.arm n) ∧
            (∀ m : MeterId, m.val + 1 ≠ index → t.meter m = s.meter m) ∧
            (∀ m : MeterId, (t.meter m).pending = (s.meter m).pending ∧
              (t.meter m).unassigned = (s.meter m).unassigned) ∧
            t = { s with
              settings := t.settings, link := t.link, loads := t.loads, arms := t.arms, meters := t.meters })))

/-- An accepted write acts on its block at once, and leaves the records and the other block as they were. In-service:
no takes the arm out of service with its valve closed and its sample clock stopped; yes brings an OUT_OF_SERVICE arm
of a RUNNING station to CHECKING for 30 s, or, with both channels ready, to AVAILABLE (R80, R81). The sample period
restarts the sample clock of an AVAILABLE arm, its first sample half the new period later (R108). The gas compensation
sets the four learned values (R106). Pulse security clears the meter's debt, both window counts and the consecutive
mismatches; the window length and the window tolerance clear the counts and the mismatches (R53). The K-factor clears
the carry of the indicated volume (R64). A write of the value in force does the same. -/
def Obligations.WritesActOnTheirBlock : Prop :=
  ∀ (p : List Byte) (n : ArmId) (m : MeterId) (item v : Nat) (s : State), s.Accepts → p.length = 7 →
    item = fieldAt p 0 2 → v = fieldAt p 3 4 → s.store.save = none → s.armLive n = false →
    s.armLive (meterArm m) = false →
    (fieldAt p 2 1 = armNumber n →
      (item = 1 → v ≤ 1 → ∃ t, exec (.writeSetting p) s = .next t ∧ t.loads = s.loads ∧ t.meters = s.meters ∧
        (v = 0 → (s.arm n).mode ≠ .outOfService → t.arms = s.arms.set n { s.arm n with
          mode := .outOfService, checkTimer := none, sampleClock := none, valve := .close, qGas := 0, qEth := 0 }) ∧
        (v = 1 → (s.arm n).mode = .outOfService → s.store.mode = .running →
          (s.channelsReady n = false →
            t.arms = s.arms.set n { s.arm n with mode := .checking, checkTimer := some (s.now + 30000) }) ∧
          (s.channelsReady n = true → t.arms = s.arms.set n { s.arm n with
            mode := .available, checkTimer := none, sampleClock := some (s.now + (s.armCfg n).period / 2) })) ∧
        (v = 0 ∧ (s.arm n).mode = .outOfService ∨
            v = 1 ∧ ((s.arm n).mode ≠ .outOfService ∨ s.store.mode = .unconfigured) → t.arms = s.arms)) ∧
      (item = 2 → v = 50 ∨ v = 100 ∨ v = 200 ∨ v = 250 →
        ∃ t, exec (.writeSetting p) s = .next t ∧ t.loads = s.loads ∧ t.meters = s.meters ∧
          t.arms = (if (s.arm n).mode = .available then
            s.arms.set n { s.arm n with sampleClock := some (s.now + v / 2) } else s.arms)) ∧
      (item = 10 → v ≤ 50 → ∃ t, exec (.writeSetting p) s = .next t ∧ t.loads = s.loads ∧ t.meters = s.meters ∧
        t.arms = s.arms.set n { s.arm n with history := ⟨1000 * v, 1000 * v, 1000 * v, 1000 * v⟩ })) ∧
    (fieldAt p 2 1 = m.val + 1 →
      (item = 30 → v ≤ 1 → ∃ t, exec (.writeSetting p) s = .next t ∧ t.loads = s.loads ∧ t.arms = s.arms ∧
        t.meters = s.meters.set m { s.meter m with debt := 0, windowA := 0, windowB := 0, mismatches := 0 }) ∧
      (item = 32 ∧ 100 ≤ v ∧ v ≤ 10000 ∨ item = 33 ∧ 1 ≤ v ∧ v ≤ 50 →
        ∃ t, exec (.writeSetting p) s = .next t ∧ t.loads = s.loads ∧ t.arms = s.arms ∧
          t.meters = s.meters.set m { s.meter m with windowA := 0, windowB := 0, mismatches := 0 }) ∧
      (item = 34 → 1000 ≤ v → v ≤ 9999999 → ∃ t, exec (.writeSetting p) s = .next t ∧ t.loads = s.loads ∧
        t.arms = s.arms ∧ t.meters = s.meters.set m { s.meter m with carryI := 0 }))

/-- SAVE SETTINGS and RESTART: BUSY during a save; RESTART is WRONG_STATE while a record is DELIVERING.
Otherwise the save begins at the first byte of area M, and the start waits for the end of the reply. -/
def Obligations.SaveAndRestartAreTaken : Prop :=
  ∀ s : State, s.Accepts →
    (s.store.save ≠ none →
      exec (.saveSettings []) s = .next (s.refusedAs 0x42 .busy) ∧
      exec (.restart []) s = .next (s.refusedAs 0x43 .busy)) ∧
    (s.store.save = none →
      exec (.saveSettings []) s = .next { s with
        store := { s.store with line := .saving, save := some ⟨.m, 0, false, 3⟩ }
        link := s.linkAnswered 0x42 .ok [] } ∧
      ((∃ l ∈ s.loads, l.state = .delivering) → exec (.restart []) s = .next (s.refusedAs 0x43 .wrongState)) ∧
      ((∀ l ∈ s.loads, l.state ≠ .delivering) →
        exec (.restart []) s = .next { s with
          store := { s.store with restart := true }, link := s.linkAnswered 0x43 .ok [] }))

/-- SAVE_BYTE_DONE: an unacknowledged access is tried again, and the third for the byte ends the save with
SAVE_FAILED; a byte read unlike the working one is written, with the tries left on it; a byte equal, or written,
moves the save on, from area M to area L and from area L to its end. Every other byte of the memory stays. A data
byte written marks its area as a mixed image, and the area's last byte done clears the mark (log entry 32). A
progress outside its area, which no run reaches, is a fault. The count of tries for the byte's read and write
together, the byte left by an unacknowledged write, the marks and the fault are the model's choice (log entries 7, 8,
32 and 39). -/
def Obligations.SaveGoesByteByByte : Prop :=
  (∀ (ack : Bool) (p : SaveProgress) (w : Byte) (done : Prop) (s : State), s.memory.wf = true →
    s.store.save = some p → (s.settings.areaImage p.area)[p.byte]? = some w → p.byte < p.area.size →
    (done ↔ ack = true ∧ (p.writing = true ∨ s.memory.read (p.area.start + p.byte) = w)) →
    ∃ t, exec (.saveByteDone ack) s = .next t ∧
      (∀ a, a ≠ p.area.start + p.byte → t.memory.read a = s.memory.read a) ∧ t.memory.wf = true ∧
      (ack = false → t.memory = s.memory ∧
        (p.tries ≤ 1 → t.store = { s.store with line := .idle, save := none } ∧
          StationAlarm.saveFailed ∈ t.stationAlarms) ∧
        (1 < p.tries → t.store = { s.store with save := some { p with tries := p.tries - 1 } })) ∧
      (ack = true → ¬ done →
        t.memory = s.memory ∧ t.store = { s.store with save := some { p with writing := true } }) ∧
      (done → t.memory.read (p.area.start + p.byte) = w ∧
        (p.byte + 1 < p.area.size → t.store.save = some ⟨p.area, p.byte + 1, false, 3⟩ ∧ t.store.line = s.store.line) ∧
        (p.byte + 1 = p.area.size → p.area = .m →
          t.store.save = some ⟨.l, 0, false, 3⟩ ∧ t.store.line = s.store.line) ∧
        (p.byte + 1 = p.area.size → p.area = .l → t.store.save = none ∧ t.store.line = .idle) ∧
        (let mixed := fun (before : Bool) =>
          if p.byte + 1 = p.area.size then false
          else if p.writing = true ∧ p.byte + 2 < p.area.size then true else before
        t.store.mixedM = (if p.area = .m then mixed s.store.mixedM else s.store.mixedM) ∧
          t.store.mixedL = (if p.area = .l then mixed s.store.mixedL else s.store.mixedL))) ∧
      (ack = true ∨ 1 < p.tries → t.stationAlarms = s.stationAlarms) ∧
      t = { s with store := t.store, memory := t.memory, stationAlarms := t.stationAlarms }) ∧
  ∀ (ack : Bool) (p : SaveProgress) (s : State), s.store.save = some p → p.area.size ≤ p.byte →
    exec (.saveByteDone ack) s = .fault (.noSuchMemoryByte (p.area.start + p.byte))

/-! ## Station link (10_station_link.md) -/

/-- While a reply is pending, every frame for this station or broadcast, and PENDING_FRAME_DISCARD, is
discarded: SKIP, one more link error, the overrun flag, and nothing else. -/
def Obligations.FramesDuringAReplyAreDiscarded : Prop :=
  ∀ (c : Instr) (s : State), s.listening = true → s.link.reply ≠ none → c.wellFormed = true →
    c = .pendingFrameDiscard ∨ frameFields c ≠ none →
    exec c s = .next { s with link := { s.link with
      receiver := .skip, frame := none, errors := min 65535 (s.link.errors + 1), overrun := true } }

/-- UNKNOWN_REQUEST, and a known request of a length that does not fit, are answered so and change the link
alone; BROADCAST_IGNORED restarts the silence timer and is not answered. -/
def Obligations.FramesWithoutEffect : Prop :=
  ∀ (c : Instr) (code : Byte) (p : List Byte) (s : State), s.Accepts → c.wellFormed = true →
    (c = .unknownRequest code p → exec c s = .next (s.refusedAs code .unknownRequest)) ∧
    (c = .broadcastIgnored code p → exec c s = .next { s with link := s.linkReceived true }) ∧
    ((p.length ≠ 2 ∧ (c = .startLoad p ∧ code = 0x11 ∨ c = .holdLoad p ∧ code = 0x12 ∨ c = .resumeLoad p ∧ code = 0x13 ∨
        c = .abortLoad p ∧ code = 0x15 ∨ c = .readLoad p ∧ code = 0x16 ∨ c = .retireLoad p ∧ code = 0x17 ∨
        c = .retireRecipe p ∧ code = 0x22 ∨ c = .readRecipe p ∧ code = 0x23)) ∨
      (p.length ≠ 0 ∧ (c = .stationStatus p ∧ code = 0x01 ∨ c = .listRecipes p ∧ code = 0x24 ∨
        c = .saveSettings p ∧ code = 0x42 ∨ c = .restart p ∧ code = 0x43)) ∨
      (p.length ≠ 1 ∧ (c = .readArm p ∧ code = 0x02 ∨ c = .listLoads p ∧ code = 0x18 ∨ c = .clearAlarms p ∧ code = 0x30)) ∨
      (p.length ≠ 7 ∧ (c = .stageLoad p ∧ code = 0x10 ∨ c = .writeSetting p ∧ code = 0x41)) ∨
      (p.length ≠ 4 ∧ c = .amendPreset p ∧ code = 0x14) ∨ (p.length ≠ 3 ∧ c = .readSetting p ∧ code = 0x40) ∨
      ((p.length < 6 ∨ p.length ≠ 6 + 3 * fieldAt p 5 1) ∧
        (c = .defineRecipe p ∧ code = 0x20 ∨ c = .amendRecipe p ∧ code = 0x21)) →
      exec c s = .next (s.refusedAs code .badLength))

/-- FRAME_DISCARD and FRAME_IDLE_TIMEOUT count one link error, and one more for a frame of the other kind that
the receiver held; the receiver waits, but for an abandoning mark. FRAME_FOR_OTHER_STATION makes it SKIP, and
counts the frames in progress. Nothing but the link changes. Which frames a command carries as in progress is the
model's choice (log entry 17). -/
def Obligations.DiscardedFramesAreCounted : Prop :=
  ∀ (reason : DiscardReason) (f g : RxFrame) (mark : Byte) (other : Nat) (s : State), s.Accepts →
    s.link.errors < 65000 →
    (s.link.frame = none ∧ other = 0) ∨
      (s.link.frame = some g ∧ other = if g.broadcast = f.broadcast then 0 else 1) →
    exec (.frameDiscard reason f) s = .next { s with link := { s.link with
      errors := s.link.errors + other + 1
      receiver := match reason with
        | .abandoned _ => .receive
        | _ => .wait
      frame := match reason with
        | .abandoned b => some ⟨b, []⟩
        | _ => none } } ∧
    exec (.frameIdleTimeout f) s = .next { s with link := { s.link with
      errors := s.link.errors + other + 1, receiver := .wait, frame := none } } ∧
    (mark ≠ 0 → mark.toNat ≠ s.link.address →
      exec (.frameForOtherStation mark none) s = .next { s with link := { s.link with
        receiver := .skip, frame := none
        errors := s.link.errors + if s.link.frame = none then 0 else 1 } } ∧
      exec (.frameForOtherStation mark (some f)) s = .next { s with link := { s.link with
        receiver := .skip, frame := none, errors := s.link.errors + other + 1 } })

/-- REPLY_BEGIN: the reply frame with the status header of this moment, its six bytes laid out as R192 has them, goes
on the line, marked with 64 plus the station address and closed by its CRC; reply pending becomes no and the overrun
flag clears. REPLY_END with no RESTART accepted: the receiver waits (log entry 17), and the line speed of the setting
is in force; that it is taken at the end of every reply, and not of the write's own alone, is the model's choice (log
entry 30). -/
def Obligations.RepliesGoOut : Prop :=
  ∀ (r : Reply) (header body : List Byte) (latched : ArmId → AlarmClass → Prop) (s : State),
    (∀ n c, latched n c ↔ ∃ k ∈ (s.alarm n).latched, s.classOf k = c) →
    (∀ (b0 b1 b2 b3 b4 b5 : Nat), s.operating = true →
      b0 = (if s.store.mode = .running then 1 else 2) →
      (b1 < 32 ∧ (b1.testBit 0 = true ↔ ∃ n, latched n .stop) ∧ (b1.testBit 1 = true ↔ s.stationAlarms ≠ []) ∧
        (b1.testBit 2 = true ↔ StationAlarm.restarted ∈ s.stationAlarms) ∧ (b1.testBit 3 = true ↔ s.link.overrun = true) ∧
        (b1.testBit 4 = true ↔ s.store.save ≠ none)) →
      (b2 < 256 ∧ ∀ n : ArmId, b2.testBit n = true ↔ s.active n ≠ none) →
      (b3 < 256 ∧ ∀ n : ArmId, b3.testBit n = true ↔ latched n .stop) →
      (b4 < 256 ∧ ∀ n : ArmId, b4.testBit n = true ↔ latched n .warn) →
      b5 = (s.loads.filter fun l => l.state == .ended).length →
      header = byte1 b0 ++ byte1 b1 ++ byte1 b2 ++ byte1 b3 ++ byte1 b4 ++ byte1 b5 →
      s.link.reply = some r → s.link.sending = none →
      body = byte1 (8 + r.payload.length) ++ [r.code] ++ byte1 r.result.code ++ header ++ r.payload →
      exec .replyBegin s = .next { s with link := { s.link with
        sending := some (byte1 (64 + s.link.address) ++ body ++ crcBytes body), reply := none, overrun := false } }) ∧
    (s.link.sending ≠ none → s.store.restart = false →
      exec .replyEnd s = .next { s with link := { s.link with
        receiver := .wait, frame := none, sending := none, speed := s.settings.station.lineSpeed } })

/-- The bytes of a well-formed request, taken as a frame, are that request again. -/
def Obligations.RequestsSurviveTheirFrame : Prop :=
  ∀ (i : Instr) (broadcast : Bool) (code : Byte) (p : List Byte), frameFields i = some (broadcast, code, p) →
    i.wellFormed = true → decodeFrame broadcast (encodeFrame code p) = some i

/-! ## Outputs -/

/-- The output leads follow the state (log entry 24). The two gas outputs follow the valve command: both off at
CLOSE, output 1 on at HOLD, both on at OPEN. EBVn is on and ESPn's duty above 0 exactly while the setpoint is above 0,
the duty being the setpoint over 3,000; INJn is on exactly in STROKING, and LDE exactly while a reply is on the line.
LTX rests high with no reply; a reply goes out character by character, each a low start bit, 8 data bits from the
least significant, the address mark on the first alone, and a high stop bit. POWER_UP, RESET_RELEASE and an accepted
RESTART, and POWER_DOWN and RESET_LOW, at which R193 has all outputs off (log entry 23), leave every one of them
off. -/
def Obligations.GasOutputsFollowTheCommand : Prop :=
  ∀ (n : ArmId) (i : InjId) (s : State),
    ((s.arm n).valve = .close → s.gasOutput1 n = false ∧ s.gasOutput2 n = false) ∧
    ((s.arm n).valve = .hold → s.gasOutput1 n = true ∧ s.gasOutput2 n = false) ∧
    ((s.arm n).valve = .openFurther → s.gasOutput1 n = true ∧ s.gasOutput2 n = true) ∧
    (s.blockValve n = true ↔ 0 < (s.ratio n).setpoint) ∧ s.setpointDuty n = ((s.ratio n).setpoint, 3000) ∧
    (s.injectorOutput i = true ↔ (s.injector i).state = .stroking) ∧
    (s.driverEnable = true ↔ s.link.sending ≠ none) ∧
    (s.link.sending = none → ∀ k, s.ltx k = true) ∧
    (∀ frame : List Byte, s.link.sending = some frame →
      (∀ (k : Nat) (b : Byte), frame[k]? = some b → s.ltx (11 * k) = false ∧
        (∀ j, j < 8 → s.ltx (11 * k + 1 + j) = b.getLsbD j) ∧ s.ltx (11 * k + 9) = decide (k = 0) ∧
        s.ltx (11 * k + 10) = true) ∧
      ∀ k, 11 * frame.length ≤ k → s.ltx k = true) ∧
    (∀ (c : Instr) (t : State), c = .powerUp ∨ c = .powerDown ∨ c = .resetLow ∨ c = .resetRelease ∨
        (c = .replyEnd ∧ s.link.sending ≠ none ∧ s.store.restart = true) →
      exec c s = .next t → (t.arm n).valve = .close ∧ t.gasOutput1 n = false ∧ t.gasOutput2 n = false ∧
        t.blockValve n = false ∧ (t.setpointDuty n).1 = 0 ∧ t.injectorOutput i = false ∧ t.driverEnable = false ∧
        ∀ k, t.ltx k = true)

/-! ## What every step keeps -/

/-- Every step keeps the settings memory in its canonical form. -/
def Obligations.StepsKeepTheMemoryCanonical : Prop :=
  ∀ s t : State, s.memory.wf = true → step s = .next t → t.memory.wf = true

/-- Every step keeps the tables, the lists, the grant queue, the permissives and the closed outputs in order. -/
def Obligations.StepsKeepDeliveriesSafe : Prop :=
  ∀ s t : State, s.DeliveryOk → step s = .next t → t.DeliveryOk

/-- Every step keeps the header within its capacity, and every setpoint within its arm's reservation; it leaves the
head of the grant queue asking for more than the free capacity, since an examination grants from the head while the
amount asked fits; and every gas target stays the one of its arm's phase and amount. -/
def Obligations.StepsKeepTheHeaderWithinCapacity : Prop :=
  ∀ s t : State, s.DeliveryOk → s.HeaderOk → step s = .next t → t.HeaderOk

/-- The machine after reset meets the three invariants. Where the spec gives a field no reset value, its value is
the model's choice (log entry 4). -/
def Obligations.ResetMeetsTheInvariants : Prop :=
  State.reset.DeliveryOk ∧ State.reset.HeaderOk ∧ State.reset.memory.wf = true
end

