-- ==== Sys2Proof/Laws/State.lean ====
section
/-! SUPPORT. One lemma per field per update of State, all by rfl, and reading back what a write of one arm,
meter, channel or injector leaves. -/

namespace Sys2Proof.Machine

@[simp] theorem State.withNow_now (s : State) (x : Nat) : (s.withNow x).now = x := rfl
@[simp] theorem State.withNow_pending (s : State) (x : Nat) : (s.withNow x).pending = s.pending := rfl
@[simp] theorem State.withNow_store (s : State) (x : Nat) : (s.withNow x).store = s.store := rfl
@[simp] theorem State.withNow_settings (s : State) (x : Nat) : (s.withNow x).settings = s.settings := rfl
@[simp] theorem State.withNow_memory (s : State) (x : Nat) : (s.withNow x).memory = s.memory := rfl
@[simp] theorem State.withNow_link (s : State) (x : Nat) : (s.withNow x).link = s.link := rfl
@[simp] theorem State.withNow_loads (s : State) (x : Nat) : (s.withNow x).loads = s.loads := rfl
@[simp] theorem State.withNow_recipes (s : State) (x : Nat) : (s.withNow x).recipes = s.recipes := rfl
@[simp] theorem State.withNow_arms (s : State) (x : Nat) : (s.withNow x).arms = s.arms := rfl
@[simp] theorem State.withNow_ratios (s : State) (x : Nat) : (s.withNow x).ratios = s.ratios := rfl
@[simp] theorem State.withNow_reservations (s : State) (x : Nat) : (s.withNow x).reservations = s.reservations := rfl
@[simp] theorem State.withNow_queue (s : State) (x : Nat) : (s.withNow x).queue = s.queue := rfl
@[simp] theorem State.withNow_meters (s : State) (x : Nat) : (s.withNow x).meters = s.meters := rfl
@[simp] theorem State.withNow_channels (s : State) (x : Nat) : (s.withNow x).channels = s.channels := rfl
@[simp] theorem State.withNow_port (s : State) (x : Nat) : (s.withNow x).port = s.port := rfl
@[simp] theorem State.withNow_injectors (s : State) (x : Nat) : (s.withNow x).injectors = s.injectors := rfl
@[simp] theorem State.withNow_levels (s : State) (x : Nat) : (s.withNow x).levels = s.levels := rfl
@[simp] theorem State.withNow_buttons (s : State) (x : Nat) : (s.withNow x).buttons = s.buttons := rfl
@[simp] theorem State.withNow_alarms (s : State) (x : Nat) : (s.withNow x).alarms = s.alarms := rfl
@[simp] theorem State.withNow_stationAlarms (s : State) (x : Nat) : (s.withNow x).stationAlarms = s.stationAlarms := rfl
@[simp] theorem State.withPending_now (s : State) (x : List Instr) : (s.withPending x).now = s.now := rfl
@[simp] theorem State.withPending_pending (s : State) (x : List Instr) : (s.withPending x).pending = x := rfl
@[simp] theorem State.withPending_store (s : State) (x : List Instr) : (s.withPending x).store = s.store := rfl
@[simp] theorem State.withPending_settings (s : State) (x : List Instr) : (s.withPending x).settings = s.settings := rfl
@[simp] theorem State.withPending_memory (s : State) (x : List Instr) : (s.withPending x).memory = s.memory := rfl
@[simp] theorem State.withPending_link (s : State) (x : List Instr) : (s.withPending x).link = s.link := rfl
@[simp] theorem State.withPending_loads (s : State) (x : List Instr) : (s.withPending x).loads = s.loads := rfl
@[simp] theorem State.withPending_recipes (s : State) (x : List Instr) : (s.withPending x).recipes = s.recipes := rfl
@[simp] theorem State.withPending_arms (s : State) (x : List Instr) : (s.withPending x).arms = s.arms := rfl
@[simp] theorem State.withPending_ratios (s : State) (x : List Instr) : (s.withPending x).ratios = s.ratios := rfl
@[simp] theorem State.withPending_reservations (s : State) (x : List Instr) : (s.withPending x).reservations = s.reservations := rfl
@[simp] theorem State.withPending_queue (s : State) (x : List Instr) : (s.withPending x).queue = s.queue := rfl
@[simp] theorem State.withPending_meters (s : State) (x : List Instr) : (s.withPending x).meters = s.meters := rfl
@[simp] theorem State.withPending_channels (s : State) (x : List Instr) : (s.withPending x).channels = s.channels := rfl
@[simp] theorem State.withPending_port (s : State) (x : List Instr) : (s.withPending x).port = s.port := rfl
@[simp] theorem State.withPending_injectors (s : State) (x : List Instr) : (s.withPending x).injectors = s.injectors := rfl
@[simp] theorem State.withPending_levels (s : State) (x : List Instr) : (s.withPending x).levels = s.levels := rfl
@[simp] theorem State.withPending_buttons (s : State) (x : List Instr) : (s.withPending x).buttons = s.buttons := rfl
@[simp] theorem State.withPending_alarms (s : State) (x : List Instr) : (s.withPending x).alarms = s.alarms := rfl
@[simp] theorem State.withPending_stationAlarms (s : State) (x : List Instr) : (s.withPending x).stationAlarms = s.stationAlarms := rfl
@[simp] theorem State.withStore_now (s : State) (x : Store) : (s.withStore x).now = s.now := rfl
@[simp] theorem State.withStore_pending (s : State) (x : Store) : (s.withStore x).pending = s.pending := rfl
@[simp] theorem State.withStore_store (s : State) (x : Store) : (s.withStore x).store = x := rfl
@[simp] theorem State.withStore_settings (s : State) (x : Store) : (s.withStore x).settings = s.settings := rfl
@[simp] theorem State.withStore_memory (s : State) (x : Store) : (s.withStore x).memory = s.memory := rfl
@[simp] theorem State.withStore_link (s : State) (x : Store) : (s.withStore x).link = s.link := rfl
@[simp] theorem State.withStore_loads (s : State) (x : Store) : (s.withStore x).loads = s.loads := rfl
@[simp] theorem State.withStore_recipes (s : State) (x : Store) : (s.withStore x).recipes = s.recipes := rfl
@[simp] theorem State.withStore_arms (s : State) (x : Store) : (s.withStore x).arms = s.arms := rfl
@[simp] theorem State.withStore_ratios (s : State) (x : Store) : (s.withStore x).ratios = s.ratios := rfl
@[simp] theorem State.withStore_reservations (s : State) (x : Store) : (s.withStore x).reservations = s.reservations := rfl
@[simp] theorem State.withStore_queue (s : State) (x : Store) : (s.withStore x).queue = s.queue := rfl
@[simp] theorem State.withStore_meters (s : State) (x : Store) : (s.withStore x).meters = s.meters := rfl
@[simp] theorem State.withStore_channels (s : State) (x : Store) : (s.withStore x).channels = s.channels := rfl
@[simp] theorem State.withStore_port (s : State) (x : Store) : (s.withStore x).port = s.port := rfl
@[simp] theorem State.withStore_injectors (s : State) (x : Store) : (s.withStore x).injectors = s.injectors := rfl
@[simp] theorem State.withStore_levels (s : State) (x : Store) : (s.withStore x).levels = s.levels := rfl
@[simp] theorem State.withStore_buttons (s : State) (x : Store) : (s.withStore x).buttons = s.buttons := rfl
@[simp] theorem State.withStore_alarms (s : State) (x : Store) : (s.withStore x).alarms = s.alarms := rfl
@[simp] theorem State.withStore_stationAlarms (s : State) (x : Store) : (s.withStore x).stationAlarms = s.stationAlarms := rfl
@[simp] theorem State.withSettings_now (s : State) (x : Settings) : (s.withSettings x).now = s.now := rfl
@[simp] theorem State.withSettings_pending (s : State) (x : Settings) : (s.withSettings x).pending = s.pending := rfl
@[simp] theorem State.withSettings_store (s : State) (x : Settings) : (s.withSettings x).store = s.store := rfl
@[simp] theorem State.withSettings_settings (s : State) (x : Settings) : (s.withSettings x).settings = x := rfl
@[simp] theorem State.withSettings_memory (s : State) (x : Settings) : (s.withSettings x).memory = s.memory := rfl
@[simp] theorem State.withSettings_link (s : State) (x : Settings) : (s.withSettings x).link = s.link := rfl
@[simp] theorem State.withSettings_loads (s : State) (x : Settings) : (s.withSettings x).loads = s.loads := rfl
@[simp] theorem State.withSettings_recipes (s : State) (x : Settings) : (s.withSettings x).recipes = s.recipes := rfl
@[simp] theorem State.withSettings_arms (s : State) (x : Settings) : (s.withSettings x).arms = s.arms := rfl
@[simp] theorem State.withSettings_ratios (s : State) (x : Settings) : (s.withSettings x).ratios = s.ratios := rfl
@[simp] theorem State.withSettings_reservations (s : State) (x : Settings) : (s.withSettings x).reservations = s.reservations := rfl
@[simp] theorem State.withSettings_queue (s : State) (x : Settings) : (s.withSettings x).queue = s.queue := rfl
@[simp] theorem State.withSettings_meters (s : State) (x : Settings) : (s.withSettings x).meters = s.meters := rfl
@[simp] theorem State.withSettings_channels (s : State) (x : Settings) : (s.withSettings x).channels = s.channels := rfl
@[simp] theorem State.withSettings_port (s : State) (x : Settings) : (s.withSettings x).port = s.port := rfl
@[simp] theorem State.withSettings_injectors (s : State) (x : Settings) : (s.withSettings x).injectors = s.injectors := rfl
@[simp] theorem State.withSettings_levels (s : State) (x : Settings) : (s.withSettings x).levels = s.levels := rfl
@[simp] theorem State.withSettings_buttons (s : State) (x : Settings) : (s.withSettings x).buttons = s.buttons := rfl
@[simp] theorem State.withSettings_alarms (s : State) (x : Settings) : (s.withSettings x).alarms = s.alarms := rfl
@[simp] theorem State.withSettings_stationAlarms (s : State) (x : Settings) : (s.withSettings x).stationAlarms = s.stationAlarms := rfl
@[simp] theorem State.withMemory_now (s : State) (x : Memory) : (s.withMemory x).now = s.now := rfl
@[simp] theorem State.withMemory_pending (s : State) (x : Memory) : (s.withMemory x).pending = s.pending := rfl
@[simp] theorem State.withMemory_store (s : State) (x : Memory) : (s.withMemory x).store = s.store := rfl
@[simp] theorem State.withMemory_settings (s : State) (x : Memory) : (s.withMemory x).settings = s.settings := rfl
@[simp] theorem State.withMemory_memory (s : State) (x : Memory) : (s.withMemory x).memory = x := rfl
@[simp] theorem State.withMemory_link (s : State) (x : Memory) : (s.withMemory x).link = s.link := rfl
@[simp] theorem State.withMemory_loads (s : State) (x : Memory) : (s.withMemory x).loads = s.loads := rfl
@[simp] theorem State.withMemory_recipes (s : State) (x : Memory) : (s.withMemory x).recipes = s.recipes := rfl
@[simp] theorem State.withMemory_arms (s : State) (x : Memory) : (s.withMemory x).arms = s.arms := rfl
@[simp] theorem State.withMemory_ratios (s : State) (x : Memory) : (s.withMemory x).ratios = s.ratios := rfl
@[simp] theorem State.withMemory_reservations (s : State) (x : Memory) : (s.withMemory x).reservations = s.reservations := rfl
@[simp] theorem State.withMemory_queue (s : State) (x : Memory) : (s.withMemory x).queue = s.queue := rfl
@[simp] theorem State.withMemory_meters (s : State) (x : Memory) : (s.withMemory x).meters = s.meters := rfl
@[simp] theorem State.withMemory_channels (s : State) (x : Memory) : (s.withMemory x).channels = s.channels := rfl
@[simp] theorem State.withMemory_port (s : State) (x : Memory) : (s.withMemory x).port = s.port := rfl
@[simp] theorem State.withMemory_injectors (s : State) (x : Memory) : (s.withMemory x).injectors = s.injectors := rfl
@[simp] theorem State.withMemory_levels (s : State) (x : Memory) : (s.withMemory x).levels = s.levels := rfl
@[simp] theorem State.withMemory_buttons (s : State) (x : Memory) : (s.withMemory x).buttons = s.buttons := rfl
@[simp] theorem State.withMemory_alarms (s : State) (x : Memory) : (s.withMemory x).alarms = s.alarms := rfl
@[simp] theorem State.withMemory_stationAlarms (s : State) (x : Memory) : (s.withMemory x).stationAlarms = s.stationAlarms := rfl
@[simp] theorem State.withLink_now (s : State) (x : Link) : (s.withLink x).now = s.now := rfl
@[simp] theorem State.withLink_pending (s : State) (x : Link) : (s.withLink x).pending = s.pending := rfl
@[simp] theorem State.withLink_store (s : State) (x : Link) : (s.withLink x).store = s.store := rfl
@[simp] theorem State.withLink_settings (s : State) (x : Link) : (s.withLink x).settings = s.settings := rfl
@[simp] theorem State.withLink_memory (s : State) (x : Link) : (s.withLink x).memory = s.memory := rfl
@[simp] theorem State.withLink_link (s : State) (x : Link) : (s.withLink x).link = x := rfl
@[simp] theorem State.withLink_loads (s : State) (x : Link) : (s.withLink x).loads = s.loads := rfl
@[simp] theorem State.withLink_recipes (s : State) (x : Link) : (s.withLink x).recipes = s.recipes := rfl
@[simp] theorem State.withLink_arms (s : State) (x : Link) : (s.withLink x).arms = s.arms := rfl
@[simp] theorem State.withLink_ratios (s : State) (x : Link) : (s.withLink x).ratios = s.ratios := rfl
@[simp] theorem State.withLink_reservations (s : State) (x : Link) : (s.withLink x).reservations = s.reservations := rfl
@[simp] theorem State.withLink_queue (s : State) (x : Link) : (s.withLink x).queue = s.queue := rfl
@[simp] theorem State.withLink_meters (s : State) (x : Link) : (s.withLink x).meters = s.meters := rfl
@[simp] theorem State.withLink_channels (s : State) (x : Link) : (s.withLink x).channels = s.channels := rfl
@[simp] theorem State.withLink_port (s : State) (x : Link) : (s.withLink x).port = s.port := rfl
@[simp] theorem State.withLink_injectors (s : State) (x : Link) : (s.withLink x).injectors = s.injectors := rfl
@[simp] theorem State.withLink_levels (s : State) (x : Link) : (s.withLink x).levels = s.levels := rfl
@[simp] theorem State.withLink_buttons (s : State) (x : Link) : (s.withLink x).buttons = s.buttons := rfl
@[simp] theorem State.withLink_alarms (s : State) (x : Link) : (s.withLink x).alarms = s.alarms := rfl
@[simp] theorem State.withLink_stationAlarms (s : State) (x : Link) : (s.withLink x).stationAlarms = s.stationAlarms := rfl
@[simp] theorem State.withLoads_now (s : State) (x : List Load) : (s.withLoads x).now = s.now := rfl
@[simp] theorem State.withLoads_pending (s : State) (x : List Load) : (s.withLoads x).pending = s.pending := rfl
@[simp] theorem State.withLoads_store (s : State) (x : List Load) : (s.withLoads x).store = s.store := rfl
@[simp] theorem State.withLoads_settings (s : State) (x : List Load) : (s.withLoads x).settings = s.settings := rfl
@[simp] theorem State.withLoads_memory (s : State) (x : List Load) : (s.withLoads x).memory = s.memory := rfl
@[simp] theorem State.withLoads_link (s : State) (x : List Load) : (s.withLoads x).link = s.link := rfl
@[simp] theorem State.withLoads_loads (s : State) (x : List Load) : (s.withLoads x).loads = x := rfl
@[simp] theorem State.withLoads_recipes (s : State) (x : List Load) : (s.withLoads x).recipes = s.recipes := rfl
@[simp] theorem State.withLoads_arms (s : State) (x : List Load) : (s.withLoads x).arms = s.arms := rfl
@[simp] theorem State.withLoads_ratios (s : State) (x : List Load) : (s.withLoads x).ratios = s.ratios := rfl
@[simp] theorem State.withLoads_reservations (s : State) (x : List Load) : (s.withLoads x).reservations = s.reservations := rfl
@[simp] theorem State.withLoads_queue (s : State) (x : List Load) : (s.withLoads x).queue = s.queue := rfl
@[simp] theorem State.withLoads_meters (s : State) (x : List Load) : (s.withLoads x).meters = s.meters := rfl
@[simp] theorem State.withLoads_channels (s : State) (x : List Load) : (s.withLoads x).channels = s.channels := rfl
@[simp] theorem State.withLoads_port (s : State) (x : List Load) : (s.withLoads x).port = s.port := rfl
@[simp] theorem State.withLoads_injectors (s : State) (x : List Load) : (s.withLoads x).injectors = s.injectors := rfl
@[simp] theorem State.withLoads_levels (s : State) (x : List Load) : (s.withLoads x).levels = s.levels := rfl
@[simp] theorem State.withLoads_buttons (s : State) (x : List Load) : (s.withLoads x).buttons = s.buttons := rfl
@[simp] theorem State.withLoads_alarms (s : State) (x : List Load) : (s.withLoads x).alarms = s.alarms := rfl
@[simp] theorem State.withLoads_stationAlarms (s : State) (x : List Load) : (s.withLoads x).stationAlarms = s.stationAlarms := rfl
@[simp] theorem State.withRecipes_now (s : State) (x : List Recipe) : (s.withRecipes x).now = s.now := rfl
@[simp] theorem State.withRecipes_pending (s : State) (x : List Recipe) : (s.withRecipes x).pending = s.pending := rfl
@[simp] theorem State.withRecipes_store (s : State) (x : List Recipe) : (s.withRecipes x).store = s.store := rfl
@[simp] theorem State.withRecipes_settings (s : State) (x : List Recipe) : (s.withRecipes x).settings = s.settings := rfl
@[simp] theorem State.withRecipes_memory (s : State) (x : List Recipe) : (s.withRecipes x).memory = s.memory := rfl
@[simp] theorem State.withRecipes_link (s : State) (x : List Recipe) : (s.withRecipes x).link = s.link := rfl
@[simp] theorem State.withRecipes_loads (s : State) (x : List Recipe) : (s.withRecipes x).loads = s.loads := rfl
@[simp] theorem State.withRecipes_recipes (s : State) (x : List Recipe) : (s.withRecipes x).recipes = x := rfl
@[simp] theorem State.withRecipes_arms (s : State) (x : List Recipe) : (s.withRecipes x).arms = s.arms := rfl
@[simp] theorem State.withRecipes_ratios (s : State) (x : List Recipe) : (s.withRecipes x).ratios = s.ratios := rfl
@[simp] theorem State.withRecipes_reservations (s : State) (x : List Recipe) : (s.withRecipes x).reservations = s.reservations := rfl
@[simp] theorem State.withRecipes_queue (s : State) (x : List Recipe) : (s.withRecipes x).queue = s.queue := rfl
@[simp] theorem State.withRecipes_meters (s : State) (x : List Recipe) : (s.withRecipes x).meters = s.meters := rfl
@[simp] theorem State.withRecipes_channels (s : State) (x : List Recipe) : (s.withRecipes x).channels = s.channels := rfl
@[simp] theorem State.withRecipes_port (s : State) (x : List Recipe) : (s.withRecipes x).port = s.port := rfl
@[simp] theorem State.withRecipes_injectors (s : State) (x : List Recipe) : (s.withRecipes x).injectors = s.injectors := rfl
@[simp] theorem State.withRecipes_levels (s : State) (x : List Recipe) : (s.withRecipes x).levels = s.levels := rfl
@[simp] theorem State.withRecipes_buttons (s : State) (x : List Recipe) : (s.withRecipes x).buttons = s.buttons := rfl
@[simp] theorem State.withRecipes_alarms (s : State) (x : List Recipe) : (s.withRecipes x).alarms = s.alarms := rfl
@[simp] theorem State.withRecipes_stationAlarms (s : State) (x : List Recipe) : (s.withRecipes x).stationAlarms = s.stationAlarms := rfl
@[simp] theorem State.withQueue_now (s : State) (x : List HeaderRequest) : (s.withQueue x).now = s.now := rfl
@[simp] theorem State.withQueue_pending (s : State) (x : List HeaderRequest) : (s.withQueue x).pending = s.pending := rfl
@[simp] theorem State.withQueue_store (s : State) (x : List HeaderRequest) : (s.withQueue x).store = s.store := rfl
@[simp] theorem State.withQueue_settings (s : State) (x : List HeaderRequest) : (s.withQueue x).settings = s.settings := rfl
@[simp] theorem State.withQueue_memory (s : State) (x : List HeaderRequest) : (s.withQueue x).memory = s.memory := rfl
@[simp] theorem State.withQueue_link (s : State) (x : List HeaderRequest) : (s.withQueue x).link = s.link := rfl
@[simp] theorem State.withQueue_loads (s : State) (x : List HeaderRequest) : (s.withQueue x).loads = s.loads := rfl
@[simp] theorem State.withQueue_recipes (s : State) (x : List HeaderRequest) : (s.withQueue x).recipes = s.recipes := rfl
@[simp] theorem State.withQueue_arms (s : State) (x : List HeaderRequest) : (s.withQueue x).arms = s.arms := rfl
@[simp] theorem State.withQueue_ratios (s : State) (x : List HeaderRequest) : (s.withQueue x).ratios = s.ratios := rfl
@[simp] theorem State.withQueue_reservations (s : State) (x : List HeaderRequest) : (s.withQueue x).reservations = s.reservations := rfl
@[simp] theorem State.withQueue_queue (s : State) (x : List HeaderRequest) : (s.withQueue x).queue = x := rfl
@[simp] theorem State.withQueue_meters (s : State) (x : List HeaderRequest) : (s.withQueue x).meters = s.meters := rfl
@[simp] theorem State.withQueue_channels (s : State) (x : List HeaderRequest) : (s.withQueue x).channels = s.channels := rfl
@[simp] theorem State.withQueue_port (s : State) (x : List HeaderRequest) : (s.withQueue x).port = s.port := rfl
@[simp] theorem State.withQueue_injectors (s : State) (x : List HeaderRequest) : (s.withQueue x).injectors = s.injectors := rfl
@[simp] theorem State.withQueue_levels (s : State) (x : List HeaderRequest) : (s.withQueue x).levels = s.levels := rfl
@[simp] theorem State.withQueue_buttons (s : State) (x : List HeaderRequest) : (s.withQueue x).buttons = s.buttons := rfl
@[simp] theorem State.withQueue_alarms (s : State) (x : List HeaderRequest) : (s.withQueue x).alarms = s.alarms := rfl
@[simp] theorem State.withQueue_stationAlarms (s : State) (x : List HeaderRequest) : (s.withQueue x).stationAlarms = s.stationAlarms := rfl
@[simp] theorem State.withPort_now (s : State) (x : TempPort) : (s.withPort x).now = s.now := rfl
@[simp] theorem State.withPort_pending (s : State) (x : TempPort) : (s.withPort x).pending = s.pending := rfl
@[simp] theorem State.withPort_store (s : State) (x : TempPort) : (s.withPort x).store = s.store := rfl
@[simp] theorem State.withPort_settings (s : State) (x : TempPort) : (s.withPort x).settings = s.settings := rfl
@[simp] theorem State.withPort_memory (s : State) (x : TempPort) : (s.withPort x).memory = s.memory := rfl
@[simp] theorem State.withPort_link (s : State) (x : TempPort) : (s.withPort x).link = s.link := rfl
@[simp] theorem State.withPort_loads (s : State) (x : TempPort) : (s.withPort x).loads = s.loads := rfl
@[simp] theorem State.withPort_recipes (s : State) (x : TempPort) : (s.withPort x).recipes = s.recipes := rfl
@[simp] theorem State.withPort_arms (s : State) (x : TempPort) : (s.withPort x).arms = s.arms := rfl
@[simp] theorem State.withPort_ratios (s : State) (x : TempPort) : (s.withPort x).ratios = s.ratios := rfl
@[simp] theorem State.withPort_reservations (s : State) (x : TempPort) : (s.withPort x).reservations = s.reservations := rfl
@[simp] theorem State.withPort_queue (s : State) (x : TempPort) : (s.withPort x).queue = s.queue := rfl
@[simp] theorem State.withPort_meters (s : State) (x : TempPort) : (s.withPort x).meters = s.meters := rfl
@[simp] theorem State.withPort_channels (s : State) (x : TempPort) : (s.withPort x).channels = s.channels := rfl
@[simp] theorem State.withPort_port (s : State) (x : TempPort) : (s.withPort x).port = x := rfl
@[simp] theorem State.withPort_injectors (s : State) (x : TempPort) : (s.withPort x).injectors = s.injectors := rfl
@[simp] theorem State.withPort_levels (s : State) (x : TempPort) : (s.withPort x).levels = s.levels := rfl
@[simp] theorem State.withPort_buttons (s : State) (x : TempPort) : (s.withPort x).buttons = s.buttons := rfl
@[simp] theorem State.withPort_alarms (s : State) (x : TempPort) : (s.withPort x).alarms = s.alarms := rfl
@[simp] theorem State.withPort_stationAlarms (s : State) (x : TempPort) : (s.withPort x).stationAlarms = s.stationAlarms := rfl
@[simp] theorem State.withLevels_now (s : State) (x : PermLevels) : (s.withLevels x).now = s.now := rfl
@[simp] theorem State.withLevels_pending (s : State) (x : PermLevels) : (s.withLevels x).pending = s.pending := rfl
@[simp] theorem State.withLevels_store (s : State) (x : PermLevels) : (s.withLevels x).store = s.store := rfl
@[simp] theorem State.withLevels_settings (s : State) (x : PermLevels) : (s.withLevels x).settings = s.settings := rfl
@[simp] theorem State.withLevels_memory (s : State) (x : PermLevels) : (s.withLevels x).memory = s.memory := rfl
@[simp] theorem State.withLevels_link (s : State) (x : PermLevels) : (s.withLevels x).link = s.link := rfl
@[simp] theorem State.withLevels_loads (s : State) (x : PermLevels) : (s.withLevels x).loads = s.loads := rfl
@[simp] theorem State.withLevels_recipes (s : State) (x : PermLevels) : (s.withLevels x).recipes = s.recipes := rfl
@[simp] theorem State.withLevels_arms (s : State) (x : PermLevels) : (s.withLevels x).arms = s.arms := rfl
@[simp] theorem State.withLevels_ratios (s : State) (x : PermLevels) : (s.withLevels x).ratios = s.ratios := rfl
@[simp] theorem State.withLevels_reservations (s : State) (x : PermLevels) : (s.withLevels x).reservations = s.reservations := rfl
@[simp] theorem State.withLevels_queue (s : State) (x : PermLevels) : (s.withLevels x).queue = s.queue := rfl
@[simp] theorem State.withLevels_meters (s : State) (x : PermLevels) : (s.withLevels x).meters = s.meters := rfl
@[simp] theorem State.withLevels_channels (s : State) (x : PermLevels) : (s.withLevels x).channels = s.channels := rfl
@[simp] theorem State.withLevels_port (s : State) (x : PermLevels) : (s.withLevels x).port = s.port := rfl
@[simp] theorem State.withLevels_injectors (s : State) (x : PermLevels) : (s.withLevels x).injectors = s.injectors := rfl
@[simp] theorem State.withLevels_levels (s : State) (x : PermLevels) : (s.withLevels x).levels = x := rfl
@[simp] theorem State.withLevels_buttons (s : State) (x : PermLevels) : (s.withLevels x).buttons = s.buttons := rfl
@[simp] theorem State.withLevels_alarms (s : State) (x : PermLevels) : (s.withLevels x).alarms = s.alarms := rfl
@[simp] theorem State.withLevels_stationAlarms (s : State) (x : PermLevels) : (s.withLevels x).stationAlarms = s.stationAlarms := rfl
@[simp] theorem State.withButtons_now (s : State) (x : ButtonLevels) : (s.withButtons x).now = s.now := rfl
@[simp] theorem State.withButtons_pending (s : State) (x : ButtonLevels) : (s.withButtons x).pending = s.pending := rfl
@[simp] theorem State.withButtons_store (s : State) (x : ButtonLevels) : (s.withButtons x).store = s.store := rfl
@[simp] theorem State.withButtons_settings (s : State) (x : ButtonLevels) : (s.withButtons x).settings = s.settings := rfl
@[simp] theorem State.withButtons_memory (s : State) (x : ButtonLevels) : (s.withButtons x).memory = s.memory := rfl
@[simp] theorem State.withButtons_link (s : State) (x : ButtonLevels) : (s.withButtons x).link = s.link := rfl
@[simp] theorem State.withButtons_loads (s : State) (x : ButtonLevels) : (s.withButtons x).loads = s.loads := rfl
@[simp] theorem State.withButtons_recipes (s : State) (x : ButtonLevels) : (s.withButtons x).recipes = s.recipes := rfl
@[simp] theorem State.withButtons_arms (s : State) (x : ButtonLevels) : (s.withButtons x).arms = s.arms := rfl
@[simp] theorem State.withButtons_ratios (s : State) (x : ButtonLevels) : (s.withButtons x).ratios = s.ratios := rfl
@[simp] theorem State.withButtons_reservations (s : State) (x : ButtonLevels) : (s.withButtons x).reservations = s.reservations := rfl
@[simp] theorem State.withButtons_queue (s : State) (x : ButtonLevels) : (s.withButtons x).queue = s.queue := rfl
@[simp] theorem State.withButtons_meters (s : State) (x : ButtonLevels) : (s.withButtons x).meters = s.meters := rfl
@[simp] theorem State.withButtons_channels (s : State) (x : ButtonLevels) : (s.withButtons x).channels = s.channels := rfl
@[simp] theorem State.withButtons_port (s : State) (x : ButtonLevels) : (s.withButtons x).port = s.port := rfl
@[simp] theorem State.withButtons_injectors (s : State) (x : ButtonLevels) : (s.withButtons x).injectors = s.injectors := rfl
@[simp] theorem State.withButtons_levels (s : State) (x : ButtonLevels) : (s.withButtons x).levels = s.levels := rfl
@[simp] theorem State.withButtons_buttons (s : State) (x : ButtonLevels) : (s.withButtons x).buttons = x := rfl
@[simp] theorem State.withButtons_alarms (s : State) (x : ButtonLevels) : (s.withButtons x).alarms = s.alarms := rfl
@[simp] theorem State.withButtons_stationAlarms (s : State) (x : ButtonLevels) : (s.withButtons x).stationAlarms = s.stationAlarms := rfl
@[simp] theorem State.withStationAlarms_now (s : State) (x : List StationAlarm) : (s.withStationAlarms x).now = s.now := rfl
@[simp] theorem State.withStationAlarms_pending (s : State) (x : List StationAlarm) : (s.withStationAlarms x).pending = s.pending := rfl
@[simp] theorem State.withStationAlarms_store (s : State) (x : List StationAlarm) : (s.withStationAlarms x).store = s.store := rfl
@[simp] theorem State.withStationAlarms_settings (s : State) (x : List StationAlarm) : (s.withStationAlarms x).settings = s.settings := rfl
@[simp] theorem State.withStationAlarms_memory (s : State) (x : List StationAlarm) : (s.withStationAlarms x).memory = s.memory := rfl
@[simp] theorem State.withStationAlarms_link (s : State) (x : List StationAlarm) : (s.withStationAlarms x).link = s.link := rfl
@[simp] theorem State.withStationAlarms_loads (s : State) (x : List StationAlarm) : (s.withStationAlarms x).loads = s.loads := rfl
@[simp] theorem State.withStationAlarms_recipes (s : State) (x : List StationAlarm) : (s.withStationAlarms x).recipes = s.recipes := rfl
@[simp] theorem State.withStationAlarms_arms (s : State) (x : List StationAlarm) : (s.withStationAlarms x).arms = s.arms := rfl
@[simp] theorem State.withStationAlarms_ratios (s : State) (x : List StationAlarm) : (s.withStationAlarms x).ratios = s.ratios := rfl
@[simp] theorem State.withStationAlarms_reservations (s : State) (x : List StationAlarm) : (s.withStationAlarms x).reservations = s.reservations := rfl
@[simp] theorem State.withStationAlarms_queue (s : State) (x : List StationAlarm) : (s.withStationAlarms x).queue = s.queue := rfl
@[simp] theorem State.withStationAlarms_meters (s : State) (x : List StationAlarm) : (s.withStationAlarms x).meters = s.meters := rfl
@[simp] theorem State.withStationAlarms_channels (s : State) (x : List StationAlarm) : (s.withStationAlarms x).channels = s.channels := rfl
@[simp] theorem State.withStationAlarms_port (s : State) (x : List StationAlarm) : (s.withStationAlarms x).port = s.port := rfl
@[simp] theorem State.withStationAlarms_injectors (s : State) (x : List StationAlarm) : (s.withStationAlarms x).injectors = s.injectors := rfl
@[simp] theorem State.withStationAlarms_levels (s : State) (x : List StationAlarm) : (s.withStationAlarms x).levels = s.levels := rfl
@[simp] theorem State.withStationAlarms_buttons (s : State) (x : List StationAlarm) : (s.withStationAlarms x).buttons = s.buttons := rfl
@[simp] theorem State.withStationAlarms_alarms (s : State) (x : List StationAlarm) : (s.withStationAlarms x).alarms = s.alarms := rfl
@[simp] theorem State.withStationAlarms_stationAlarms (s : State) (x : List StationAlarm) : (s.withStationAlarms x).stationAlarms = x := rfl
@[simp] theorem State.setArm_now (s : State) (i : ArmId) (x : ArmSeq) : (s.setArm i x).now = s.now := rfl
@[simp] theorem State.setArm_pending (s : State) (i : ArmId) (x : ArmSeq) : (s.setArm i x).pending = s.pending := rfl
@[simp] theorem State.setArm_store (s : State) (i : ArmId) (x : ArmSeq) : (s.setArm i x).store = s.store := rfl
@[simp] theorem State.setArm_settings (s : State) (i : ArmId) (x : ArmSeq) : (s.setArm i x).settings = s.settings := rfl
@[simp] theorem State.setArm_memory (s : State) (i : ArmId) (x : ArmSeq) : (s.setArm i x).memory = s.memory := rfl
@[simp] theorem State.setArm_link (s : State) (i : ArmId) (x : ArmSeq) : (s.setArm i x).link = s.link := rfl
@[simp] theorem State.setArm_loads (s : State) (i : ArmId) (x : ArmSeq) : (s.setArm i x).loads = s.loads := rfl
@[simp] theorem State.setArm_recipes (s : State) (i : ArmId) (x : ArmSeq) : (s.setArm i x).recipes = s.recipes := rfl
@[simp] theorem State.setArm_ratios (s : State) (i : ArmId) (x : ArmSeq) : (s.setArm i x).ratios = s.ratios := rfl
@[simp] theorem State.setArm_reservations (s : State) (i : ArmId) (x : ArmSeq) : (s.setArm i x).reservations = s.reservations := rfl
@[simp] theorem State.setArm_queue (s : State) (i : ArmId) (x : ArmSeq) : (s.setArm i x).queue = s.queue := rfl
@[simp] theorem State.setArm_meters (s : State) (i : ArmId) (x : ArmSeq) : (s.setArm i x).meters = s.meters := rfl
@[simp] theorem State.setArm_channels (s : State) (i : ArmId) (x : ArmSeq) : (s.setArm i x).channels = s.channels := rfl
@[simp] theorem State.setArm_port (s : State) (i : ArmId) (x : ArmSeq) : (s.setArm i x).port = s.port := rfl
@[simp] theorem State.setArm_injectors (s : State) (i : ArmId) (x : ArmSeq) : (s.setArm i x).injectors = s.injectors := rfl
@[simp] theorem State.setArm_levels (s : State) (i : ArmId) (x : ArmSeq) : (s.setArm i x).levels = s.levels := rfl
@[simp] theorem State.setArm_buttons (s : State) (i : ArmId) (x : ArmSeq) : (s.setArm i x).buttons = s.buttons := rfl
@[simp] theorem State.setArm_alarms (s : State) (i : ArmId) (x : ArmSeq) : (s.setArm i x).alarms = s.alarms := rfl
@[simp] theorem State.setArm_stationAlarms (s : State) (i : ArmId) (x : ArmSeq) : (s.setArm i x).stationAlarms = s.stationAlarms := rfl
@[simp] theorem State.setRatio_now (s : State) (i : ArmId) (x : Ratio) : (s.setRatio i x).now = s.now := rfl
@[simp] theorem State.setRatio_pending (s : State) (i : ArmId) (x : Ratio) : (s.setRatio i x).pending = s.pending := rfl
@[simp] theorem State.setRatio_store (s : State) (i : ArmId) (x : Ratio) : (s.setRatio i x).store = s.store := rfl
@[simp] theorem State.setRatio_settings (s : State) (i : ArmId) (x : Ratio) : (s.setRatio i x).settings = s.settings := rfl
@[simp] theorem State.setRatio_memory (s : State) (i : ArmId) (x : Ratio) : (s.setRatio i x).memory = s.memory := rfl
@[simp] theorem State.setRatio_link (s : State) (i : ArmId) (x : Ratio) : (s.setRatio i x).link = s.link := rfl
@[simp] theorem State.setRatio_loads (s : State) (i : ArmId) (x : Ratio) : (s.setRatio i x).loads = s.loads := rfl
@[simp] theorem State.setRatio_recipes (s : State) (i : ArmId) (x : Ratio) : (s.setRatio i x).recipes = s.recipes := rfl
@[simp] theorem State.setRatio_arms (s : State) (i : ArmId) (x : Ratio) : (s.setRatio i x).arms = s.arms := rfl
@[simp] theorem State.setRatio_reservations (s : State) (i : ArmId) (x : Ratio) : (s.setRatio i x).reservations = s.reservations := rfl
@[simp] theorem State.setRatio_queue (s : State) (i : ArmId) (x : Ratio) : (s.setRatio i x).queue = s.queue := rfl
@[simp] theorem State.setRatio_meters (s : State) (i : ArmId) (x : Ratio) : (s.setRatio i x).meters = s.meters := rfl
@[simp] theorem State.setRatio_channels (s : State) (i : ArmId) (x : Ratio) : (s.setRatio i x).channels = s.channels := rfl
@[simp] theorem State.setRatio_port (s : State) (i : ArmId) (x : Ratio) : (s.setRatio i x).port = s.port := rfl
@[simp] theorem State.setRatio_injectors (s : State) (i : ArmId) (x : Ratio) : (s.setRatio i x).injectors = s.injectors := rfl
@[simp] theorem State.setRatio_levels (s : State) (i : ArmId) (x : Ratio) : (s.setRatio i x).levels = s.levels := rfl
@[simp] theorem State.setRatio_buttons (s : State) (i : ArmId) (x : Ratio) : (s.setRatio i x).buttons = s.buttons := rfl
@[simp] theorem State.setRatio_alarms (s : State) (i : ArmId) (x : Ratio) : (s.setRatio i x).alarms = s.alarms := rfl
@[simp] theorem State.setRatio_stationAlarms (s : State) (i : ArmId) (x : Ratio) : (s.setRatio i x).stationAlarms = s.stationAlarms := rfl
@[simp] theorem State.setResv_now (s : State) (i : ArmId) (x : Reservation) : (s.setResv i x).now = s.now := rfl
@[simp] theorem State.setResv_pending (s : State) (i : ArmId) (x : Reservation) : (s.setResv i x).pending = s.pending := rfl
@[simp] theorem State.setResv_store (s : State) (i : ArmId) (x : Reservation) : (s.setResv i x).store = s.store := rfl
@[simp] theorem State.setResv_settings (s : State) (i : ArmId) (x : Reservation) : (s.setResv i x).settings = s.settings := rfl
@[simp] theorem State.setResv_memory (s : State) (i : ArmId) (x : Reservation) : (s.setResv i x).memory = s.memory := rfl
@[simp] theorem State.setResv_link (s : State) (i : ArmId) (x : Reservation) : (s.setResv i x).link = s.link := rfl
@[simp] theorem State.setResv_loads (s : State) (i : ArmId) (x : Reservation) : (s.setResv i x).loads = s.loads := rfl
@[simp] theorem State.setResv_recipes (s : State) (i : ArmId) (x : Reservation) : (s.setResv i x).recipes = s.recipes := rfl
@[simp] theorem State.setResv_arms (s : State) (i : ArmId) (x : Reservation) : (s.setResv i x).arms = s.arms := rfl
@[simp] theorem State.setResv_ratios (s : State) (i : ArmId) (x : Reservation) : (s.setResv i x).ratios = s.ratios := rfl
@[simp] theorem State.setResv_queue (s : State) (i : ArmId) (x : Reservation) : (s.setResv i x).queue = s.queue := rfl
@[simp] theorem State.setResv_meters (s : State) (i : ArmId) (x : Reservation) : (s.setResv i x).meters = s.meters := rfl
@[simp] theorem State.setResv_channels (s : State) (i : ArmId) (x : Reservation) : (s.setResv i x).channels = s.channels := rfl
@[simp] theorem State.setResv_port (s : State) (i : ArmId) (x : Reservation) : (s.setResv i x).port = s.port := rfl
@[simp] theorem State.setResv_injectors (s : State) (i : ArmId) (x : Reservation) : (s.setResv i x).injectors = s.injectors := rfl
@[simp] theorem State.setResv_levels (s : State) (i : ArmId) (x : Reservation) : (s.setResv i x).levels = s.levels := rfl
@[simp] theorem State.setResv_buttons (s : State) (i : ArmId) (x : Reservation) : (s.setResv i x).buttons = s.buttons := rfl
@[simp] theorem State.setResv_alarms (s : State) (i : ArmId) (x : Reservation) : (s.setResv i x).alarms = s.alarms := rfl
@[simp] theorem State.setResv_stationAlarms (s : State) (i : ArmId) (x : Reservation) : (s.setResv i x).stationAlarms = s.stationAlarms := rfl
@[simp] theorem State.setMeter_now (s : State) (i : MeterId) (x : Meter) : (s.setMeter i x).now = s.now := rfl
@[simp] theorem State.setMeter_pending (s : State) (i : MeterId) (x : Meter) : (s.setMeter i x).pending = s.pending := rfl
@[simp] theorem State.setMeter_store (s : State) (i : MeterId) (x : Meter) : (s.setMeter i x).store = s.store := rfl
@[simp] theorem State.setMeter_settings (s : State) (i : MeterId) (x : Meter) : (s.setMeter i x).settings = s.settings := rfl
@[simp] theorem State.setMeter_memory (s : State) (i : MeterId) (x : Meter) : (s.setMeter i x).memory = s.memory := rfl
@[simp] theorem State.setMeter_link (s : State) (i : MeterId) (x : Meter) : (s.setMeter i x).link = s.link := rfl
@[simp] theorem State.setMeter_loads (s : State) (i : MeterId) (x : Meter) : (s.setMeter i x).loads = s.loads := rfl
@[simp] theorem State.setMeter_recipes (s : State) (i : MeterId) (x : Meter) : (s.setMeter i x).recipes = s.recipes := rfl
@[simp] theorem State.setMeter_arms (s : State) (i : MeterId) (x : Meter) : (s.setMeter i x).arms = s.arms := rfl
@[simp] theorem State.setMeter_ratios (s : State) (i : MeterId) (x : Meter) : (s.setMeter i x).ratios = s.ratios := rfl
@[simp] theorem State.setMeter_reservations (s : State) (i : MeterId) (x : Meter) : (s.setMeter i x).reservations = s.reservations := rfl
@[simp] theorem State.setMeter_queue (s : State) (i : MeterId) (x : Meter) : (s.setMeter i x).queue = s.queue := rfl
@[simp] theorem State.setMeter_channels (s : State) (i : MeterId) (x : Meter) : (s.setMeter i x).channels = s.channels := rfl
@[simp] theorem State.setMeter_port (s : State) (i : MeterId) (x : Meter) : (s.setMeter i x).port = s.port := rfl
@[simp] theorem State.setMeter_injectors (s : State) (i : MeterId) (x : Meter) : (s.setMeter i x).injectors = s.injectors := rfl
@[simp] theorem State.setMeter_levels (s : State) (i : MeterId) (x : Meter) : (s.setMeter i x).levels = s.levels := rfl
@[simp] theorem State.setMeter_buttons (s : State) (i : MeterId) (x : Meter) : (s.setMeter i x).buttons = s.buttons := rfl
@[simp] theorem State.setMeter_alarms (s : State) (i : MeterId) (x : Meter) : (s.setMeter i x).alarms = s.alarms := rfl
@[simp] theorem State.setMeter_stationAlarms (s : State) (i : MeterId) (x : Meter) : (s.setMeter i x).stationAlarms = s.stationAlarms := rfl
@[simp] theorem State.setChannel_now (s : State) (i : MeterId) (x : TempChannel) : (s.setChannel i x).now = s.now := rfl
@[simp] theorem State.setChannel_pending (s : State) (i : MeterId) (x : TempChannel) : (s.setChannel i x).pending = s.pending := rfl
@[simp] theorem State.setChannel_store (s : State) (i : MeterId) (x : TempChannel) : (s.setChannel i x).store = s.store := rfl
@[simp] theorem State.setChannel_settings (s : State) (i : MeterId) (x : TempChannel) : (s.setChannel i x).settings = s.settings := rfl
@[simp] theorem State.setChannel_memory (s : State) (i : MeterId) (x : TempChannel) : (s.setChannel i x).memory = s.memory := rfl
@[simp] theorem State.setChannel_link (s : State) (i : MeterId) (x : TempChannel) : (s.setChannel i x).link = s.link := rfl
@[simp] theorem State.setChannel_loads (s : State) (i : MeterId) (x : TempChannel) : (s.setChannel i x).loads = s.loads := rfl
@[simp] theorem State.setChannel_recipes (s : State) (i : MeterId) (x : TempChannel) : (s.setChannel i x).recipes = s.recipes := rfl
@[simp] theorem State.setChannel_arms (s : State) (i : MeterId) (x : TempChannel) : (s.setChannel i x).arms = s.arms := rfl
@[simp] theorem State.setChannel_ratios (s : State) (i : MeterId) (x : TempChannel) : (s.setChannel i x).ratios = s.ratios := rfl
@[simp] theorem State.setChannel_reservations (s : State) (i : MeterId) (x : TempChannel) : (s.setChannel i x).reservations = s.reservations := rfl
@[simp] theorem State.setChannel_queue (s : State) (i : MeterId) (x : TempChannel) : (s.setChannel i x).queue = s.queue := rfl
@[simp] theorem State.setChannel_meters (s : State) (i : MeterId) (x : TempChannel) : (s.setChannel i x).meters = s.meters := rfl
@[simp] theorem State.setChannel_port (s : State) (i : MeterId) (x : TempChannel) : (s.setChannel i x).port = s.port := rfl
@[simp] theorem State.setChannel_injectors (s : State) (i : MeterId) (x : TempChannel) : (s.setChannel i x).injectors = s.injectors := rfl
@[simp] theorem State.setChannel_levels (s : State) (i : MeterId) (x : TempChannel) : (s.setChannel i x).levels = s.levels := rfl
@[simp] theorem State.setChannel_buttons (s : State) (i : MeterId) (x : TempChannel) : (s.setChannel i x).buttons = s.buttons := rfl
@[simp] theorem State.setChannel_alarms (s : State) (i : MeterId) (x : TempChannel) : (s.setChannel i x).alarms = s.alarms := rfl
@[simp] theorem State.setChannel_stationAlarms (s : State) (i : MeterId) (x : TempChannel) : (s.setChannel i x).stationAlarms = s.stationAlarms := rfl
@[simp] theorem State.setInjector_now (s : State) (i : InjId) (x : Injector) : (s.setInjector i x).now = s.now := rfl
@[simp] theorem State.setInjector_pending (s : State) (i : InjId) (x : Injector) : (s.setInjector i x).pending = s.pending := rfl
@[simp] theorem State.setInjector_store (s : State) (i : InjId) (x : Injector) : (s.setInjector i x).store = s.store := rfl
@[simp] theorem State.setInjector_settings (s : State) (i : InjId) (x : Injector) : (s.setInjector i x).settings = s.settings := rfl
@[simp] theorem State.setInjector_memory (s : State) (i : InjId) (x : Injector) : (s.setInjector i x).memory = s.memory := rfl
@[simp] theorem State.setInjector_link (s : State) (i : InjId) (x : Injector) : (s.setInjector i x).link = s.link := rfl
@[simp] theorem State.setInjector_loads (s : State) (i : InjId) (x : Injector) : (s.setInjector i x).loads = s.loads := rfl
@[simp] theorem State.setInjector_recipes (s : State) (i : InjId) (x : Injector) : (s.setInjector i x).recipes = s.recipes := rfl
@[simp] theorem State.setInjector_arms (s : State) (i : InjId) (x : Injector) : (s.setInjector i x).arms = s.arms := rfl
@[simp] theorem State.setInjector_ratios (s : State) (i : InjId) (x : Injector) : (s.setInjector i x).ratios = s.ratios := rfl
@[simp] theorem State.setInjector_reservations (s : State) (i : InjId) (x : Injector) : (s.setInjector i x).reservations = s.reservations := rfl
@[simp] theorem State.setInjector_queue (s : State) (i : InjId) (x : Injector) : (s.setInjector i x).queue = s.queue := rfl
@[simp] theorem State.setInjector_meters (s : State) (i : InjId) (x : Injector) : (s.setInjector i x).meters = s.meters := rfl
@[simp] theorem State.setInjector_channels (s : State) (i : InjId) (x : Injector) : (s.setInjector i x).channels = s.channels := rfl
@[simp] theorem State.setInjector_port (s : State) (i : InjId) (x : Injector) : (s.setInjector i x).port = s.port := rfl
@[simp] theorem State.setInjector_levels (s : State) (i : InjId) (x : Injector) : (s.setInjector i x).levels = s.levels := rfl
@[simp] theorem State.setInjector_buttons (s : State) (i : InjId) (x : Injector) : (s.setInjector i x).buttons = s.buttons := rfl
@[simp] theorem State.setInjector_alarms (s : State) (i : InjId) (x : Injector) : (s.setInjector i x).alarms = s.alarms := rfl
@[simp] theorem State.setInjector_stationAlarms (s : State) (i : InjId) (x : Injector) : (s.setInjector i x).stationAlarms = s.stationAlarms := rfl
@[simp] theorem State.setAlarm_now (s : State) (i : ArmId) (x : ArmAlarms) : (s.setAlarm i x).now = s.now := rfl
@[simp] theorem State.setAlarm_pending (s : State) (i : ArmId) (x : ArmAlarms) : (s.setAlarm i x).pending = s.pending := rfl
@[simp] theorem State.setAlarm_store (s : State) (i : ArmId) (x : ArmAlarms) : (s.setAlarm i x).store = s.store := rfl
@[simp] theorem State.setAlarm_settings (s : State) (i : ArmId) (x : ArmAlarms) : (s.setAlarm i x).settings = s.settings := rfl
@[simp] theorem State.setAlarm_memory (s : State) (i : ArmId) (x : ArmAlarms) : (s.setAlarm i x).memory = s.memory := rfl
@[simp] theorem State.setAlarm_link (s : State) (i : ArmId) (x : ArmAlarms) : (s.setAlarm i x).link = s.link := rfl
@[simp] theorem State.setAlarm_loads (s : State) (i : ArmId) (x : ArmAlarms) : (s.setAlarm i x).loads = s.loads := rfl
@[simp] theorem State.setAlarm_recipes (s : State) (i : ArmId) (x : ArmAlarms) : (s.setAlarm i x).recipes = s.recipes := rfl
@[simp] theorem State.setAlarm_arms (s : State) (i : ArmId) (x : ArmAlarms) : (s.setAlarm i x).arms = s.arms := rfl
@[simp] theorem State.setAlarm_ratios (s : State) (i : ArmId) (x : ArmAlarms) : (s.setAlarm i x).ratios = s.ratios := rfl
@[simp] theorem State.setAlarm_reservations (s : State) (i : ArmId) (x : ArmAlarms) : (s.setAlarm i x).reservations = s.reservations := rfl
@[simp] theorem State.setAlarm_queue (s : State) (i : ArmId) (x : ArmAlarms) : (s.setAlarm i x).queue = s.queue := rfl
@[simp] theorem State.setAlarm_meters (s : State) (i : ArmId) (x : ArmAlarms) : (s.setAlarm i x).meters = s.meters := rfl
@[simp] theorem State.setAlarm_channels (s : State) (i : ArmId) (x : ArmAlarms) : (s.setAlarm i x).channels = s.channels := rfl
@[simp] theorem State.setAlarm_port (s : State) (i : ArmId) (x : ArmAlarms) : (s.setAlarm i x).port = s.port := rfl
@[simp] theorem State.setAlarm_injectors (s : State) (i : ArmId) (x : ArmAlarms) : (s.setAlarm i x).injectors = s.injectors := rfl
@[simp] theorem State.setAlarm_levels (s : State) (i : ArmId) (x : ArmAlarms) : (s.setAlarm i x).levels = s.levels := rfl
@[simp] theorem State.setAlarm_buttons (s : State) (i : ArmId) (x : ArmAlarms) : (s.setAlarm i x).buttons = s.buttons := rfl
@[simp] theorem State.setAlarm_stationAlarms (s : State) (i : ArmId) (x : ArmAlarms) : (s.setAlarm i x).stationAlarms = s.stationAlarms := rfl
@[simp] theorem State.setArm_arm_self (s : State) (i : ArmId) (x : ArmSeq) : (s.setArm i x).arm i = x := by simp [State.setArm, State.arm]
theorem State.setArm_arm_ne (s : State) (i j : ArmId) (x : ArmSeq) (h : j ≠ i) : (s.setArm i x).arm j = s.arm j := by
  have h' : (i : Nat) ≠ j := fun e => h (Fin.ext e.symm)
  simp [State.setArm, State.arm, Vector.getElem_set_ne, h']
theorem State.setArm_arm (s : State) (i j : ArmId) (x : ArmSeq) : (s.setArm i x).arm j = if j = i then x else s.arm j := by
  split
  · subst_vars; simp
  · exact State.setArm_arm_ne s i j x ‹_›
@[simp] theorem State.setRatio_arm (s : State) (i : ArmId) (x : Ratio) (j : ArmId) : (s.setRatio i x).arm j = s.arm j := rfl
@[simp] theorem State.setResv_arm (s : State) (i : ArmId) (x : Reservation) (j : ArmId) : (s.setResv i x).arm j = s.arm j := rfl
@[simp] theorem State.setMeter_arm (s : State) (i : MeterId) (x : Meter) (j : ArmId) : (s.setMeter i x).arm j = s.arm j := rfl
@[simp] theorem State.setChannel_arm (s : State) (i : MeterId) (x : TempChannel) (j : ArmId) : (s.setChannel i x).arm j = s.arm j := rfl
@[simp] theorem State.setInjector_arm (s : State) (i : InjId) (x : Injector) (j : ArmId) : (s.setInjector i x).arm j = s.arm j := rfl
@[simp] theorem State.setAlarm_arm (s : State) (i : ArmId) (x : ArmAlarms) (j : ArmId) : (s.setAlarm i x).arm j = s.arm j := rfl
@[simp] theorem State.withNow_arm (s : State) (x : Nat) (j : ArmId) : (s.withNow x).arm j = s.arm j := rfl
@[simp] theorem State.withPending_arm (s : State) (x : List Instr) (j : ArmId) : (s.withPending x).arm j = s.arm j := rfl
@[simp] theorem State.withStore_arm (s : State) (x : Store) (j : ArmId) : (s.withStore x).arm j = s.arm j := rfl
@[simp] theorem State.withSettings_arm (s : State) (x : Settings) (j : ArmId) : (s.withSettings x).arm j = s.arm j := rfl
@[simp] theorem State.withMemory_arm (s : State) (x : Memory) (j : ArmId) : (s.withMemory x).arm j = s.arm j := rfl
@[simp] theorem State.withLink_arm (s : State) (x : Link) (j : ArmId) : (s.withLink x).arm j = s.arm j := rfl
@[simp] theorem State.withLoads_arm (s : State) (x : List Load) (j : ArmId) : (s.withLoads x).arm j = s.arm j := rfl
@[simp] theorem State.withRecipes_arm (s : State) (x : List Recipe) (j : ArmId) : (s.withRecipes x).arm j = s.arm j := rfl
@[simp] theorem State.withQueue_arm (s : State) (x : List HeaderRequest) (j : ArmId) : (s.withQueue x).arm j = s.arm j := rfl
@[simp] theorem State.withPort_arm (s : State) (x : TempPort) (j : ArmId) : (s.withPort x).arm j = s.arm j := rfl
@[simp] theorem State.withLevels_arm (s : State) (x : PermLevels) (j : ArmId) : (s.withLevels x).arm j = s.arm j := rfl
@[simp] theorem State.withButtons_arm (s : State) (x : ButtonLevels) (j : ArmId) : (s.withButtons x).arm j = s.arm j := rfl
@[simp] theorem State.withStationAlarms_arm (s : State) (x : List StationAlarm) (j : ArmId) : (s.withStationAlarms x).arm j = s.arm j := rfl
@[simp] theorem State.setRatio_ratio_self (s : State) (i : ArmId) (x : Ratio) : (s.setRatio i x).ratio i = x := by simp [State.setRatio, State.ratio]
theorem State.setRatio_ratio_ne (s : State) (i j : ArmId) (x : Ratio) (h : j ≠ i) : (s.setRatio i x).ratio j = s.ratio j := by
  have h' : (i : Nat) ≠ j := fun e => h (Fin.ext e.symm)
  simp [State.setRatio, State.ratio, Vector.getElem_set_ne, h']
theorem State.setRatio_ratio (s : State) (i j : ArmId) (x : Ratio) : (s.setRatio i x).ratio j = if j = i then x else s.ratio j := by
  split
  · subst_vars; simp
  · exact State.setRatio_ratio_ne s i j x ‹_›
@[simp] theorem State.setArm_ratio (s : State) (i : ArmId) (x : ArmSeq) (j : ArmId) : (s.setArm i x).ratio j = s.ratio j := rfl
@[simp] theorem State.setResv_ratio (s : State) (i : ArmId) (x : Reservation) (j : ArmId) : (s.setResv i x).ratio j = s.ratio j := rfl
@[simp] theorem State.setMeter_ratio (s : State) (i : MeterId) (x : Meter) (j : ArmId) : (s.setMeter i x).ratio j = s.ratio j := rfl
@[simp] theorem State.setChannel_ratio (s : State) (i : MeterId) (x : TempChannel) (j : ArmId) : (s.setChannel i x).ratio j = s.ratio j := rfl
@[simp] theorem State.setInjector_ratio (s : State) (i : InjId) (x : Injector) (j : ArmId) : (s.setInjector i x).ratio j = s.ratio j := rfl
@[simp] theorem State.setAlarm_ratio (s : State) (i : ArmId) (x : ArmAlarms) (j : ArmId) : (s.setAlarm i x).ratio j = s.ratio j := rfl
@[simp] theorem State.withNow_ratio (s : State) (x : Nat) (j : ArmId) : (s.withNow x).ratio j = s.ratio j := rfl
@[simp] theorem State.withPending_ratio (s : State) (x : List Instr) (j : ArmId) : (s.withPending x).ratio j = s.ratio j := rfl
@[simp] theorem State.withStore_ratio (s : State) (x : Store) (j : ArmId) : (s.withStore x).ratio j = s.ratio j := rfl
@[simp] theorem State.withSettings_ratio (s : State) (x : Settings) (j : ArmId) : (s.withSettings x).ratio j = s.ratio j := rfl
@[simp] theorem State.withMemory_ratio (s : State) (x : Memory) (j : ArmId) : (s.withMemory x).ratio j = s.ratio j := rfl
@[simp] theorem State.withLink_ratio (s : State) (x : Link) (j : ArmId) : (s.withLink x).ratio j = s.ratio j := rfl
@[simp] theorem State.withLoads_ratio (s : State) (x : List Load) (j : ArmId) : (s.withLoads x).ratio j = s.ratio j := rfl
@[simp] theorem State.withRecipes_ratio (s : State) (x : List Recipe) (j : ArmId) : (s.withRecipes x).ratio j = s.ratio j := rfl
@[simp] theorem State.withQueue_ratio (s : State) (x : List HeaderRequest) (j : ArmId) : (s.withQueue x).ratio j = s.ratio j := rfl
@[simp] theorem State.withPort_ratio (s : State) (x : TempPort) (j : ArmId) : (s.withPort x).ratio j = s.ratio j := rfl
@[simp] theorem State.withLevels_ratio (s : State) (x : PermLevels) (j : ArmId) : (s.withLevels x).ratio j = s.ratio j := rfl
@[simp] theorem State.withButtons_ratio (s : State) (x : ButtonLevels) (j : ArmId) : (s.withButtons x).ratio j = s.ratio j := rfl
@[simp] theorem State.withStationAlarms_ratio (s : State) (x : List StationAlarm) (j : ArmId) : (s.withStationAlarms x).ratio j = s.ratio j := rfl
@[simp] theorem State.setResv_resv_self (s : State) (i : ArmId) (x : Reservation) : (s.setResv i x).resv i = x := by simp [State.setResv, State.resv]
theorem State.setResv_resv_ne (s : State) (i j : ArmId) (x : Reservation) (h : j ≠ i) : (s.setResv i x).resv j = s.resv j := by
  have h' : (i : Nat) ≠ j := fun e => h (Fin.ext e.symm)
  simp [State.setResv, State.resv, Vector.getElem_set_ne, h']
theorem State.setResv_resv (s : State) (i j : ArmId) (x : Reservation) : (s.setResv i x).resv j = if j = i then x else s.resv j := by
  split
  · subst_vars; simp
  · exact State.setResv_resv_ne s i j x ‹_›
@[simp] theorem State.setArm_resv (s : State) (i : ArmId) (x : ArmSeq) (j : ArmId) : (s.setArm i x).resv j = s.resv j := rfl
@[simp] theorem State.setRatio_resv (s : State) (i : ArmId) (x : Ratio) (j : ArmId) : (s.setRatio i x).resv j = s.resv j := rfl
@[simp] theorem State.setMeter_resv (s : State) (i : MeterId) (x : Meter) (j : ArmId) : (s.setMeter i x).resv j = s.resv j := rfl
@[simp] theorem State.setChannel_resv (s : State) (i : MeterId) (x : TempChannel) (j : ArmId) : (s.setChannel i x).resv j = s.resv j := rfl
@[simp] theorem State.setInjector_resv (s : State) (i : InjId) (x : Injector) (j : ArmId) : (s.setInjector i x).resv j = s.resv j := rfl
@[simp] theorem State.setAlarm_resv (s : State) (i : ArmId) (x : ArmAlarms) (j : ArmId) : (s.setAlarm i x).resv j = s.resv j := rfl
@[simp] theorem State.withNow_resv (s : State) (x : Nat) (j : ArmId) : (s.withNow x).resv j = s.resv j := rfl
@[simp] theorem State.withPending_resv (s : State) (x : List Instr) (j : ArmId) : (s.withPending x).resv j = s.resv j := rfl
@[simp] theorem State.withStore_resv (s : State) (x : Store) (j : ArmId) : (s.withStore x).resv j = s.resv j := rfl
@[simp] theorem State.withSettings_resv (s : State) (x : Settings) (j : ArmId) : (s.withSettings x).resv j = s.resv j := rfl
@[simp] theorem State.withMemory_resv (s : State) (x : Memory) (j : ArmId) : (s.withMemory x).resv j = s.resv j := rfl
@[simp] theorem State.withLink_resv (s : State) (x : Link) (j : ArmId) : (s.withLink x).resv j = s.resv j := rfl
@[simp] theorem State.withLoads_resv (s : State) (x : List Load) (j : ArmId) : (s.withLoads x).resv j = s.resv j := rfl
@[simp] theorem State.withRecipes_resv (s : State) (x : List Recipe) (j : ArmId) : (s.withRecipes x).resv j = s.resv j := rfl
@[simp] theorem State.withQueue_resv (s : State) (x : List HeaderRequest) (j : ArmId) : (s.withQueue x).resv j = s.resv j := rfl
@[simp] theorem State.withPort_resv (s : State) (x : TempPort) (j : ArmId) : (s.withPort x).resv j = s.resv j := rfl
@[simp] theorem State.withLevels_resv (s : State) (x : PermLevels) (j : ArmId) : (s.withLevels x).resv j = s.resv j := rfl
@[simp] theorem State.withButtons_resv (s : State) (x : ButtonLevels) (j : ArmId) : (s.withButtons x).resv j = s.resv j := rfl
@[simp] theorem State.withStationAlarms_resv (s : State) (x : List StationAlarm) (j : ArmId) : (s.withStationAlarms x).resv j = s.resv j := rfl
@[simp] theorem State.setMeter_meter_self (s : State) (i : MeterId) (x : Meter) : (s.setMeter i x).meter i = x := by simp [State.setMeter, State.meter]
theorem State.setMeter_meter_ne (s : State) (i j : MeterId) (x : Meter) (h : j ≠ i) : (s.setMeter i x).meter j = s.meter j := by
  have h' : (i : Nat) ≠ j := fun e => h (Fin.ext e.symm)
  simp [State.setMeter, State.meter, Vector.getElem_set_ne, h']
theorem State.setMeter_meter (s : State) (i j : MeterId) (x : Meter) : (s.setMeter i x).meter j = if j = i then x else s.meter j := by
  split
  · subst_vars; simp
  · exact State.setMeter_meter_ne s i j x ‹_›
@[simp] theorem State.setArm_meter (s : State) (i : ArmId) (x : ArmSeq) (j : MeterId) : (s.setArm i x).meter j = s.meter j := rfl
@[simp] theorem State.setRatio_meter (s : State) (i : ArmId) (x : Ratio) (j : MeterId) : (s.setRatio i x).meter j = s.meter j := rfl
@[simp] theorem State.setResv_meter (s : State) (i : ArmId) (x : Reservation) (j : MeterId) : (s.setResv i x).meter j = s.meter j := rfl
@[simp] theorem State.setChannel_meter (s : State) (i : MeterId) (x : TempChannel) (j : MeterId) : (s.setChannel i x).meter j = s.meter j := rfl
@[simp] theorem State.setInjector_meter (s : State) (i : InjId) (x : Injector) (j : MeterId) : (s.setInjector i x).meter j = s.meter j := rfl
@[simp] theorem State.setAlarm_meter (s : State) (i : ArmId) (x : ArmAlarms) (j : MeterId) : (s.setAlarm i x).meter j = s.meter j := rfl
@[simp] theorem State.withNow_meter (s : State) (x : Nat) (j : MeterId) : (s.withNow x).meter j = s.meter j := rfl
@[simp] theorem State.withPending_meter (s : State) (x : List Instr) (j : MeterId) : (s.withPending x).meter j = s.meter j := rfl
@[simp] theorem State.withStore_meter (s : State) (x : Store) (j : MeterId) : (s.withStore x).meter j = s.meter j := rfl
@[simp] theorem State.withSettings_meter (s : State) (x : Settings) (j : MeterId) : (s.withSettings x).meter j = s.meter j := rfl
@[simp] theorem State.withMemory_meter (s : State) (x : Memory) (j : MeterId) : (s.withMemory x).meter j = s.meter j := rfl
@[simp] theorem State.withLink_meter (s : State) (x : Link) (j : MeterId) : (s.withLink x).meter j = s.meter j := rfl
@[simp] theorem State.withLoads_meter (s : State) (x : List Load) (j : MeterId) : (s.withLoads x).meter j = s.meter j := rfl
@[simp] theorem State.withRecipes_meter (s : State) (x : List Recipe) (j : MeterId) : (s.withRecipes x).meter j = s.meter j := rfl
@[simp] theorem State.withQueue_meter (s : State) (x : List HeaderRequest) (j : MeterId) : (s.withQueue x).meter j = s.meter j := rfl
@[simp] theorem State.withPort_meter (s : State) (x : TempPort) (j : MeterId) : (s.withPort x).meter j = s.meter j := rfl
@[simp] theorem State.withLevels_meter (s : State) (x : PermLevels) (j : MeterId) : (s.withLevels x).meter j = s.meter j := rfl
@[simp] theorem State.withButtons_meter (s : State) (x : ButtonLevels) (j : MeterId) : (s.withButtons x).meter j = s.meter j := rfl
@[simp] theorem State.withStationAlarms_meter (s : State) (x : List StationAlarm) (j : MeterId) : (s.withStationAlarms x).meter j = s.meter j := rfl
@[simp] theorem State.setChannel_channel_self (s : State) (i : MeterId) (x : TempChannel) : (s.setChannel i x).channel i = x := by simp [State.setChannel, State.channel]
theorem State.setChannel_channel_ne (s : State) (i j : MeterId) (x : TempChannel) (h : j ≠ i) : (s.setChannel i x).channel j = s.channel j := by
  have h' : (i : Nat) ≠ j := fun e => h (Fin.ext e.symm)
  simp [State.setChannel, State.channel, Vector.getElem_set_ne, h']
theorem State.setChannel_channel (s : State) (i j : MeterId) (x : TempChannel) : (s.setChannel i x).channel j = if j = i then x else s.channel j := by
  split
  · subst_vars; simp
  · exact State.setChannel_channel_ne s i j x ‹_›
@[simp] theorem State.setArm_channel (s : State) (i : ArmId) (x : ArmSeq) (j : MeterId) : (s.setArm i x).channel j = s.channel j := rfl
@[simp] theorem State.setRatio_channel (s : State) (i : ArmId) (x : Ratio) (j : MeterId) : (s.setRatio i x).channel j = s.channel j := rfl
@[simp] theorem State.setResv_channel (s : State) (i : ArmId) (x : Reservation) (j : MeterId) : (s.setResv i x).channel j = s.channel j := rfl
@[simp] theorem State.setMeter_channel (s : State) (i : MeterId) (x : Meter) (j : MeterId) : (s.setMeter i x).channel j = s.channel j := rfl
@[simp] theorem State.setInjector_channel (s : State) (i : InjId) (x : Injector) (j : MeterId) : (s.setInjector i x).channel j = s.channel j := rfl
@[simp] theorem State.setAlarm_channel (s : State) (i : ArmId) (x : ArmAlarms) (j : MeterId) : (s.setAlarm i x).channel j = s.channel j := rfl
@[simp] theorem State.withNow_channel (s : State) (x : Nat) (j : MeterId) : (s.withNow x).channel j = s.channel j := rfl
@[simp] theorem State.withPending_channel (s : State) (x : List Instr) (j : MeterId) : (s.withPending x).channel j = s.channel j := rfl
@[simp] theorem State.withStore_channel (s : State) (x : Store) (j : MeterId) : (s.withStore x).channel j = s.channel j := rfl
@[simp] theorem State.withSettings_channel (s : State) (x : Settings) (j : MeterId) : (s.withSettings x).channel j = s.channel j := rfl
@[simp] theorem State.withMemory_channel (s : State) (x : Memory) (j : MeterId) : (s.withMemory x).channel j = s.channel j := rfl
@[simp] theorem State.withLink_channel (s : State) (x : Link) (j : MeterId) : (s.withLink x).channel j = s.channel j := rfl
@[simp] theorem State.withLoads_channel (s : State) (x : List Load) (j : MeterId) : (s.withLoads x).channel j = s.channel j := rfl
@[simp] theorem State.withRecipes_channel (s : State) (x : List Recipe) (j : MeterId) : (s.withRecipes x).channel j = s.channel j := rfl
@[simp] theorem State.withQueue_channel (s : State) (x : List HeaderRequest) (j : MeterId) : (s.withQueue x).channel j = s.channel j := rfl
@[simp] theorem State.withPort_channel (s : State) (x : TempPort) (j : MeterId) : (s.withPort x).channel j = s.channel j := rfl
@[simp] theorem State.withLevels_channel (s : State) (x : PermLevels) (j : MeterId) : (s.withLevels x).channel j = s.channel j := rfl
@[simp] theorem State.withButtons_channel (s : State) (x : ButtonLevels) (j : MeterId) : (s.withButtons x).channel j = s.channel j := rfl
@[simp] theorem State.withStationAlarms_channel (s : State) (x : List StationAlarm) (j : MeterId) : (s.withStationAlarms x).channel j = s.channel j := rfl
@[simp] theorem State.setInjector_injector_self (s : State) (i : InjId) (x : Injector) : (s.setInjector i x).injector i = x := by simp [State.setInjector, State.injector]
theorem State.setInjector_injector_ne (s : State) (i j : InjId) (x : Injector) (h : j ≠ i) : (s.setInjector i x).injector j = s.injector j := by
  have h' : (i : Nat) ≠ j := fun e => h (Fin.ext e.symm)
  simp [State.setInjector, State.injector, Vector.getElem_set_ne, h']
theorem State.setInjector_injector (s : State) (i j : InjId) (x : Injector) : (s.setInjector i x).injector j = if j = i then x else s.injector j := by
  split
  · subst_vars; simp
  · exact State.setInjector_injector_ne s i j x ‹_›
@[simp] theorem State.setArm_injector (s : State) (i : ArmId) (x : ArmSeq) (j : InjId) : (s.setArm i x).injector j = s.injector j := rfl
@[simp] theorem State.setRatio_injector (s : State) (i : ArmId) (x : Ratio) (j : InjId) : (s.setRatio i x).injector j = s.injector j := rfl
@[simp] theorem State.setResv_injector (s : State) (i : ArmId) (x : Reservation) (j : InjId) : (s.setResv i x).injector j = s.injector j := rfl
@[simp] theorem State.setMeter_injector (s : State) (i : MeterId) (x : Meter) (j : InjId) : (s.setMeter i x).injector j = s.injector j := rfl
@[simp] theorem State.setChannel_injector (s : State) (i : MeterId) (x : TempChannel) (j : InjId) : (s.setChannel i x).injector j = s.injector j := rfl
@[simp] theorem State.setAlarm_injector (s : State) (i : ArmId) (x : ArmAlarms) (j : InjId) : (s.setAlarm i x).injector j = s.injector j := rfl
@[simp] theorem State.withNow_injector (s : State) (x : Nat) (j : InjId) : (s.withNow x).injector j = s.injector j := rfl
@[simp] theorem State.withPending_injector (s : State) (x : List Instr) (j : InjId) : (s.withPending x).injector j = s.injector j := rfl
@[simp] theorem State.withStore_injector (s : State) (x : Store) (j : InjId) : (s.withStore x).injector j = s.injector j := rfl
@[simp] theorem State.withSettings_injector (s : State) (x : Settings) (j : InjId) : (s.withSettings x).injector j = s.injector j := rfl
@[simp] theorem State.withMemory_injector (s : State) (x : Memory) (j : InjId) : (s.withMemory x).injector j = s.injector j := rfl
@[simp] theorem State.withLink_injector (s : State) (x : Link) (j : InjId) : (s.withLink x).injector j = s.injector j := rfl
@[simp] theorem State.withLoads_injector (s : State) (x : List Load) (j : InjId) : (s.withLoads x).injector j = s.injector j := rfl
@[simp] theorem State.withRecipes_injector (s : State) (x : List Recipe) (j : InjId) : (s.withRecipes x).injector j = s.injector j := rfl
@[simp] theorem State.withQueue_injector (s : State) (x : List HeaderRequest) (j : InjId) : (s.withQueue x).injector j = s.injector j := rfl
@[simp] theorem State.withPort_injector (s : State) (x : TempPort) (j : InjId) : (s.withPort x).injector j = s.injector j := rfl
@[simp] theorem State.withLevels_injector (s : State) (x : PermLevels) (j : InjId) : (s.withLevels x).injector j = s.injector j := rfl
@[simp] theorem State.withButtons_injector (s : State) (x : ButtonLevels) (j : InjId) : (s.withButtons x).injector j = s.injector j := rfl
@[simp] theorem State.withStationAlarms_injector (s : State) (x : List StationAlarm) (j : InjId) : (s.withStationAlarms x).injector j = s.injector j := rfl
@[simp] theorem State.setAlarm_alarm_self (s : State) (i : ArmId) (x : ArmAlarms) : (s.setAlarm i x).alarm i = x := by simp [State.setAlarm, State.alarm]
theorem State.setAlarm_alarm_ne (s : State) (i j : ArmId) (x : ArmAlarms) (h : j ≠ i) : (s.setAlarm i x).alarm j = s.alarm j := by
  have h' : (i : Nat) ≠ j := fun e => h (Fin.ext e.symm)
  simp [State.setAlarm, State.alarm, Vector.getElem_set_ne, h']
theorem State.setAlarm_alarm (s : State) (i j : ArmId) (x : ArmAlarms) : (s.setAlarm i x).alarm j = if j = i then x else s.alarm j := by
  split
  · subst_vars; simp
  · exact State.setAlarm_alarm_ne s i j x ‹_›
@[simp] theorem State.setArm_alarm (s : State) (i : ArmId) (x : ArmSeq) (j : ArmId) : (s.setArm i x).alarm j = s.alarm j := rfl
@[simp] theorem State.setRatio_alarm (s : State) (i : ArmId) (x : Ratio) (j : ArmId) : (s.setRatio i x).alarm j = s.alarm j := rfl
@[simp] theorem State.setResv_alarm (s : State) (i : ArmId) (x : Reservation) (j : ArmId) : (s.setResv i x).alarm j = s.alarm j := rfl
@[simp] theorem State.setMeter_alarm (s : State) (i : MeterId) (x : Meter) (j : ArmId) : (s.setMeter i x).alarm j = s.alarm j := rfl
@[simp] theorem State.setChannel_alarm (s : State) (i : MeterId) (x : TempChannel) (j : ArmId) : (s.setChannel i x).alarm j = s.alarm j := rfl
@[simp] theorem State.setInjector_alarm (s : State) (i : InjId) (x : Injector) (j : ArmId) : (s.setInjector i x).alarm j = s.alarm j := rfl
@[simp] theorem State.withNow_alarm (s : State) (x : Nat) (j : ArmId) : (s.withNow x).alarm j = s.alarm j := rfl
@[simp] theorem State.withPending_alarm (s : State) (x : List Instr) (j : ArmId) : (s.withPending x).alarm j = s.alarm j := rfl
@[simp] theorem State.withStore_alarm (s : State) (x : Store) (j : ArmId) : (s.withStore x).alarm j = s.alarm j := rfl
@[simp] theorem State.withSettings_alarm (s : State) (x : Settings) (j : ArmId) : (s.withSettings x).alarm j = s.alarm j := rfl
@[simp] theorem State.withMemory_alarm (s : State) (x : Memory) (j : ArmId) : (s.withMemory x).alarm j = s.alarm j := rfl
@[simp] theorem State.withLink_alarm (s : State) (x : Link) (j : ArmId) : (s.withLink x).alarm j = s.alarm j := rfl
@[simp] theorem State.withLoads_alarm (s : State) (x : List Load) (j : ArmId) : (s.withLoads x).alarm j = s.alarm j := rfl
@[simp] theorem State.withRecipes_alarm (s : State) (x : List Recipe) (j : ArmId) : (s.withRecipes x).alarm j = s.alarm j := rfl
@[simp] theorem State.withQueue_alarm (s : State) (x : List HeaderRequest) (j : ArmId) : (s.withQueue x).alarm j = s.alarm j := rfl
@[simp] theorem State.withPort_alarm (s : State) (x : TempPort) (j : ArmId) : (s.withPort x).alarm j = s.alarm j := rfl
@[simp] theorem State.withLevels_alarm (s : State) (x : PermLevels) (j : ArmId) : (s.withLevels x).alarm j = s.alarm j := rfl
@[simp] theorem State.withButtons_alarm (s : State) (x : ButtonLevels) (j : ArmId) : (s.withButtons x).alarm j = s.alarm j := rfl
@[simp] theorem State.withStationAlarms_alarm (s : State) (x : List StationAlarm) (j : ArmId) : (s.withStationAlarms x).alarm j = s.alarm j := rfl
theorem State.modArm_eq (s : State) (i : ArmId) (f : ArmSeq → ArmSeq) : s.modArm i f = s.setArm i (f (s.arm i)) := rfl
@[simp] theorem State.modArm_now (s : State) (i : ArmId) (f : ArmSeq → ArmSeq) : (s.modArm i f).now = s.now := rfl
@[simp] theorem State.modArm_pending (s : State) (i : ArmId) (f : ArmSeq → ArmSeq) : (s.modArm i f).pending = s.pending := rfl
@[simp] theorem State.modArm_store (s : State) (i : ArmId) (f : ArmSeq → ArmSeq) : (s.modArm i f).store = s.store := rfl
@[simp] theorem State.modArm_settings (s : State) (i : ArmId) (f : ArmSeq → ArmSeq) : (s.modArm i f).settings = s.settings := rfl
@[simp] theorem State.modArm_memory (s : State) (i : ArmId) (f : ArmSeq → ArmSeq) : (s.modArm i f).memory = s.memory := rfl
@[simp] theorem State.modArm_link (s : State) (i : ArmId) (f : ArmSeq → ArmSeq) : (s.modArm i f).link = s.link := rfl
@[simp] theorem State.modArm_loads (s : State) (i : ArmId) (f : ArmSeq → ArmSeq) : (s.modArm i f).loads = s.loads := rfl
@[simp] theorem State.modArm_recipes (s : State) (i : ArmId) (f : ArmSeq → ArmSeq) : (s.modArm i f).recipes = s.recipes := rfl
@[simp] theorem State.modArm_ratios (s : State) (i : ArmId) (f : ArmSeq → ArmSeq) : (s.modArm i f).ratios = s.ratios := rfl
@[simp] theorem State.modArm_reservations (s : State) (i : ArmId) (f : ArmSeq → ArmSeq) : (s.modArm i f).reservations = s.reservations := rfl
@[simp] theorem State.modArm_queue (s : State) (i : ArmId) (f : ArmSeq → ArmSeq) : (s.modArm i f).queue = s.queue := rfl
@[simp] theorem State.modArm_meters (s : State) (i : ArmId) (f : ArmSeq → ArmSeq) : (s.modArm i f).meters = s.meters := rfl
@[simp] theorem State.modArm_channels (s : State) (i : ArmId) (f : ArmSeq → ArmSeq) : (s.modArm i f).channels = s.channels := rfl
@[simp] theorem State.modArm_port (s : State) (i : ArmId) (f : ArmSeq → ArmSeq) : (s.modArm i f).port = s.port := rfl
@[simp] theorem State.modArm_injectors (s : State) (i : ArmId) (f : ArmSeq → ArmSeq) : (s.modArm i f).injectors = s.injectors := rfl
@[simp] theorem State.modArm_levels (s : State) (i : ArmId) (f : ArmSeq → ArmSeq) : (s.modArm i f).levels = s.levels := rfl
@[simp] theorem State.modArm_buttons (s : State) (i : ArmId) (f : ArmSeq → ArmSeq) : (s.modArm i f).buttons = s.buttons := rfl
@[simp] theorem State.modArm_alarms (s : State) (i : ArmId) (f : ArmSeq → ArmSeq) : (s.modArm i f).alarms = s.alarms := rfl
@[simp] theorem State.modArm_stationAlarms (s : State) (i : ArmId) (f : ArmSeq → ArmSeq) : (s.modArm i f).stationAlarms = s.stationAlarms := rfl
@[simp] theorem State.modArm_arm_self (s : State) (i : ArmId) (f : ArmSeq → ArmSeq) : (s.modArm i f).arm i = f (s.arm i) := by simp [State.modArm]
theorem State.modArm_arm (s : State) (i j : ArmId) (f : ArmSeq → ArmSeq) : (s.modArm i f).arm j = if j = i then f (s.arm i) else s.arm j := by
  simp [State.modArm, State.setArm_arm]
@[simp] theorem State.modArm_ratio (s : State) (i : ArmId) (f : ArmSeq → ArmSeq) (j : ArmId) : (s.modArm i f).ratio j = s.ratio j := rfl
@[simp] theorem State.modArm_resv (s : State) (i : ArmId) (f : ArmSeq → ArmSeq) (j : ArmId) : (s.modArm i f).resv j = s.resv j := rfl
@[simp] theorem State.modArm_meter (s : State) (i : ArmId) (f : ArmSeq → ArmSeq) (j : MeterId) : (s.modArm i f).meter j = s.meter j := rfl
@[simp] theorem State.modArm_channel (s : State) (i : ArmId) (f : ArmSeq → ArmSeq) (j : MeterId) : (s.modArm i f).channel j = s.channel j := rfl
@[simp] theorem State.modArm_injector (s : State) (i : ArmId) (f : ArmSeq → ArmSeq) (j : InjId) : (s.modArm i f).injector j = s.injector j := rfl
@[simp] theorem State.modArm_alarm (s : State) (i : ArmId) (f : ArmSeq → ArmSeq) (j : ArmId) : (s.modArm i f).alarm j = s.alarm j := rfl
theorem State.modRatio_eq (s : State) (i : ArmId) (f : Ratio → Ratio) : s.modRatio i f = s.setRatio i (f (s.ratio i)) := rfl
@[simp] theorem State.modRatio_now (s : State) (i : ArmId) (f : Ratio → Ratio) : (s.modRatio i f).now = s.now := rfl
@[simp] theorem State.modRatio_pending (s : State) (i : ArmId) (f : Ratio → Ratio) : (s.modRatio i f).pending = s.pending := rfl
@[simp] theorem State.modRatio_store (s : State) (i : ArmId) (f : Ratio → Ratio) : (s.modRatio i f).store = s.store := rfl
@[simp] theorem State.modRatio_settings (s : State) (i : ArmId) (f : Ratio → Ratio) : (s.modRatio i f).settings = s.settings := rfl
@[simp] theorem State.modRatio_memory (s : State) (i : ArmId) (f : Ratio → Ratio) : (s.modRatio i f).memory = s.memory := rfl
@[simp] theorem State.modRatio_link (s : State) (i : ArmId) (f : Ratio → Ratio) : (s.modRatio i f).link = s.link := rfl
@[simp] theorem State.modRatio_loads (s : State) (i : ArmId) (f : Ratio → Ratio) : (s.modRatio i f).loads = s.loads := rfl
@[simp] theorem State.modRatio_recipes (s : State) (i : ArmId) (f : Ratio → Ratio) : (s.modRatio i f).recipes = s.recipes := rfl
@[simp] theorem State.modRatio_arms (s : State) (i : ArmId) (f : Ratio → Ratio) : (s.modRatio i f).arms = s.arms := rfl
@[simp] theorem State.modRatio_reservations (s : State) (i : ArmId) (f : Ratio → Ratio) : (s.modRatio i f).reservations = s.reservations := rfl
@[simp] theorem State.modRatio_queue (s : State) (i : ArmId) (f : Ratio → Ratio) : (s.modRatio i f).queue = s.queue := rfl
@[simp] theorem State.modRatio_meters (s : State) (i : ArmId) (f : Ratio → Ratio) : (s.modRatio i f).meters = s.meters := rfl
@[simp] theorem State.modRatio_channels (s : State) (i : ArmId) (f : Ratio → Ratio) : (s.modRatio i f).channels = s.channels := rfl
@[simp] theorem State.modRatio_port (s : State) (i : ArmId) (f : Ratio → Ratio) : (s.modRatio i f).port = s.port := rfl
@[simp] theorem State.modRatio_injectors (s : State) (i : ArmId) (f : Ratio → Ratio) : (s.modRatio i f).injectors = s.injectors := rfl
@[simp] theorem State.modRatio_levels (s : State) (i : ArmId) (f : Ratio → Ratio) : (s.modRatio i f).levels = s.levels := rfl
@[simp] theorem State.modRatio_buttons (s : State) (i : ArmId) (f : Ratio → Ratio) : (s.modRatio i f).buttons = s.buttons := rfl
@[simp] theorem State.modRatio_alarms (s : State) (i : ArmId) (f : Ratio → Ratio) : (s.modRatio i f).alarms = s.alarms := rfl
@[simp] theorem State.modRatio_stationAlarms (s : State) (i : ArmId) (f : Ratio → Ratio) : (s.modRatio i f).stationAlarms = s.stationAlarms := rfl
@[simp] theorem State.modRatio_ratio_self (s : State) (i : ArmId) (f : Ratio → Ratio) : (s.modRatio i f).ratio i = f (s.ratio i) := by simp [State.modRatio]
theorem State.modRatio_ratio (s : State) (i j : ArmId) (f : Ratio → Ratio) : (s.modRatio i f).ratio j = if j = i then f (s.ratio i) else s.ratio j := by
  simp [State.modRatio, State.setRatio_ratio]
@[simp] theorem State.modRatio_arm (s : State) (i : ArmId) (f : Ratio → Ratio) (j : ArmId) : (s.modRatio i f).arm j = s.arm j := rfl
@[simp] theorem State.modRatio_resv (s : State) (i : ArmId) (f : Ratio → Ratio) (j : ArmId) : (s.modRatio i f).resv j = s.resv j := rfl
@[simp] theorem State.modRatio_meter (s : State) (i : ArmId) (f : Ratio → Ratio) (j : MeterId) : (s.modRatio i f).meter j = s.meter j := rfl
@[simp] theorem State.modRatio_channel (s : State) (i : ArmId) (f : Ratio → Ratio) (j : MeterId) : (s.modRatio i f).channel j = s.channel j := rfl
@[simp] theorem State.modRatio_injector (s : State) (i : ArmId) (f : Ratio → Ratio) (j : InjId) : (s.modRatio i f).injector j = s.injector j := rfl
@[simp] theorem State.modRatio_alarm (s : State) (i : ArmId) (f : Ratio → Ratio) (j : ArmId) : (s.modRatio i f).alarm j = s.alarm j := rfl
theorem State.modResv_eq (s : State) (i : ArmId) (f : Reservation → Reservation) : s.modResv i f = s.setResv i (f (s.resv i)) := rfl
@[simp] theorem State.modResv_now (s : State) (i : ArmId) (f : Reservation → Reservation) : (s.modResv i f).now = s.now := rfl
@[simp] theorem State.modResv_pending (s : State) (i : ArmId) (f : Reservation → Reservation) : (s.modResv i f).pending = s.pending := rfl
@[simp] theorem State.modResv_store (s : State) (i : ArmId) (f : Reservation → Reservation) : (s.modResv i f).store = s.store := rfl
@[simp] theorem State.modResv_settings (s : State) (i : ArmId) (f : Reservation → Reservation) : (s.modResv i f).settings = s.settings := rfl
@[simp] theorem State.modResv_memory (s : State) (i : ArmId) (f : Reservation → Reservation) : (s.modResv i f).memory = s.memory := rfl
@[simp] theorem State.modResv_link (s : State) (i : ArmId) (f : Reservation → Reservation) : (s.modResv i f).link = s.link := rfl
@[simp] theorem State.modResv_loads (s : State) (i : ArmId) (f : Reservation → Reservation) : (s.modResv i f).loads = s.loads := rfl
@[simp] theorem State.modResv_recipes (s : State) (i : ArmId) (f : Reservation → Reservation) : (s.modResv i f).recipes = s.recipes := rfl
@[simp] theorem State.modResv_arms (s : State) (i : ArmId) (f : Reservation → Reservation) : (s.modResv i f).arms = s.arms := rfl
@[simp] theorem State.modResv_ratios (s : State) (i : ArmId) (f : Reservation → Reservation) : (s.modResv i f).ratios = s.ratios := rfl
@[simp] theorem State.modResv_queue (s : State) (i : ArmId) (f : Reservation → Reservation) : (s.modResv i f).queue = s.queue := rfl
@[simp] theorem State.modResv_meters (s : State) (i : ArmId) (f : Reservation → Reservation) : (s.modResv i f).meters = s.meters := rfl
@[simp] theorem State.modResv_channels (s : State) (i : ArmId) (f : Reservation → Reservation) : (s.modResv i f).channels = s.channels := rfl
@[simp] theorem State.modResv_port (s : State) (i : ArmId) (f : Reservation → Reservation) : (s.modResv i f).port = s.port := rfl
@[simp] theorem State.modResv_injectors (s : State) (i : ArmId) (f : Reservation → Reservation) : (s.modResv i f).injectors = s.injectors := rfl
@[simp] theorem State.modResv_levels (s : State) (i : ArmId) (f : Reservation → Reservation) : (s.modResv i f).levels = s.levels := rfl
@[simp] theorem State.modResv_buttons (s : State) (i : ArmId) (f : Reservation → Reservation) : (s.modResv i f).buttons = s.buttons := rfl
@[simp] theorem State.modResv_alarms (s : State) (i : ArmId) (f : Reservation → Reservation) : (s.modResv i f).alarms = s.alarms := rfl
@[simp] theorem State.modResv_stationAlarms (s : State) (i : ArmId) (f : Reservation → Reservation) : (s.modResv i f).stationAlarms = s.stationAlarms := rfl
@[simp] theorem State.modResv_resv_self (s : State) (i : ArmId) (f : Reservation → Reservation) : (s.modResv i f).resv i = f (s.resv i) := by simp [State.modResv]
theorem State.modResv_resv (s : State) (i j : ArmId) (f : Reservation → Reservation) : (s.modResv i f).resv j = if j = i then f (s.resv i) else s.resv j := by
  simp [State.modResv, State.setResv_resv]
@[simp] theorem State.modResv_arm (s : State) (i : ArmId) (f : Reservation → Reservation) (j : ArmId) : (s.modResv i f).arm j = s.arm j := rfl
@[simp] theorem State.modResv_ratio (s : State) (i : ArmId) (f : Reservation → Reservation) (j : ArmId) : (s.modResv i f).ratio j = s.ratio j := rfl
@[simp] theorem State.modResv_meter (s : State) (i : ArmId) (f : Reservation → Reservation) (j : MeterId) : (s.modResv i f).meter j = s.meter j := rfl
@[simp] theorem State.modResv_channel (s : State) (i : ArmId) (f : Reservation → Reservation) (j : MeterId) : (s.modResv i f).channel j = s.channel j := rfl
@[simp] theorem State.modResv_injector (s : State) (i : ArmId) (f : Reservation → Reservation) (j : InjId) : (s.modResv i f).injector j = s.injector j := rfl
@[simp] theorem State.modResv_alarm (s : State) (i : ArmId) (f : Reservation → Reservation) (j : ArmId) : (s.modResv i f).alarm j = s.alarm j := rfl
theorem State.modMeter_eq (s : State) (i : MeterId) (f : Meter → Meter) : s.modMeter i f = s.setMeter i (f (s.meter i)) := rfl
@[simp] theorem State.modMeter_now (s : State) (i : MeterId) (f : Meter → Meter) : (s.modMeter i f).now = s.now := rfl
@[simp] theorem State.modMeter_pending (s : State) (i : MeterId) (f : Meter → Meter) : (s.modMeter i f).pending = s.pending := rfl
@[simp] theorem State.modMeter_store (s : State) (i : MeterId) (f : Meter → Meter) : (s.modMeter i f).store = s.store := rfl
@[simp] theorem State.modMeter_settings (s : State) (i : MeterId) (f : Meter → Meter) : (s.modMeter i f).settings = s.settings := rfl
@[simp] theorem State.modMeter_memory (s : State) (i : MeterId) (f : Meter → Meter) : (s.modMeter i f).memory = s.memory := rfl
@[simp] theorem State.modMeter_link (s : State) (i : MeterId) (f : Meter → Meter) : (s.modMeter i f).link = s.link := rfl
@[simp] theorem State.modMeter_loads (s : State) (i : MeterId) (f : Meter → Meter) : (s.modMeter i f).loads = s.loads := rfl
@[simp] theorem State.modMeter_recipes (s : State) (i : MeterId) (f : Meter → Meter) : (s.modMeter i f).recipes = s.recipes := rfl
@[simp] theorem State.modMeter_arms (s : State) (i : MeterId) (f : Meter → Meter) : (s.modMeter i f).arms = s.arms := rfl
@[simp] theorem State.modMeter_ratios (s : State) (i : MeterId) (f : Meter → Meter) : (s.modMeter i f).ratios = s.ratios := rfl
@[simp] theorem State.modMeter_reservations (s : State) (i : MeterId) (f : Meter → Meter) : (s.modMeter i f).reservations = s.reservations := rfl
@[simp] theorem State.modMeter_queue (s : State) (i : MeterId) (f : Meter → Meter) : (s.modMeter i f).queue = s.queue := rfl
@[simp] theorem State.modMeter_channels (s : State) (i : MeterId) (f : Meter → Meter) : (s.modMeter i f).channels = s.channels := rfl
@[simp] theorem State.modMeter_port (s : State) (i : MeterId) (f : Meter → Meter) : (s.modMeter i f).port = s.port := rfl
@[simp] theorem State.modMeter_injectors (s : State) (i : MeterId) (f : Meter → Meter) : (s.modMeter i f).injectors = s.injectors := rfl
@[simp] theorem State.modMeter_levels (s : State) (i : MeterId) (f : Meter → Meter) : (s.modMeter i f).levels = s.levels := rfl
@[simp] theorem State.modMeter_buttons (s : State) (i : MeterId) (f : Meter → Meter) : (s.modMeter i f).buttons = s.buttons := rfl
@[simp] theorem State.modMeter_alarms (s : State) (i : MeterId) (f : Meter → Meter) : (s.modMeter i f).alarms = s.alarms := rfl
@[simp] theorem State.modMeter_stationAlarms (s : State) (i : MeterId) (f : Meter → Meter) : (s.modMeter i f).stationAlarms = s.stationAlarms := rfl
@[simp] theorem State.modMeter_meter_self (s : State) (i : MeterId) (f : Meter → Meter) : (s.modMeter i f).meter i = f (s.meter i) := by simp [State.modMeter]
theorem State.modMeter_meter (s : State) (i j : MeterId) (f : Meter → Meter) : (s.modMeter i f).meter j = if j = i then f (s.meter i) else s.meter j := by
  simp [State.modMeter, State.setMeter_meter]
@[simp] theorem State.modMeter_arm (s : State) (i : MeterId) (f : Meter → Meter) (j : ArmId) : (s.modMeter i f).arm j = s.arm j := rfl
@[simp] theorem State.modMeter_ratio (s : State) (i : MeterId) (f : Meter → Meter) (j : ArmId) : (s.modMeter i f).ratio j = s.ratio j := rfl
@[simp] theorem State.modMeter_resv (s : State) (i : MeterId) (f : Meter → Meter) (j : ArmId) : (s.modMeter i f).resv j = s.resv j := rfl
@[simp] theorem State.modMeter_channel (s : State) (i : MeterId) (f : Meter → Meter) (j : MeterId) : (s.modMeter i f).channel j = s.channel j := rfl
@[simp] theorem State.modMeter_injector (s : State) (i : MeterId) (f : Meter → Meter) (j : InjId) : (s.modMeter i f).injector j = s.injector j := rfl
@[simp] theorem State.modMeter_alarm (s : State) (i : MeterId) (f : Meter → Meter) (j : ArmId) : (s.modMeter i f).alarm j = s.alarm j := rfl
theorem State.modChannel_eq (s : State) (i : MeterId) (f : TempChannel → TempChannel) : s.modChannel i f = s.setChannel i (f (s.channel i)) := rfl
@[simp] theorem State.modChannel_now (s : State) (i : MeterId) (f : TempChannel → TempChannel) : (s.modChannel i f).now = s.now := rfl
@[simp] theorem State.modChannel_pending (s : State) (i : MeterId) (f : TempChannel → TempChannel) : (s.modChannel i f).pending = s.pending := rfl
@[simp] theorem State.modChannel_store (s : State) (i : MeterId) (f : TempChannel → TempChannel) : (s.modChannel i f).store = s.store := rfl
@[simp] theorem State.modChannel_settings (s : State) (i : MeterId) (f : TempChannel → TempChannel) : (s.modChannel i f).settings = s.settings := rfl
@[simp] theorem State.modChannel_memory (s : State) (i : MeterId) (f : TempChannel → TempChannel) : (s.modChannel i f).memory = s.memory := rfl
@[simp] theorem State.modChannel_link (s : State) (i : MeterId) (f : TempChannel → TempChannel) : (s.modChannel i f).link = s.link := rfl
@[simp] theorem State.modChannel_loads (s : State) (i : MeterId) (f : TempChannel → TempChannel) : (s.modChannel i f).loads = s.loads := rfl
@[simp] theorem State.modChannel_recipes (s : State) (i : MeterId) (f : TempChannel → TempChannel) : (s.modChannel i f).recipes = s.recipes := rfl
@[simp] theorem State.modChannel_arms (s : State) (i : MeterId) (f : TempChannel → TempChannel) : (s.modChannel i f).arms = s.arms := rfl
@[simp] theorem State.modChannel_ratios (s : State) (i : MeterId) (f : TempChannel → TempChannel) : (s.modChannel i f).ratios = s.ratios := rfl
@[simp] theorem State.modChannel_reservations (s : State) (i : MeterId) (f : TempChannel → TempChannel) : (s.modChannel i f).reservations = s.reservations := rfl
@[simp] theorem State.modChannel_queue (s : State) (i : MeterId) (f : TempChannel → TempChannel) : (s.modChannel i f).queue = s.queue := rfl
@[simp] theorem State.modChannel_meters (s : State) (i : MeterId) (f : TempChannel → TempChannel) : (s.modChannel i f).meters = s.meters := rfl
@[simp] theorem State.modChannel_port (s : State) (i : MeterId) (f : TempChannel → TempChannel) : (s.modChannel i f).port = s.port := rfl
@[simp] theorem State.modChannel_injectors (s : State) (i : MeterId) (f : TempChannel → TempChannel) : (s.modChannel i f).injectors = s.injectors := rfl
@[simp] theorem State.modChannel_levels (s : State) (i : MeterId) (f : TempChannel → TempChannel) : (s.modChannel i f).levels = s.levels := rfl
@[simp] theorem State.modChannel_buttons (s : State) (i : MeterId) (f : TempChannel → TempChannel) : (s.modChannel i f).buttons = s.buttons := rfl
@[simp] theorem State.modChannel_alarms (s : State) (i : MeterId) (f : TempChannel → TempChannel) : (s.modChannel i f).alarms = s.alarms := rfl
@[simp] theorem State.modChannel_stationAlarms (s : State) (i : MeterId) (f : TempChannel → TempChannel) : (s.modChannel i f).stationAlarms = s.stationAlarms := rfl
@[simp] theorem State.modChannel_channel_self (s : State) (i : MeterId) (f : TempChannel → TempChannel) : (s.modChannel i f).channel i = f (s.channel i) := by simp [State.modChannel]
theorem State.modChannel_channel (s : State) (i j : MeterId) (f : TempChannel → TempChannel) : (s.modChannel i f).channel j = if j = i then f (s.channel i) else s.channel j := by
  simp [State.modChannel, State.setChannel_channel]
@[simp] theorem State.modChannel_arm (s : State) (i : MeterId) (f : TempChannel → TempChannel) (j : ArmId) : (s.modChannel i f).arm j = s.arm j := rfl
@[simp] theorem State.modChannel_ratio (s : State) (i : MeterId) (f : TempChannel → TempChannel) (j : ArmId) : (s.modChannel i f).ratio j = s.ratio j := rfl
@[simp] theorem State.modChannel_resv (s : State) (i : MeterId) (f : TempChannel → TempChannel) (j : ArmId) : (s.modChannel i f).resv j = s.resv j := rfl
@[simp] theorem State.modChannel_meter (s : State) (i : MeterId) (f : TempChannel → TempChannel) (j : MeterId) : (s.modChannel i f).meter j = s.meter j := rfl
@[simp] theorem State.modChannel_injector (s : State) (i : MeterId) (f : TempChannel → TempChannel) (j : InjId) : (s.modChannel i f).injector j = s.injector j := rfl
@[simp] theorem State.modChannel_alarm (s : State) (i : MeterId) (f : TempChannel → TempChannel) (j : ArmId) : (s.modChannel i f).alarm j = s.alarm j := rfl
theorem State.modInjector_eq (s : State) (i : InjId) (f : Injector → Injector) : s.modInjector i f = s.setInjector i (f (s.injector i)) := rfl
@[simp] theorem State.modInjector_now (s : State) (i : InjId) (f : Injector → Injector) : (s.modInjector i f).now = s.now := rfl
@[simp] theorem State.modInjector_pending (s : State) (i : InjId) (f : Injector → Injector) : (s.modInjector i f).pending = s.pending := rfl
@[simp] theorem State.modInjector_store (s : State) (i : InjId) (f : Injector → Injector) : (s.modInjector i f).store = s.store := rfl
@[simp] theorem State.modInjector_settings (s : State) (i : InjId) (f : Injector → Injector) : (s.modInjector i f).settings = s.settings := rfl
@[simp] theorem State.modInjector_memory (s : State) (i : InjId) (f : Injector → Injector) : (s.modInjector i f).memory = s.memory := rfl
@[simp] theorem State.modInjector_link (s : State) (i : InjId) (f : Injector → Injector) : (s.modInjector i f).link = s.link := rfl
@[simp] theorem State.modInjector_loads (s : State) (i : InjId) (f : Injector → Injector) : (s.modInjector i f).loads = s.loads := rfl
@[simp] theorem State.modInjector_recipes (s : State) (i : InjId) (f : Injector → Injector) : (s.modInjector i f).recipes = s.recipes := rfl
@[simp] theorem State.modInjector_arms (s : State) (i : InjId) (f : Injector → Injector) : (s.modInjector i f).arms = s.arms := rfl
@[simp] theorem State.modInjector_ratios (s : State) (i : InjId) (f : Injector → Injector) : (s.modInjector i f).ratios = s.ratios := rfl
@[simp] theorem State.modInjector_reservations (s : State) (i : InjId) (f : Injector → Injector) : (s.modInjector i f).reservations = s.reservations := rfl
@[simp] theorem State.modInjector_queue (s : State) (i : InjId) (f : Injector → Injector) : (s.modInjector i f).queue = s.queue := rfl
@[simp] theorem State.modInjector_meters (s : State) (i : InjId) (f : Injector → Injector) : (s.modInjector i f).meters = s.meters := rfl
@[simp] theorem State.modInjector_channels (s : State) (i : InjId) (f : Injector → Injector) : (s.modInjector i f).channels = s.channels := rfl
@[simp] theorem State.modInjector_port (s : State) (i : InjId) (f : Injector → Injector) : (s.modInjector i f).port = s.port := rfl
@[simp] theorem State.modInjector_levels (s : State) (i : InjId) (f : Injector → Injector) : (s.modInjector i f).levels = s.levels := rfl
@[simp] theorem State.modInjector_buttons (s : State) (i : InjId) (f : Injector → Injector) : (s.modInjector i f).buttons = s.buttons := rfl
@[simp] theorem State.modInjector_alarms (s : State) (i : InjId) (f : Injector → Injector) : (s.modInjector i f).alarms = s.alarms := rfl
@[simp] theorem State.modInjector_stationAlarms (s : State) (i : InjId) (f : Injector → Injector) : (s.modInjector i f).stationAlarms = s.stationAlarms := rfl
@[simp] theorem State.modInjector_injector_self (s : State) (i : InjId) (f : Injector → Injector) : (s.modInjector i f).injector i = f (s.injector i) := by simp [State.modInjector]
theorem State.modInjector_injector (s : State) (i j : InjId) (f : Injector → Injector) : (s.modInjector i f).injector j = if j = i then f (s.injector i) else s.injector j := by
  simp [State.modInjector, State.setInjector_injector]
@[simp] theorem State.modInjector_arm (s : State) (i : InjId) (f : Injector → Injector) (j : ArmId) : (s.modInjector i f).arm j = s.arm j := rfl
@[simp] theorem State.modInjector_ratio (s : State) (i : InjId) (f : Injector → Injector) (j : ArmId) : (s.modInjector i f).ratio j = s.ratio j := rfl
@[simp] theorem State.modInjector_resv (s : State) (i : InjId) (f : Injector → Injector) (j : ArmId) : (s.modInjector i f).resv j = s.resv j := rfl
@[simp] theorem State.modInjector_meter (s : State) (i : InjId) (f : Injector → Injector) (j : MeterId) : (s.modInjector i f).meter j = s.meter j := rfl
@[simp] theorem State.modInjector_channel (s : State) (i : InjId) (f : Injector → Injector) (j : MeterId) : (s.modInjector i f).channel j = s.channel j := rfl
@[simp] theorem State.modInjector_alarm (s : State) (i : InjId) (f : Injector → Injector) (j : ArmId) : (s.modInjector i f).alarm j = s.alarm j := rfl
theorem State.modAlarm_eq (s : State) (i : ArmId) (f : ArmAlarms → ArmAlarms) : s.modAlarm i f = s.setAlarm i (f (s.alarm i)) := rfl
@[simp] theorem State.modAlarm_now (s : State) (i : ArmId) (f : ArmAlarms → ArmAlarms) : (s.modAlarm i f).now = s.now := rfl
@[simp] theorem State.modAlarm_pending (s : State) (i : ArmId) (f : ArmAlarms → ArmAlarms) : (s.modAlarm i f).pending = s.pending := rfl
@[simp] theorem State.modAlarm_store (s : State) (i : ArmId) (f : ArmAlarms → ArmAlarms) : (s.modAlarm i f).store = s.store := rfl
@[simp] theorem State.modAlarm_settings (s : State) (i : ArmId) (f : ArmAlarms → ArmAlarms) : (s.modAlarm i f).settings = s.settings := rfl
@[simp] theorem State.modAlarm_memory (s : State) (i : ArmId) (f : ArmAlarms → ArmAlarms) : (s.modAlarm i f).memory = s.memory := rfl
@[simp] theorem State.modAlarm_link (s : State) (i : ArmId) (f : ArmAlarms → ArmAlarms) : (s.modAlarm i f).link = s.link := rfl
@[simp] theorem State.modAlarm_loads (s : State) (i : ArmId) (f : ArmAlarms → ArmAlarms) : (s.modAlarm i f).loads = s.loads := rfl
@[simp] theorem State.modAlarm_recipes (s : State) (i : ArmId) (f : ArmAlarms → ArmAlarms) : (s.modAlarm i f).recipes = s.recipes := rfl
@[simp] theorem State.modAlarm_arms (s : State) (i : ArmId) (f : ArmAlarms → ArmAlarms) : (s.modAlarm i f).arms = s.arms := rfl
@[simp] theorem State.modAlarm_ratios (s : State) (i : ArmId) (f : ArmAlarms → ArmAlarms) : (s.modAlarm i f).ratios = s.ratios := rfl
@[simp] theorem State.modAlarm_reservations (s : State) (i : ArmId) (f : ArmAlarms → ArmAlarms) : (s.modAlarm i f).reservations = s.reservations := rfl
@[simp] theorem State.modAlarm_queue (s : State) (i : ArmId) (f : ArmAlarms → ArmAlarms) : (s.modAlarm i f).queue = s.queue := rfl
@[simp] theorem State.modAlarm_meters (s : State) (i : ArmId) (f : ArmAlarms → ArmAlarms) : (s.modAlarm i f).meters = s.meters := rfl
@[simp] theorem State.modAlarm_channels (s : State) (i : ArmId) (f : ArmAlarms → ArmAlarms) : (s.modAlarm i f).channels = s.channels := rfl
@[simp] theorem State.modAlarm_port (s : State) (i : ArmId) (f : ArmAlarms → ArmAlarms) : (s.modAlarm i f).port = s.port := rfl
@[simp] theorem State.modAlarm_injectors (s : State) (i : ArmId) (f : ArmAlarms → ArmAlarms) : (s.modAlarm i f).injectors = s.injectors := rfl
@[simp] theorem State.modAlarm_levels (s : State) (i : ArmId) (f : ArmAlarms → ArmAlarms) : (s.modAlarm i f).levels = s.levels := rfl
@[simp] theorem State.modAlarm_buttons (s : State) (i : ArmId) (f : ArmAlarms → ArmAlarms) : (s.modAlarm i f).buttons = s.buttons := rfl
@[simp] theorem State.modAlarm_stationAlarms (s : State) (i : ArmId) (f : ArmAlarms → ArmAlarms) : (s.modAlarm i f).stationAlarms = s.stationAlarms := rfl
@[simp] theorem State.modAlarm_alarm_self (s : State) (i : ArmId) (f : ArmAlarms → ArmAlarms) : (s.modAlarm i f).alarm i = f (s.alarm i) := by simp [State.modAlarm]
theorem State.modAlarm_alarm (s : State) (i j : ArmId) (f : ArmAlarms → ArmAlarms) : (s.modAlarm i f).alarm j = if j = i then f (s.alarm i) else s.alarm j := by
  simp [State.modAlarm, State.setAlarm_alarm]
@[simp] theorem State.modAlarm_arm (s : State) (i : ArmId) (f : ArmAlarms → ArmAlarms) (j : ArmId) : (s.modAlarm i f).arm j = s.arm j := rfl
@[simp] theorem State.modAlarm_ratio (s : State) (i : ArmId) (f : ArmAlarms → ArmAlarms) (j : ArmId) : (s.modAlarm i f).ratio j = s.ratio j := rfl
@[simp] theorem State.modAlarm_resv (s : State) (i : ArmId) (f : ArmAlarms → ArmAlarms) (j : ArmId) : (s.modAlarm i f).resv j = s.resv j := rfl
@[simp] theorem State.modAlarm_meter (s : State) (i : ArmId) (f : ArmAlarms → ArmAlarms) (j : MeterId) : (s.modAlarm i f).meter j = s.meter j := rfl
@[simp] theorem State.modAlarm_channel (s : State) (i : ArmId) (f : ArmAlarms → ArmAlarms) (j : MeterId) : (s.modAlarm i f).channel j = s.channel j := rfl
@[simp] theorem State.modAlarm_injector (s : State) (i : ArmId) (f : ArmAlarms → ArmAlarms) (j : InjId) : (s.modAlarm i f).injector j = s.injector j := rfl

end Sys2Proof.Machine
end

