-- ==== Sys2Proof/Laws/Keeps.lean ====
section
/-! SUPPORT. What the shared operations of the arms, the arbiter, the injectors and the alarm unit leave as it
was: one lemma per operation. `Keeps s t` says that `t` differs from `s` at most in the arms, ratios,
reservations, grant queue, meters, injectors and arm alarms, and in the fields of the load records other than
load number, arm and recipe number (R3). -/

namespace Sys2Proof.Machine

/-- What a record keeps from staging to removal (R3). -/
def Load.key (l : Load) : Nat × ArmId × Nat := (l.number, l.arm, l.recipe)

structure Keeps (s t : State) : Prop where
  now : t.now = s.now
  pending : t.pending = s.pending
  store : t.store = s.store
  settings : t.settings = s.settings
  memory : t.memory = s.memory
  link : t.link = s.link
  recipes : t.recipes = s.recipes
  channels : t.channels = s.channels
  port : t.port = s.port
  levels : t.levels = s.levels
  buttons : t.buttons = s.buttons
  stationAlarms : t.stationAlarms = s.stationAlarms
  keys : t.loads.map Load.key = s.loads.map Load.key

theorem Keeps.refl (s : State) : Keeps s s := ⟨rfl, rfl, rfl, rfl, rfl, rfl, rfl, rfl, rfl, rfl, rfl, rfl, rfl⟩

theorem Keeps.trans {s t u : State} (h : Keeps s t) (k : Keeps t u) : Keeps s u :=
  ⟨k.now.trans h.now, k.pending.trans h.pending, k.store.trans h.store, k.settings.trans h.settings, k.memory.trans h.memory, k.link.trans h.link, k.recipes.trans h.recipes, k.channels.trans h.channels, k.port.trans h.port, k.levels.trans h.levels, k.buttons.trans h.buttons, k.stationAlarms.trans h.stationAlarms, k.keys.trans h.keys⟩

/-- The later operation first, so that it fixes the states between. -/
theorem Keeps.after {s t u : State} (k : Keeps t u) (h : Keeps s t) : Keeps s u := h.trans k

theorem State.modArm_keeps (s : State) (n : ArmId) (f : ArmSeq → ArmSeq) : Keeps s (s.modArm n f) := ⟨rfl, rfl, rfl, rfl, rfl, rfl, rfl, rfl, rfl, rfl, rfl, rfl, rfl⟩

theorem State.modRatio_keeps (s : State) (n : ArmId) (f : Ratio → Ratio) : Keeps s (s.modRatio n f) := ⟨rfl, rfl, rfl, rfl, rfl, rfl, rfl, rfl, rfl, rfl, rfl, rfl, rfl⟩

theorem State.modResv_keeps (s : State) (n : ArmId) (f : Reservation → Reservation) : Keeps s (s.modResv n f) := ⟨rfl, rfl, rfl, rfl, rfl, rfl, rfl, rfl, rfl, rfl, rfl, rfl, rfl⟩

theorem State.modMeter_keeps (s : State) (m : MeterId) (f : Meter → Meter) : Keeps s (s.modMeter m f) := ⟨rfl, rfl, rfl, rfl, rfl, rfl, rfl, rfl, rfl, rfl, rfl, rfl, rfl⟩

theorem State.setMeter_keeps (s : State) (m : MeterId) (x : Meter) : Keeps s (s.setMeter m x) := ⟨rfl, rfl, rfl, rfl, rfl, rfl, rfl, rfl, rfl, rfl, rfl, rfl, rfl⟩

theorem State.modInjector_keeps (s : State) (i : InjId) (f : Injector → Injector) : Keeps s (s.modInjector i f) := ⟨rfl, rfl, rfl, rfl, rfl, rfl, rfl, rfl, rfl, rfl, rfl, rfl, rfl⟩

theorem State.modAlarm_keeps (s : State) (n : ArmId) (f : ArmAlarms → ArmAlarms) : Keeps s (s.modAlarm n f) := ⟨rfl, rfl, rfl, rfl, rfl, rfl, rfl, rfl, rfl, rfl, rfl, rfl, rfl⟩

theorem State.setAlarm_keeps (s : State) (n : ArmId) (x : ArmAlarms) : Keeps s (s.setAlarm n x) := ⟨rfl, rfl, rfl, rfl, rfl, rfl, rfl, rfl, rfl, rfl, rfl, rfl, rfl⟩

theorem State.withQueue_keeps (s : State) (q : List HeaderRequest) : Keeps s (s.withQueue q) := ⟨rfl, rfl, rfl, rfl, rfl, rfl, rfl, rfl, rfl, rfl, rfl, rfl, rfl⟩

theorem State.modActive_keeps (s : State) (n : ArmId) (f : Load → Load) (hf : ∀ l, (f l).key = l.key) :
    Keeps s (s.modActive n f) := by
  refine ⟨rfl, rfl, rfl, rfl, rfl, rfl, rfl, rfl, rfl, rfl, rfl, rfl, ?_⟩
  simp only [State.modActive, State.withLoads_loads, List.map_map]
  refine List.map_congr_left fun l _ => ?_
  simp only [Function.comp_apply]
  split
  · exact hf l
  · rfl

theorem State.modLoad_keeps (s : State) (k : Nat) (f : Load → Load) (hf : ∀ l, (f l).key = l.key) :
    Keeps s (s.modLoad k f) := by
  refine ⟨rfl, rfl, rfl, rfl, rfl, rfl, rfl, rfl, rfl, rfl, rfl, rfl, ?_⟩
  simp only [State.modLoad, State.withLoads_loads, List.map_map]
  refine List.map_congr_left fun l _ => ?_
  simp only [Function.comp_apply]
  split
  · exact hf l
  · rfl

/-- An operation on each member of a list. -/
theorem Keeps.foldl {α : Type} (op : State → α → State) (h : ∀ s a, Keeps s (op s a)) (s : State) (l : List α) :
    Keeps s (l.foldl op s) := by
  induction l generalizing s with
  | nil => exact Keeps.refl s
  | cons a rest ih => exact (h s a).trans (ih (op s a))

theorem Keeps.ite {c : Prop} [Decidable c] {s t u : State} (h : Keeps s t) (k : Keeps s u) :
    Keeps s (if c then t else u) := by
  split
  · exact h
  · exact k

/-! ## Arbiter -/

theorem State.enqueue_keeps (s : State) (r : HeaderRequest) : Keeps s (s.enqueue r) := s.withQueue_keeps _

theorem State.requestLow_keeps (s : State) (n : ArmId) (f : Nat) : Keeps s (s.requestLow n f).1 := by
  simp only [State.requestLow]
  split <;> dsimp only
  · exact (Keeps.after (State.modResv_keeps _ n _) (s.modResv_keeps n _))
  · exact (Keeps.after (State.enqueue_keeps _ _) (s.modResv_keeps n _))

theorem State.requestUpgrade_keeps (s : State) (n : ArmId) (f : Nat) : Keeps s (s.requestUpgrade n f).1 := by
  simp only [State.requestUpgrade]
  split <;> dsimp only
  · exact s.modResv_keeps n _
  · exact s.enqueue_keeps _

theorem State.withdraw_keeps (s : State) (n : ArmId) : Keeps s (s.withdraw n) := s.withQueue_keeps _

section
variable {ex : State → State} (he : ∀ s, Keeps s (ex s))
include he

theorem State.withdrawThen_keeps (s : State) (n : ArmId) : Keeps s (s.withdrawThen ex n) := by
  unfold State.withdrawThen
  exact .ite (Keeps.after (he _) (s.withdraw_keeps n)) (s.withdraw_keeps n)

theorem State.releaseThen_keeps (s : State) (n : ArmId) : Keeps s (s.releaseThen ex n) := by
  have h := (Keeps.after (State.modResv_keeps (s.withdraw n) n fun r => { r with level := .none, amount := 0 }) (s.withdraw_keeps n))
  unfold State.releaseThen
  exact .ite (h.trans (he _)) h

end

theorem State.dropToLow_keeps (s : State) (n : ArmId) : Keeps s (s.dropToLow n) := s.modResv_keeps n _

theorem State.grantReservation_keeps (s : State) (r : HeaderRequest) : Keeps s (s.grantReservation r) := by
  unfold State.grantReservation
  cases r.kind
  · exact s.modResv_keeps _ _
  · exact s.modResv_keeps _ _

/-! ## Injectors -/

theorem State.maskArm_keeps (s : State) (n : ArmId) (on : Bool) : Keeps s (s.maskArm n on) :=
  Keeps.foldl _ (fun s _ => .ite (s.modInjector_keeps _ _) (.refl s)) s _

theorem Load.modEntry_key (l : Load) (i : InjId) (f : AddEntry → AddEntry) : (l.modEntry i f).key = l.key := rfl

theorem State.issueStroke_keeps (s : State) (n : ArmId) (l : Load) (i : InjId) : Keeps s (s.issueStroke n l i) :=
  (Keeps.after (State.modInjector_keeps _ i _) (s.modActive_keeps n _ fun _ => rfl))

theorem State.tryIssue_keeps (s : State) (n : ArmId) (i : InjId) : Keeps s (s.tryIssue n i) := by
  unfold State.tryIssue
  split
  · exact .refl s
  · split
    · exact .refl s
    · exact .ite (s.issueStroke_keeps n _ i) (.refl s)

theorem State.issueArm_keeps (s : State) (n : ArmId) : Keeps s (s.issueArm n) := by
  unfold State.issueArm
  split
  · exact .refl s
  · exact Keeps.foldl _ (fun s _ => s.tryIssue_keeps n _) s _

theorem State.setUpEndStrokes_keeps (s : State) (n : ArmId) : Keeps s (s.setUpEndStrokes n) := by
  unfold State.setUpEndStrokes
  split
  · exact .refl s
  · exact (Keeps.after (State.modActive_keeps _ n _ fun _ => rfl) (Keeps.foldl _ (fun s _ => s.modInjector_keeps _ _) s _))

theorem State.judge_keeps (s : State) (i : InjId) : Keeps s (s.judge i) := by
  unfold State.judge
  refine Keeps.trans ?_ (State.modInjector_keeps _ i _)
  split
  · exact s.modLoad_keeps _ _ fun _ => rfl
  · exact .refl s

theorem State.markShort_keeps (s : State) (n : ArmId) (i : InjId) : Keeps s (s.markShort n i) := by
  unfold State.markShort
  split
  · exact .refl s
  · split
    · exact .refl s
    · exact .ite (s.modActive_keeps n _ fun _ => rfl) (.refl s)

/-! ## Phases -/

theorem State.setSetpoint_keeps (s : State) (n : ArmId) : Keeps s (s.setSetpoint n) := by
  unfold State.setSetpoint
  split
  · exact .refl s
  · exact s.modRatio_keeps n _

theorem State.retarget_keeps (s : State) (n : ArmId) : Keeps s (s.retarget n) := s.modArm_keeps n _

theorem State.decideValve_keeps (s : State) (n : ArmId) : Keeps s (s.decideValve n) := s.modArm_keeps n _

theorem State.setPhase_keeps (s : State) (n : ArmId) (p : Phase) (u : Option Bool) : Keeps s (s.setPhase n p u) :=
  s.modActive_keeps n _ fun _ => rfl

theorem State.enterHeaderWait_keeps (s : State) (n : ArmId) : Keeps s (s.enterHeaderWait n) :=
  (Keeps.after (State.modRatio_keeps _ n _) (Keeps.after (State.modArm_keeps _ n _) (s.setPhase_keeps n _ _)))

theorem State.enterHigh_keeps (s : State) (n : ArmId) : Keeps s (s.enterHigh n) :=
  (Keeps.after (State.retarget_keeps _ n) (s.setPhase_keeps n _ _))

theorem State.taperReservation_keeps (s : State) (n : ArmId) : Keeps s (s.taperReservation n) :=
  (Keeps.after (State.modRatio_keeps _ n _) (s.dropToLow_keeps n))

section
variable {ex : State → State} (he : ∀ s, Keeps s (ex s))
include he

theorem State.enterTaper_keeps (b : Bool) (s : State) (n : ArmId) : Keeps s (s.enterTaper ex b n) := by
  simp only [State.enterTaper]
  have h1 := s.setPhase_keeps n .taper none
  have h2 : Keeps s (if (s.phase n == some .high) = true then (s.setPhase n .taper none).taperReservation n
      else s.setPhase n .taper none) := .ite (h1.trans (State.taperReservation_keeps _ n)) h1
  have h3 := h2.trans (State.retarget_keeps _ n)
  have h4 : ∀ t, Keeps s t → Keeps s (if b = true then t.decideValve n else t) :=
    fun t ht => .ite (ht.trans (State.decideValve_keeps _ n)) ht
  exact .ite (Keeps.after (he _) (h4 _ h3)) (Keeps.after (State.withdrawThen_keeps he _ n) (h4 _ h3))

theorem State.enterSettle_keeps (s : State) (n : ArmId) : Keeps s (s.enterSettle ex n) := by
  simp only [State.enterSettle]
  refine Keeps.trans ?_ (State.releaseThen_keeps he _ n)
  have h : ∀ fa fr, Keeps s (((s.setPhase n .settle none).modArm n fa).modRatio n fr) := fun _ _ =>
    .after (State.modRatio_keeps _ n _) (.after (State.modArm_keeps _ n _) (s.setPhase_keeps n .settle none))
  exact .ite (.after (State.issueArm_keeps _ n) (.after (State.setUpEndStrokes_keeps _ n) (h _ _))) (h _ _)

theorem State.enterFinish_keeps (b : Bool) (s : State) (n : ArmId) : Keeps s (s.enterFinish ex b n) := by
  simp only [State.enterFinish]
  have h : ∀ fa fr, Keeps s (((s.setPhase n .finish none).modArm n fa).modRatio n fr) := fun _ _ =>
    .after (State.modRatio_keeps _ n _) (.after (State.modArm_keeps _ n _) (s.setPhase_keeps n .finish none))
  exact .ite (.after (State.enterSettle_keeps he _ n) (h _ _)) (h _ _)

theorem State.taperTest_keeps (b : Bool) (s : State) (n : ArmId) : Keeps s (s.taperTest ex b n) := by
  unfold State.taperTest
  split
  · exact .refl s
  · exact .ite (State.enterTaper_keeps he _ s n) (.refl s)

omit he in
theorem State.lowStartTest_keeps (s : State) (n : ArmId) : Keeps s (s.lowStartTest n) := by
  unfold State.lowStartTest
  split
  · exact .refl s
  · rename_i l _
    split
    · have h := s.requestUpgrade_keeps n (s.fraction l)
      split
      · rename_i heq
        rw [heq] at h
        exact h.trans (State.enterHigh_keeps _ n)
      · rename_i heq
        rw [heq] at h
        exact h.trans (State.setPhase_keeps _ n _ _)
    · exact .refl s

theorem State.finishTest_keeps (b : Bool) (s : State) (n : ArmId) : Keeps s (s.finishTest ex b n) := by
  unfold State.finishTest
  split
  · exact .refl s
  · refine .ite ?_ (.refl s)
    exact Keeps.trans (.ite (.refl s) (State.enterTaper_keeps he _ s n)) (State.enterFinish_keeps he _ _ n)

theorem State.compareTests_keeps (b : Bool) (s : State) (n : ArmId) : Keeps s (s.compareTests ex b n) :=
  (Keeps.after (State.finishTest_keeps he b _ n) (Keeps.after (State.lowStartTest_keeps _ n) (State.taperTest_keeps he b s n)))

theorem State.enterLow_keeps (s : State) (n : ArmId) : Keeps s (s.enterLow ex n) := by
  simp only [State.enterLow]
  have h : ∀ fa, Keeps s (((((s.setPhase n .low (some false)).modArm n fa).retarget n).issueArm n).compareTests ex false n) :=
    fun _ => .after (State.compareTests_keeps he false _ n) (.after (State.issueArm_keeps _ n)
      (.after (State.retarget_keeps _ n) (.after (State.modArm_keeps _ n _) (s.setPhase_keeps n .low (some false)))))
  exact .ite (.after (State.setSetpoint_keeps _ n) (h _)) (h _)

end

/-! ## Examination -/

theorem State.grant_keeps (s : State) (r : HeaderRequest) (rest : List HeaderRequest) : Keeps s (s.grant r rest) := by
  have h := (Keeps.after (State.grantReservation_keeps _ r) (s.withQueue_keeps rest))
  simp only [State.grant]
  split
  · exact h.trans (State.enterLow_keeps (ex := id) Keeps.refl _ _)
  · exact h.trans (State.enterHigh_keeps _ _)

theorem State.examineUpTo_keeps (k : Nat) (s : State) : Keeps s (s.examineUpTo k) := by
  induction k generalizing s with
  | zero => exact .refl s
  | succ k ih =>
    unfold State.examineUpTo
    split
    · exact .refl s
    · exact .ite (Keeps.after (ih _) (s.grant_keeps _ _)) (.refl s)

theorem State.examine_keeps (s : State) : Keeps s s.examine := s.examineUpTo_keeps _

/-! ## Holds and detections -/

theorem State.hold_keeps (s : State) (n : ArmId) (c : HoldCause) : Keeps s (s.hold n c) := by
  simp only [State.hold]
  refine .after (State.releaseThen_keeps State.examine_keeps _ n) (.after (State.maskArm_keeps _ n true) ?_)
  exact .after (State.modRatio_keeps _ n _) (.after (State.modArm_keeps _ n _) (s.modActive_keeps n _ fun _ => rfl))

theorem State.cutFinish_keeps (s : State) (n : ArmId) (c : HoldCause) : Keeps s (s.cutFinish n c) :=
  (Keeps.after (State.enterSettle_keeps State.examine_keeps _ n) (s.modActive_keeps n _ fun _ => rfl))

theorem State.holdCause_keeps (s : State) (n : ArmId) (c : HoldCause) : Keeps s (s.holdCause n c) := by
  unfold State.holdCause
  split
  · exact s.hold_keeps n c
  · exact s.hold_keeps n c
  · exact s.hold_keeps n c
  · exact s.hold_keeps n c
  · exact s.cutFinish_keeps n c
  · exact .refl s
  · exact .refl s

theorem State.holdAll_keeps (s : State) (c : HoldCause) : Keeps s (s.holdAll c) :=
  Keeps.foldl _ (fun s n => s.holdCause_keeps n c) s _

theorem State.latch_keeps (s : State) (n : ArmId) (k : AlarmKind) : Keeps s (s.latch n k) := s.modAlarm_keeps n _

theorem State.detect_keeps (s : State) (n : ArmId) (k : AlarmKind) : Keeps s (s.detect n k) := by
  unfold State.detect
  split
  · exact .refl s
  · exact s.latch_keeps n k
  · exact (Keeps.after (State.holdCause_keeps _ n .alarm) (s.latch_keeps n k))

theorem State.detectIf_keeps (s : State) (b : Bool) (n : ArmId) (k : AlarmKind) : Keeps s (s.detectIf b n k) :=
  .ite (s.detect_keeps n k) (.refl s)

/-! ## Arm states, START, RESUME, the end of a record -/

theorem State.promote_keeps (s : State) (n : ArmId) : Keeps s (s.promote n) := by
  unfold State.promote
  refine .ite ?_ (.refl s)
  split
  · exact s.modLoad_keeps _ _ fun _ => rfl
  · exact .refl s

theorem State.restartClock_keeps (s : State) (n : ArmId) : Keeps s (s.restartClock n) := s.modArm_keeps n _

theorem State.becomeAvailable_keeps (s : State) (n : ArmId) : Keeps s (s.becomeAvailable n) :=
  (Keeps.after (State.promote_keeps _ n) (Keeps.after (State.restartClock_keeps _ n) (s.modArm_keeps n _)))

theorem State.enterChecking_keeps (s : State) (n : ArmId) : Keeps s (s.enterChecking n) :=
  .ite (s.becomeAvailable_keeps n) (s.modArm_keeps n _)

theorem State.leaveChecking_keeps (s : State) (n : ArmId) : Keeps s (s.leaveChecking n) :=
  .ite (s.becomeAvailable_keeps n) (.refl s)

theorem State.askHeader_keeps (s : State) (n : ArmId) : Keeps s (s.askHeader n) := by
  unfold State.askHeader
  have h := s.requestLow_keeps n (((s.active n).map s.fraction).getD 0)
  split
  · rename_i heq
    rw [heq] at h
    exact h.trans (State.enterLow_keeps State.examine_keeps _ n)
  · rename_i heq
    rw [heq] at h
    exact h.trans (State.enterHeaderWait_keeps _ n)

theorem State.start_keeps (s : State) (n : ArmId) : Keeps s (s.start n) := by
  simp only [State.start]
  refine .after (State.askHeader_keeps _ n) (.after (State.maskArm_keeps _ n false) (.after (State.restartClock_keeps _ n) ?_))
  refine .after (State.modRatio_keeps _ n _) (.after (State.modArm_keeps _ n _) ?_)
  exact .after (State.modMeter_keeps _ _ _) (.after (State.modMeter_keeps _ _ _) (s.modActive_keeps n _ fun _ => rfl))

theorem State.resume_keeps (s : State) (n : ArmId) : Keeps s (s.resume n) := by
  simp only [State.resume]
  refine .after (State.askHeader_keeps _ n) (.after (State.maskArm_keeps _ n false) (.after (State.restartClock_keeps _ n) ?_))
  exact .after (State.modRatio_keeps _ n _) (.after (State.modArm_keeps _ n _) (s.modActive_keeps n _ fun _ => rfl))

theorem State.endRecord_keeps (s : State) (n : ArmId) (r : EndReason) : Keeps s (s.endRecord n r) := by
  unfold State.endRecord
  split
  · exact .refl s
  · exact (Keeps.after (Keeps.after (State.promote_keeps _ n) (State.detectIf_keeps _ _ n _)) (Keeps.after (State.detectIf_keeps _ _ n _) (Keeps.after (State.modRatio_keeps _ n _) (Keeps.after (State.modArm_keeps _ n _) (Keeps.after (State.maskArm_keeps _ n true) (s.modActive_keeps n _ fun _ => rfl))))))

theorem State.endSettleIfOver_keeps (s : State) (n : ArmId) : Keeps s (s.endSettleIfOver n) :=
  .ite (s.endRecord_keeps n _) (.refl s)

theorem State.setAbort_keeps (s : State) (n : ArmId) : Keeps s (s.setAbort n) := s.modActive_keeps n _ fun _ => rfl

theorem State.abort_keeps (s : State) (n : ArmId) : Keeps s (s.abort n) := by
  have hs := (Keeps.after (State.enterSettle_keeps State.examine_keeps (s.setAbort n) n) (s.setAbort_keeps n))
  unfold State.abort
  split
  · exact (Keeps.after (State.endRecord_keeps _ n _) (State.releaseThen_keeps State.examine_keeps s n))
  · exact hs
  · exact hs
  · exact hs
  · exact hs
  · exact s.setAbort_keeps n
  · exact s.endRecord_keeps n _

theorem State.amended_keeps (s : State) (n : ArmId) : Keeps s (s.amended n) := by
  unfold State.amended
  split
  · exact .refl s
  · split
    · exact State.compareTests_keeps State.examine_keeps false s n
    · exact State.compareTests_keeps State.examine_keeps false s n
    · exact .ite (Keeps.after (State.finishTest_keeps State.examine_keeps false _ n) (Keeps.after (State.lowStartTest_keeps _ n) (Keeps.after (State.retarget_keeps _ n) (s.setPhase_keeps n _ _)))) (State.finishTest_keeps State.examine_keeps false s n)
    · exact .refl s

theorem State.amendPreset_keeps (s : State) (l : Load) (p : Nat) : Keeps s (s.amendPreset l p) := by
  have h := s.modLoad_keeps l.number (fun l => { l with preset := p }) fun _ => rfl
  exact .ite (h.trans (State.amended_keeps _ _)) h

/-! ## Sample events -/

theorem State.takeSample_keeps (s : State) (n : ArmId) (v : ArmSample) : Keeps s (s.takeSample n v) :=
  (Keeps.after (State.modArm_keeps _ n _) (Keeps.after (State.setMeter_keeps _ _ _) (s.setMeter_keeps _ _)))

theorem Load.addSample_key (l : Load) (g e : MeterSample) (a b : Int) : (l.addSample g e a b).key = l.key := rfl

theorem Load.markTempHeld_key (l : Load) (b : Bool) : (l.markTempHeld b).key = l.key := by
  unfold Load.markTempHeld
  split <;> rfl

theorem State.addToRecord_keeps (s : State) (n : ArmId) (v : ArmSample) : Keeps s (s.addToRecord n v) :=
  s.modActive_keeps n _ fun l => Load.markTempHeld_key (l.addSample v.gas v.eth v.gasTemp v.ethTemp) v.held

theorem State.addToDrain_keeps (s : State) (n : ArmId) (v : ArmSample) : Keeps s (s.addToDrain n v) := s.modArm_keeps n _

theorem State.addToUnassigned_keeps (s : State) (n : ArmId) (v : ArmSample) : Keeps s (s.addToUnassigned n v) :=
  .after (State.modMeter_keeps _ _ _) (s.modMeter_keeps _ _)

theorem State.placeVolume_keeps (s : State) (n : ArmId) (v : ArmSample) (d : VolumeGoes) : Keeps s (s.placeVolume n v d) := by
  cases d
  · exact s.addToRecord_keeps n v
  · exact (s.addToRecord_keeps n v).trans (State.addToDrain_keeps _ n v)
  · exact s.addToUnassigned_keeps n v

theorem State.detectLeaks_keeps (s : State) (n : ArmId) (v : ArmSample) (d : VolumeGoes) : Keeps s (s.detectLeaks n v d) := by
  cases d
  · exact .refl s
  · exact s.detectIf_keeps _ n _
  · exact (Keeps.after (State.detectIf_keeps _ _ n _) (s.detectIf_keeps _ n _))

theorem State.stage1_keeps (s : State) (n : ArmId) : Keeps s (s.stage1 n) :=
  (Keeps.after (State.detectLeaks_keeps _ n _ _) (Keeps.after (State.detectIf_keeps _ _ n _) (Keeps.after (State.placeVolume_keeps _ n _ _) (s.takeSample_keeps n _))))

theorem State.stage2_keeps (s : State) (n : ArmId) (v : Valve) (k : Nat) : Keeps s (s.stage2 n v k) :=
  .ite (Keeps.after (State.detectIf_keeps _ _ n _) (s.modArm_keeps n _)) (.refl s)

theorem State.stage3_keeps (s : State) (n : ArmId) : Keeps s (s.stage3 n) :=
  .ite (State.compareTests_keeps State.examine_keeps true s n) (.refl s)

theorem State.stage4_keeps (s : State) (n : ArmId) : Keeps s (s.stage4 n) := .ite (s.decideValve_keeps n) (.refl s)

theorem State.checkDeviation_keeps (s : State) (n : ArmId) : Keeps s (s.checkDeviation n) := by
  unfold State.checkDeviation
  split
  · exact .refl s
  · exact .ite (Keeps.after (State.detectIf_keeps _ _ n _) (s.modRatio_keeps n _)) (.refl s)

theorem State.stage5_keeps (s : State) (n : ArmId) : Keeps s (s.stage5 n) := by
  have h := (Keeps.after (State.checkDeviation_keeps _ n) (s.setSetpoint_keeps n))
  unfold State.stage5
  split
  · exact h
  · exact h
  · exact h
  · exact .ite (State.enterSettle_keeps State.examine_keeps s n) (s.setSetpoint_keeps n)
  · exact .refl s
  · exact .refl s
  · exact .refl s

theorem State.checkAdditive_keeps (s : State) (n : ArmId) : Keeps s (s.checkAdditive n) := by
  unfold State.checkAdditive
  split
  · exact .refl s
  · exact s.detectIf_keeps _ n _

theorem State.stage6_keeps (s : State) (n : ArmId) : Keeps s (s.stage6 n) := by
  unfold State.stage6
  split
  · exact .refl s
  · exact .ite (Keeps.after (State.issueArm_keeps _ n) (Keeps.after (State.checkAdditive_keeps _ n) (s.modActive_keeps n _ fun _ => rfl)))
      (.refl s)

theorem State.sample_keeps (s : State) (n : ArmId) : Keeps s (s.sample n) :=
  (Keeps.after (State.stage6_keeps _ n) (Keeps.after (State.stage5_keeps _ n) (Keeps.after (State.stage4_keeps _ n) (Keeps.after (State.stage3_keeps _ n) (Keeps.after (State.stage2_keeps _ n _ _) (s.stage1_keeps n))))))

/-! ## Meters, strokes and permissives -/

theorem State.closeWindow_keeps (s : State) (m : MeterId) (b : Bool) : Keeps s (s.closeWindow m b) :=
  (Keeps.after (State.detectIf_keeps _ _ _ _) (s.modMeter_keeps m _))

theorem State.countA_keeps (s : State) (m : MeterId) : Keeps s (s.countA m) :=
  .ite (Keeps.after (State.closeWindow_keeps _ m _) (s.modMeter_keeps m _)) (s.modMeter_keeps m _)

theorem State.countB_keeps (s : State) (m : MeterId) : Keeps s (s.countB m) :=
  .ite (Keeps.after (State.closeWindow_keeps _ m _) (s.modMeter_keeps m _)) (s.modMeter_keeps m _)

theorem State.reversePulse_keeps (s : State) (m : MeterId) : Keeps s (s.reversePulse m) :=
  (Keeps.after (State.detectIf_keeps _ _ _ _) (s.modMeter_keeps m _))

theorem State.afterJudgement_keeps (s : State) (i : InjId) : Keeps s (s.afterJudgement i) := by
  unfold State.afterJudgement
  split
  · exact (Keeps.after (State.endSettleIfOver_keeps _ _) (Keeps.after (State.markShort_keeps _ _ i) (s.tryIssue_keeps _ i)))
  · exact .refl s

theorem State.loseAt_keeps (s : State) (p : Permissive) (n : ArmId) : Keeps s (s.loseAt p n) :=
  .ite (Keeps.after (State.modAlarm_keeps _ n _) (Keeps.after (State.detect_keeps _ n _) (s.holdCause_keeps n _))) (.refl s)

theorem State.loseAll_keeps (s : State) (p : Permissive) : Keeps s (s.loseAll p) :=
  Keeps.foldl _ (fun s n => s.loseAt_keeps p n) s _

/-! ## Push-buttons (R103) -/

theorem State.startEdge_keeps (s : State) (n : ArmId) : Keeps s (s.startEdge n) := by
  unfold State.startEdge
  split
  · split
    · split
      · exact s.start_keeps n
      · exact s.resume_keeps n
      all_goals exact .refl s
    · exact .refl s
  · exact .refl s

theorem State.stopEdge_keeps (s : State) (n : ArmId) : Keeps s (s.stopEdge n) :=
  .ite (s.holdCause_keeps n _) (.refl s)

/-- The level of an arm's start button after a change, its own and the others'. -/
theorem setStart_start (v : ButtonLevels) (b : ButtonChange) (n : ArmId) :
    (setStart v b).start[n] = if b.arm = n then b.pressed else v.start[n] := by
  simp [setStart, Vector.getElem_set, Fin.ext_iff]

@[simp] theorem setStart_stop (v : ButtonLevels) (b : ButtonChange) : (setStart v b).stop = v.stop := rfl

/-- The level of an arm's stop button after a change, its own and the others'. -/
theorem setStop_stop (v : ButtonLevels) (b : ButtonChange) (n : ArmId) :
    (setStop v b).stop[n] = if b.arm = n then b.pressed else v.stop[n] := by
  simp [setStop, Vector.getElem_set, Fin.ext_iff]

@[simp] theorem setStop_start (v : ButtonLevels) (b : ButtonChange) : (setStop v b).start = v.start := rfl

/-- Only a change from released to pressed is an edge. -/
theorem isEdge_eq_true (before after : Bool) : isEdge before after = true ↔ before = false ∧ after = true := by
  cases before <;> simp [isEdge]

theorem State.orphanStrokes_keeps (s : State) (k : Nat) : Keeps s (s.orphanStrokes k) :=
  Keeps.foldl _ (fun s _ => s.modInjector_keeps _ _) s _

end Sys2Proof.Machine
end

