-- ==== Sys2Proof/Laws/Memory.lean ====
section
/-! SUPPORT. The settings memory: a read after a write, and that a write keeps the canonical form. -/

namespace Sys2Proof.Machine

theorem Memory.read_nil (a : Nat) : Memory.read [] a = unwrittenByte := rfl

theorem Memory.read_cons (c : Host.Cell) (m : Memory) (a : Nat) :
    Memory.read (c :: m) a = if c.1 = a then c.2 else Memory.read m a := rfl

theorem Memory.above_cons (a : Nat) (c : Host.Cell) (m : Memory) :
    Memory.above a (c :: m) = (decide (a < c.1) && Memory.above a m) := by
  simp [Memory.above]

theorem Memory.wf_cons (c : Host.Cell) (m : Memory) :
    Memory.wf (c :: m) = true ↔
      c.1 < memorySize ∧ c.2 ≠ unwrittenByte ∧ Memory.above c.1 m = true ∧ Memory.wf m = true := by
  simp only [Memory.wf, Bool.and_eq_true, decide_eq_true_eq, and_assoc]

/-- An address below every listed one is not listed. -/
theorem Memory.read_of_above {a b : Nat} {m : Memory} (h : Memory.above a m = true) (hb : b ≤ a) :
    m.read b = unwrittenByte := by
  induction m with
  | nil => rfl
  | cons c rest ih =>
    rw [Memory.above_cons, Bool.and_eq_true, decide_eq_true_eq] at h
    rw [Memory.read_cons, if_neg (by omega)]
    exact ih h.2

theorem Memory.above_mono {a b : Nat} {m : Memory} (h : Memory.above a m = true) (hb : b ≤ a) :
    Memory.above b m = true := by
  induction m with
  | nil => rfl
  | cons c rest ih =>
    rw [Memory.above_cons, Bool.and_eq_true, decide_eq_true_eq] at h ⊢
    exact ⟨by omega, ih h.2⟩

theorem Memory.read_cellFor_append_same (m : Memory) (a : Nat) (b : Byte)
    (h : Memory.above a m = true) : Memory.read (cellFor a b ++ m) a = b := by
  unfold cellFor
  split
  · rename_i hb
    rw [List.nil_append, Memory.read_of_above h (Nat.le_refl a), hb]
  · simp [Memory.read_cons]

theorem Memory.read_cellFor_append_other (m : Memory) {a c : Nat} (b : Byte) (h : c ≠ a) :
    Memory.read (cellFor a b ++ m) c = Memory.read m c := by
  unfold cellFor
  split
  · rfl
  · rw [List.singleton_append, Memory.read_cons, if_neg (fun e => h e.symm)]

/-- A read after a write to the same address gives the byte written. -/
theorem Memory.read_write_same (m : Memory) (a : Nat) (b : Byte) (h : m.wf = true) : (m.write a b).read a = b := by
  induction m with
  | nil => simpa [Memory.write] using Memory.read_cellFor_append_same [] a b rfl
  | cons c rest ih =>
    obtain ⟨-, -, hc, hr⟩ := (Memory.wf_cons c rest).1 h
    unfold Memory.write
    split
    · rename_i hlt
      rw [Memory.read_cons, if_neg (by omega)]
      exact ih hr
    · split
      · rename_i _ heq
        exact Memory.read_cellFor_append_same rest a b (by rw [← heq]; exact hc)
      · rename_i hlt hne
        refine Memory.read_cellFor_append_same (c :: rest) a b ?_
        rw [Memory.above_cons, Bool.and_eq_true, decide_eq_true_eq]
        exact ⟨by omega, Memory.above_mono hc (by omega)⟩

/-- A write leaves every other address as it was. -/
theorem Memory.read_write_other (m : Memory) {a c : Nat} (b : Byte) (h : c ≠ a) : (m.write a b).read c = m.read c := by
  induction m with
  | nil =>
    have := Memory.read_cellFor_append_other [] b h
    rwa [List.append_nil] at this
  | cons d rest ih =>
    unfold Memory.write
    split
    · rw [Memory.read_cons, Memory.read_cons, ih]
    · split
      · rename_i _ heq
        rw [Memory.read_cellFor_append_other rest b h, Memory.read_cons, if_neg (by omega)]
      · exact Memory.read_cellFor_append_other (d :: rest) b h

theorem Memory.above_cellFor_append {a d : Nat} {m : Memory} (b : Byte) (hd : d < a) (h : Memory.above d m = true) :
    Memory.above d (cellFor a b ++ m) = true := by
  unfold cellFor
  split
  · exact h
  · rw [List.singleton_append, Memory.above_cons, Bool.and_eq_true, decide_eq_true_eq]
    exact ⟨hd, h⟩

theorem Memory.wf_cellFor_append {a : Nat} {m : Memory} (b : Byte) (ha : a < memorySize)
    (h : Memory.above a m = true) (hm : m.wf = true) : Memory.wf (cellFor a b ++ m) = true := by
  unfold cellFor
  split
  · exact hm
  · rename_i hb
    exact (Memory.wf_cons _ _).2 ⟨ha, hb, h, hm⟩

theorem Memory.above_write {a d : Nat} {m : Memory} (b : Byte) (hd : d < a) (h : Memory.above d m = true) :
    Memory.above d (m.write a b) = true := by
  induction m with
  | nil => simpa [Memory.write] using Memory.above_cellFor_append (m := []) b hd rfl
  | cons c rest ih =>
    have h' := h
    rw [Memory.above_cons, Bool.and_eq_true, decide_eq_true_eq] at h'
    unfold Memory.write
    split
    · rw [Memory.above_cons, Bool.and_eq_true, decide_eq_true_eq]
      exact ⟨h'.1, ih h'.2⟩
    · split
      · exact Memory.above_cellFor_append b hd h'.2
      · exact Memory.above_cellFor_append b hd h

/-- A write to an address of the memory keeps the canonical form. -/
theorem Memory.write_wf (m : Memory) (a : Nat) (b : Byte) (ha : a < memorySize) (h : m.wf = true) :
    (m.write a b).wf = true := by
  induction m with
  | nil =>
    have := Memory.wf_cellFor_append (m := []) b ha rfl rfl
    rwa [List.append_nil] at this
  | cons c rest ih =>
    obtain ⟨h1, h2, h3, h4⟩ := (Memory.wf_cons c rest).1 h
    unfold Memory.write
    split
    · rename_i hlt
      exact (Memory.wf_cons _ _).2 ⟨h1, h2, Memory.above_write b hlt h3, ih h4⟩
    · split
      · rename_i _ heq
        exact Memory.wf_cellFor_append b ha (by rw [← heq]; exact h3) h4
      · refine Memory.wf_cellFor_append b ha ?_ h
        rw [Memory.above_cons, Bool.and_eq_true, decide_eq_true_eq]
        exact ⟨by omega, Memory.above_mono h3 (by omega)⟩

/-- Memories in canonical form that read alike everywhere are the same list. -/
theorem Memory.eq_of_read_eq (m k : Memory) (hm : m.wf = true) (hk : k.wf = true) (h : ∀ a, m.read a = k.read a) :
    m = k := by
  induction m generalizing k with
  | nil =>
    cases k with
    | nil => rfl
    | cons c rest =>
      obtain ⟨-, h2, -, -⟩ := (Memory.wf_cons c rest).1 hk
      have := h c.1
      rw [Memory.read_nil, Memory.read_cons, if_pos rfl] at this
      exact absurd this.symm h2
  | cons c rest ih =>
    obtain ⟨-, c2, c3, c4⟩ := (Memory.wf_cons c rest).1 hm
    cases k with
    | nil =>
      have := h c.1
      rw [Memory.read_nil, Memory.read_cons, if_pos rfl] at this
      exact absurd this c2
    | cons d rest' =>
      obtain ⟨-, d2, d3, d4⟩ := (Memory.wf_cons d rest').1 hk
      have hc := h c.1
      have hd := h d.1
      rw [Memory.read_cons, if_pos rfl, Memory.read_cons] at hc
      rw [Memory.read_cons, Memory.read_cons, if_pos rfl] at hd
      have key : c.1 = d.1 := by
        by_contra hne
        rw [if_neg (fun e => hne e.symm)] at hc
        rw [if_neg hne] at hd
        rcases Nat.lt_or_ge c.1 d.1 with hlt | hge
        · exact c2 (hc.trans (Memory.read_of_above d3 (Nat.le_of_lt hlt)))
        · exact d2 (hd.symm.trans (Memory.read_of_above c3 hge))
      rw [if_pos key.symm] at hc
      have hcd : c = d := Prod.ext key hc
      subst hcd
      congr 1
      refine ih rest' c4 d4 fun a => ?_
      by_cases ha : c.1 = a
      · rw [Memory.read_of_above c3 (Nat.le_of_eq ha.symm), Memory.read_of_above d3 (Nat.le_of_eq ha.symm)]
      · have := h a
        rwa [Memory.read_cons, Memory.read_cons, if_neg ha, if_neg ha] at this

/-- The memory right after reset has the canonical form. -/
theorem State.reset_memory_wf : State.reset.memory.wf = true := rfl

end Sys2Proof.Machine
end

