-- ==== Sys2Proof/Laws/Outputs.lean ====
section
/-! SUPPORT. The line LTX: the bits of a reply's frame, 11 for each character (R177), and the idle level (R176). -/

namespace Sys2Proof.Machine

theorem characterBits_length (mark : Bool) (b : Byte) : (characterBits mark b).length = 11 := rfl

theorem flatMap_characterBits_length (bs : List Byte) : (bs.flatMap (characterBits false)).length = 11 * bs.length := by
  induction bs with
  | nil => rfl
  | cons b bs ih => rw [List.flatMap_cons, List.length_append, ih, characterBits_length, List.length_cons]; omega

theorem frameBits_length (bs : List Byte) : (frameBits bs).length = 11 * bs.length := by
  cases bs with
  | nil => rfl
  | cons b bs =>
    rw [frameBits, List.length_append, flatMap_characterBits_length, characterBits_length, List.length_cons]
    omega

/-- A character after the first stands at its 11 bit times. -/
theorem flatMap_characterBits_getElem? (bs : List Byte) (k j : Nat) (b : Byte) (hb : bs[k]? = some b) (hj : j < 11) :
    (bs.flatMap (characterBits false))[11 * k + j]? = (characterBits false b)[j]? := by
  induction bs generalizing k with
  | nil => simp at hb
  | cons c bs ih =>
    rw [List.flatMap_cons]
    cases k with
    | zero =>
      rw [List.getElem?_cons_zero, Option.some.injEq] at hb
      rw [List.getElem?_append_left (by rw [characterBits_length]; omega), hb, Nat.mul_zero, Nat.zero_add]
    | succ k =>
      rw [List.getElem?_cons_succ] at hb
      rw [List.getElem?_append_right (by rw [characterBits_length]; omega), characterBits_length,
        show 11 * (k + 1) + j - 11 = 11 * k + j by omega, ih k hb]

/-- Every character of a frame stands at its 11 bit times, the address mark on the first alone. -/
theorem frameBits_getElem? (bs : List Byte) (k j : Nat) (b : Byte) (hb : bs[k]? = some b) (hj : j < 11) :
    (frameBits bs)[11 * k + j]? = (characterBits (decide (k = 0)) b)[j]? := by
  cases bs with
  | nil => simp at hb
  | cons c bs =>
    cases k with
    | zero =>
      rw [List.getElem?_cons_zero, Option.some.injEq] at hb
      rw [frameBits, List.getElem?_append_left (by rw [characterBits_length]; omega), hb, Nat.mul_zero, Nat.zero_add]
      rfl
    | succ k =>
      rw [List.getElem?_cons_succ] at hb
      rw [frameBits, List.getElem?_append_right (by rw [characterBits_length]; omega), characterBits_length,
        show 11 * (k + 1) + j - 11 = 11 * k + j by omega, flatMap_characterBits_getElem? bs k j b hb hj]
      simp

theorem State.lineBits_idle {s : State} (h : s.link.sending = none) : s.lineBits = [] := by
  rw [State.lineBits, h]

theorem State.lineBits_sending {s : State} {frame : List Byte} (h : s.link.sending = some frame) :
    s.lineBits = frameBits frame := by
  rw [State.lineBits, h]

end Sys2Proof.Machine
end

