-- ==== Sys2Proof/Laws/Stored.lean ====
section
/-! SUPPORT. Reading back what a save writes (R196, R199): the bytes a memory holds from an address on, each item's
value put into its own slot, and an area that holds the image of some settings read valid. -/

namespace Sys2Proof.Machine

/-! ## A memory that holds a run of bytes -/

/-- The memory that holds these bytes from an address on, and nothing else. -/
def Memory.holding : Nat → List Byte → Memory
  | _, [] => []
  | a, b :: rest => cellFor a b ++ Memory.holding (a + 1) rest

theorem Memory.above_holding (bs : List Byte) : ∀ {a d : Nat}, d < a → Memory.above d (Memory.holding a bs) = true := by
  induction bs with
  | nil => intros; rfl
  | cons b rest ih =>
    intro a d h
    exact Memory.above_cellFor_append b h (ih (by omega))

theorem Memory.read_holding (bs : List Byte) :
    ∀ a i, (Memory.holding a bs).read (a + i) = bs[i]?.getD unwrittenByte := by
  induction bs with
  | nil => intros; rfl
  | cons b rest ih =>
    intro a i
    cases i with
    | zero => simpa [Memory.holding] using Memory.read_cellFor_append_same _ a b (Memory.above_holding rest (Nat.lt_succ_self a))
    | succ i =>
      rw [Memory.holding, Memory.read_cellFor_append_other _ b (by omega), show a + (i + 1) = a + 1 + i by omega, ih]
      simp

/-- A run of the bytes held is read as it stands. -/
theorem Memory.readRun_holding (xs zs : List Byte) (a : Nat) (ys : List Byte) :
    (Memory.holding a (xs ++ (ys ++ zs))).readRun (a + xs.length) ys.length = ys := by
  induction ys generalizing xs with
  | nil => rfl
  | cons y ys ih =>
    have hr := ih (xs ++ [y])
    simp only [List.append_assoc, List.singleton_append, List.length_append, List.length_singleton, ← Nat.add_assoc] at hr
    rw [List.length_cons, Memory.readRun, Memory.read_holding, List.cons_append, hr]
    simp

/-! ## A value put into its own slot -/

theorem boolCode_beq_one (b : Bool) : (boolCode b == 1) = b := by cases b <;> rfl

theorem AlarmClass.ofCode_code (x : AlarmClass) : AlarmClass.ofCode x.code = x := by cases x <;> rfl

theorem SilenceAction.ofCode_code (x : SilenceAction) : SilenceAction.ofCode x.code = x := by cases x <;> rfl

theorem ArmSettings.setItem_item (c : ArmSettings) (k : Nat) : c.setItem (c.item k) k = c := by
  unfold ArmSettings.setItem ArmSettings.item
  split <;> simp [boolCode_beq_one]

theorem MeterSettings.setItem_item (c : MeterSettings) (k : Nat) : c.setItem (c.item k) k = c := by
  unfold MeterSettings.setItem MeterSettings.item
  split <;> simp [boolCode_beq_one]

theorem InjSettings.setItem_item (c : InjSettings) (k : Nat) : c.setItem (c.item k) k = c := by
  unfold InjSettings.setItem InjSettings.item
  split <;> rfl

theorem StationSettings.setItem_item (c : StationSettings) (k : Nat) : c.setItem (c.item k) k = c := by
  unfold StationSettings.setItem StationSettings.item
  split <;> simp [SilenceAction.ofCode_code]

theorem StationSettings.setClass_classItem (c : StationSettings) (k : Fin 11) : c.setClass k (c.classItem k) = c := by
  unfold StationSettings.setClass StationSettings.classItem
  split <;> simp

/-- A slot's own value put into it changes nothing. -/
theorem Settings.put_get (c : Settings) (slot : Slot) : c.put (c.get slot) slot = c := by
  cases slot <;>
    simp [Settings.put, Settings.get, ArmSettings.setItem_item, MeterSettings.setItem_item, InjSettings.setItem_item,
      StationSettings.setItem_item, AlarmClass.ofCode_code, StationSettings.setClass_classItem]

/-! ## An area that holds an image -/

theorem fromBytes_be24 {n : Nat} (h : n < 16777216) : fromBytes (be24 n) = n := by
  simp only [fromBytes, be24, byteOf, List.foldl_cons, List.foldl_nil, BitVec.toNat_ofNat]
  omega

/-- An item whose own value is in range, and fits three bytes. -/
def Settings.itemOk (c : Settings) (p : Nat × Nat) : Bool :=
  (slotOf p.1 p.2).isSome && itemInRange p.1 p.2 (c.value p.1 p.2) && decide (c.value p.1 p.2 < 16777216)

theorem Settings.takeItems_own (c : Settings) (tail : List Byte) :
    ∀ slots : List (Nat × Nat), slots.all c.itemOk = true →
      c.takeItems slots ((slots.flatMap fun p => be24 (c.value p.1 p.2)) ++ tail) = some c := by
  intro slots
  induction slots with
  | nil => intros; rfl
  | cons p rest ih =>
    intro h
    simp only [List.all_cons, Bool.and_eq_true, Settings.itemOk, decide_eq_true_eq] at h
    obtain ⟨⟨⟨h1, h2⟩, h3⟩, h4⟩ := h
    obtain ⟨slot, hs⟩ := Option.isSome_iff_exists.mp h1
    have hv : c.value p.1 p.2 = c.get slot := by simp [Settings.value, hs]
    have hb := fromBytes_be24 h3
    simp only [be24] at hb
    simp only [List.flatMap_cons, be24, List.cons_append, List.nil_append, Settings.takeItems, hb, h2, if_true, hs]
    rw [hv, Settings.put_get]
    exact ih h4

/-- An area that holds the image of the settings, all in range and by the rules, is read valid and gives them. -/
theorem Settings.loadArea_own (c : Settings) (a : Area) (m : Memory) (hd : m.areaData a = c.areaData a)
    (hc : m.areaCrc a = crcBytes (c.areaData a)) (hi : a.slots.all c.itemOk = true) (hr : c.rulesHold = true) :
    c.loadArea a m false = some c := by
  unfold Settings.loadArea
  rw [hd, hc]
  simp only [Settings.areaData, Settings.takeItems_own c _ a.slots hi, hr]
  simp

/-- The memory after a save of the settings: both images (R199). -/
def Settings.saved (c : Settings) : Memory := Memory.holding 0 (c.areaImage .m ++ c.areaImage .l)

theorem crcBytes_length (bs : List Byte) : (crcBytes bs).length = 2 := rfl

/-- The images of the two areas lie at their places. -/
theorem Settings.saved_areas (c : Settings) (hm : (c.areaData .m).length = 1534) (hl : (c.areaData .l).length = 510)
    (a : Area) : c.saved.areaData a = c.areaData a ∧ c.saved.areaCrc a = crcBytes (c.areaData a) := by
  have run := fun xs ys zs => Memory.readRun_holding xs zs 0 ys
  have shape : c.saved = Memory.holding 0
      (c.areaData .m ++ (crcBytes (c.areaData .m) ++ (c.areaData .l ++ (crcBytes (c.areaData .l) ++ [])))) := by
    simp [Settings.saved, Settings.areaImage]
  rw [shape]
  cases a
  · have h1 := run [] (c.areaData .m) (crcBytes (c.areaData .m) ++ (c.areaData .l ++ (crcBytes (c.areaData .l) ++ [])))
    have h2 := run (c.areaData .m) (crcBytes (c.areaData .m)) (c.areaData .l ++ (crcBytes (c.areaData .l) ++ []))
    rw [hm, List.nil_append] at h1
    rw [hm] at h2
    exact ⟨h1, h2⟩
  · have h3 := run (c.areaData .m ++ crcBytes (c.areaData .m)) (c.areaData .l) (crcBytes (c.areaData .l) ++ [])
    have h4 := run (c.areaData .m ++ (crcBytes (c.areaData .m) ++ c.areaData .l)) (crcBytes (c.areaData .l)) []
    simp only [List.append_assoc, List.length_append, hm, hl, crcBytes_length] at h3 h4
    exact ⟨h3, h4⟩

end Sys2Proof.Machine
end

