-- ==== Sys2Proof/Tests/Slice0.lean ====
section
/-! SUPPORT. Tests: what WellFormed refuses, worked cases of the manual, and for each statement with hypotheses
concrete states and operands that meet them, clause by clause. -/

namespace Sys2Proof.Tests

open Sys2Proof Sys2Proof.Machine

/-! ## What WellFormed refuses -/

/-- A frame with the bytes after its mark. -/
def frameOf (bs : List Byte) : RxFrame := ⟨false, bs⟩

/-- A payload too long by one byte for any frame. -/
def longPayload : List Byte := List.replicate 250 0

theorem test_loadingEnd_three_attempts : (Instr.loadingEnd 4 0 ⟨PermLevels.none, ButtonLevels.none⟩ 0).wellFormed = false := by decide
theorem test_loadingEnd_area_l : (Instr.loadingEnd 0 4 ⟨PermLevels.none, ButtonLevels.none⟩ 0).wellFormed = false := by decide
theorem test_holdLimit_no_load_zero : (Instr.holdLimitExpiry 0).wellFormed = false := by decide
theorem test_holdLimit_no_load_65536 : (Instr.holdLimitExpiry 65536).wellFormed = false := by decide
theorem test_request_too_long : (Instr.readLoad longPayload).wellFormed = false := by decide +kernel
theorem test_request_longest : (Instr.readLoad (longPayload.drop 1)).wellFormed = true := by decide +kernel
theorem test_unknown_known_code : (Instr.unknownRequest 0x01 []).wellFormed = false := by decide
theorem test_unknown_holdAll : (Instr.unknownRequest 0x50 []).wellFormed = true := by decide
theorem test_ignored_is_holdAll : (Instr.broadcastIgnored 0x50 []).wellFormed = false := by decide
theorem test_ignored_longer_holdAll : (Instr.broadcastIgnored 0x50 [0]).wellFormed = true := by decide
theorem test_framing_after_end :
    (Instr.frameDiscard .framingError (frameOf [1, 0x24, 0, 0])).wellFormed = false := by decide
theorem test_badLength_of_good : (Instr.frameDiscard .badLength (frameOf [250])).wellFormed = false := by decide
theorem test_badLength_zero : (Instr.frameDiscard .badLength (frameOf [0])).wellFormed = true := by decide
theorem test_badLength_251 : (Instr.frameDiscard .badLength (frameOf [251])).wellFormed = true := by decide
theorem test_abandoned_complete :
    (Instr.frameDiscard (.abandoned false) (frameOf [1, 0x24, 0, 0])).wellFormed = false := by decide
theorem test_crcMismatch_of_good :
    (Instr.frameDiscard .crcMismatch (frameOf (encodeFrame 0x24 []))).wellFormed = false := by decide +kernel
theorem test_idle_complete : (Instr.frameIdleTimeout (frameOf [1, 0x24, 0, 0])).wellFormed = false := by decide
theorem test_other_station_broadcast : (Instr.frameForOtherStation 0 none).wellFormed = false := by decide
theorem test_other_station_begun_complete :
    (Instr.frameForOtherStation 9 (some (frameOf [1, 0x24, 0, 0]))).wellFormed = false := by decide

/-! ## Arithmetic, from the manual's formulas and worked cases -/

/-- The check value of the CRC with polynomial 1021h and initial value FFFFh over "123456789" (R181). -/
theorem test_crc_check_value :
    crcBytes [0x31, 0x32, 0x33, 0x34, 0x35, 0x36, 0x37, 0x38, 0x39] = [0x29, 0xB1] := by decide +kernel

/-- The gas meter of the worked case "arm 3, one sample" (04_volume_arithmetic.md). -/
def gasCurve : MeterSettings :=
  { MeterSettings.default with
    kFactor := 250000, q1 := 400, q2 := 1000, q3 := 2000, q4 := 3000
    f1 := 10012, f2 := 10005, f3 := 9998, f4 := 9994 }

theorem test_gas_sample :
    let v := sampleMeter gasCurve 100 2450 { Meter.start with pending := 1000, carryG := 7000, carryN := 500000 }
    (v.flow, v.gross, v.net, v.meter.carryI, v.meter.carryG, v.meter.carryN, v.meter.pending) =
      (2400, 3999, 3953, 0, 1000, 911400, 0) := by decide

theorem test_ethanol_sample :
    let v := sampleMeter { MeterSettings.default with kFactor := 100000, alpha := 1100 } 100 2200
      { Meter.start with pending := 27, carryI := 40000 }
    (v.flow, v.gross, v.net, v.meter.carryI, v.meter.carryG, v.meter.carryN) = (162, 270, 267, 40000, 0, 921000) := by
  decide

/-- No sample takes more than 2,500 pulses (R49). -/
theorem test_sample_leaves_the_rest :
    (sampleMeter gasCurve 100 2450 { Meter.start with pending := 2600 }).meter.pending = 100 := by decide

/-- The worked case of the meter factor at several flow rates (04_volume_arithmetic.md). -/
theorem test_factor_curve :
    [0, 400, 700, 1000, 1500, 2400, 3000, 5200].map gasCurve.factor =
      [10012, 10012, 10008, 10005, 10001, 9996, 9994, 9994] := by decide

/-- The worked case of ratio control, and the throttle limit at 250 and at f = 850 (06_ratio_control.md). -/
theorem test_ratio_arithmetic :
    (requiredEthanol 1200000 100, setpointFor 2400 100 2833 10 293, throttleLimit 293 100, throttleLimit 250 100,
      throttleLimit 600 850, setpointFor 2400 100 (-5000000) 10 293) = (133333, 282, 2397, 2045, 96, 0) := by decide

/-- The deadband of the same case is 47, so 2,400 against 2,397 is HOLD. -/
theorem test_valve_command :
    (valveFor 2400 2397 2, valveFor 2349 2397 2, valveFor 2350 2397 2, valveFor 2444 2397 2, valveFor 2445 2397 2) =
      (.hold, .openFurther, .hold, .hold, .close) := by decide

/-- Amounts of 07_ethanol_header_allocation.md: 48, 293, the clamp to E_max, and the least amount of 1. -/
theorem test_reservation_amounts :
    (levelAmount 400 100 600 900, levelAmount 2400 100 600 900, levelAmount 400 850 600 6000, levelAmount 50 1 600 900,
      levelAmount 400 0 600 900) = (48, 293, 600, 1, 0) := by decide

/-- The intervals and minimum intervals at staging (08_additive_injection.md). -/
theorem test_intervals :
    (interval 100 250, interval 20 40, interval 20 90,
      minInterval 2400 { InjSettings.default with strokeTime := 250, tail := 200 },
      minInterval 2400 { InjSettings.default with strokeTime := 300, tail := 300 }) =
      (40000, 50000, 22222, 18000, 24000) := by decide

/-- Signed fields are in two's complement, high byte first (R192). -/
theorem test_signed_fields :
    (signed16 (-4000), signed32 (clampSigned32 (-1)), fromBytes [0x01, 0x02]) = ([0xF0, 0x60], [255, 255, 255, 255], 258) := by
  decide

/-! ## States for the tests -/

def allMet : PermLevels := ⟨true, true, true, true, true, true, Vector.replicate 8 true⟩

/-- Every arm in service, a header of 900 L/min, injector 1 on arm 1 with code 3. -/
def testSettings : Settings where
  arms := Vector.replicate 8 { ArmSettings.default with inService := true }
  meters := Vector.replicate 16 MeterSettings.default
  injectors := (Vector.replicate 12 InjSettings.default).set 0 { InjSettings.default with arm := 1, code := 3 }
  station := { StationSettings.default with capacity := 900 }

/-- RUNNING, every arm AVAILABLE with its sample due at 50 ms, no records. -/
def running : State :=
  { State.reset with
    store := { Store.reset with mode := .running, startTimer := none }
    settings := testSettings
    levels := allMet
    channels := Vector.replicate 16 ⟨some ⟨2450, true, 0⟩, some 2450, some 0, 3⟩
    arms := Vector.replicate 8 { ArmSeq.start (History.all 15000) with mode := .available, sampleClock := some 50 } }

/-- RUNNING with recipe 12 and one record. -/
def withRecord (l : Load) : State := { running with loads := [l], recipes := [⟨12, .active, 100, 5, [⟨3, 250⟩], 1⟩] }

/-- Load 7 on arm 1, 8,000 L of recipe 12, READY. -/
def readyLoad : Load := { Load.staged 7 0 12 8000 [⟨3, 0, 40000, 0, 0, 0, 0⟩] with state := .ready }

def deliveringLoad (p : Phase) : Load :=
  { readyLoad with
    state := .delivering, phase := some p, abortTaken := some false
    upgradePending := if p = .low then some false else none }

def heldLoad : Load := { readyLoad with state := .held, holdTimer := some 1200000, holdCount := 1, lastCause := some .host }

def ready : State := withRecord readyLoad
def held : State := withRecord heldLoad

/-- A record in a phase with a reservation of 48 L/min at LOW and the gas target of both, and its injector IDLE. -/
def inPhase (p : Phase) : State :=
  (((withRecord (deliveringLoad p)).setResv 0 ⟨.low, 48, 48⟩).setInjector 0
    { Injector.start with state := .idle, mask := false }).retarget 0

def low : State := inPhase .low

def finish : State := (inPhase .finish).setRatio 0 ⟨30, none, some 10000⟩

/-- In SETTLE, with nothing reserved and the settle timer running. -/
def settle : State :=
  ((withRecord (deliveringLoad .settle)).setArm 0 { running.arm 0 with settle := .running 3000 }).setInjector 0
    { Injector.start with state := .idle, mask := false }

/-- In HEADER_WAIT, its request at the head of the queue. -/
def waiting : State := { withRecord (deliveringLoad .headerWait) with queue := [⟨0, .low, 48⟩] }

/-- Arm 1 flowing on 48 of the header's 50 L/min, arm 2 waiting for 48. -/
def shared : State :=
  let other := { deliveringLoad .headerWait with number := 8, arm := 1, entries := [] }
  { low with
    loads := [deliveringLoad .low, other]
    recipes := [⟨12, .active, 100, 5, [⟨3, 250⟩], 2⟩]
    queue := [⟨1, .low, 48⟩]
    settings := { testSettings with station := { testSettings.station with capacity := 50 } }
    reservations := low.reservations.set 1 ⟨.none, 0, 48⟩ }

/-- The state with the start or the stop button of arm 1 held down. -/
def pressing (s : State) : State := s.withButtons (setStop (setStart s.buttons ⟨0, true⟩) ⟨0, true⟩)

/-- The fields of DeliveryOk in one conjunction. -/
theorem deliveryOk_of {s : State}
    (h : (s.loads.length ≤ 16 ∧ (s.loads.map (·.number)).Nodup ∧ s.recipes.length ≤ 24 ∧ (s.recipes.map (·.number)).Nodup ∧
        (∀ r ∈ s.recipes, r.count = s.namedBy r.number) ∧ (∀ l ∈ s.loads, (s.recipe? l.recipe).isSome = true) ∧
        ∀ r ∈ s.recipes, r.state = .retiring → 0 < r.count) ∧
      ((∀ n : ArmId, ((s.armList n).filter Load.isActive).length ≤ 1) ∧ (∀ n : ArmId, s.stagedCount n ≤ 3) ∧
        ∀ n : ArmId, (s.armList n).Pairwise fun a b => a.state.rank ≤ b.state.rank) ∧
      (s.isRunning = false → s.loads = []) ∧ (s.queue.map (·.arm)).Nodup ∧ (∀ r ∈ s.queue, s.requestFits r = true) ∧
      (∀ n : ArmId, s.permitted n = true) ∧ (∀ n : ArmId, (s.arm n).valve ≠ .close → flowingPhase (s.phase n) = true) ∧
      ∀ n : ArmId, 0 < (s.ratio n).setpoint → blendingPhase (s.phase n) = true) : s.DeliveryOk := by
  obtain ⟨⟨a1, a2, a3, a4, a5, a6, a7⟩, ⟨b1, b2, b3⟩, c, d, e, f, g, i⟩ := h
  exact ⟨⟨a1, a2, a3, a4, a5, a6, a7⟩, ⟨b1, b2, b3⟩, c, d, e, f, g, i⟩

theorem test_ok_ready : ready.DeliveryOk := deliveryOk_of (by decide)
theorem test_ok_held : held.DeliveryOk := deliveryOk_of (by decide)
theorem test_ok_low : low.DeliveryOk := deliveryOk_of (by decide)
theorem test_ok_high : (inPhase .high).DeliveryOk := deliveryOk_of (by decide)
theorem test_ok_taper : (inPhase .taper).DeliveryOk := deliveryOk_of (by decide)
theorem test_ok_finish : finish.DeliveryOk := deliveryOk_of (by decide)
theorem test_ok_settle : settle.DeliveryOk := deliveryOk_of (by decide)
theorem test_ok_waiting : waiting.DeliveryOk := deliveryOk_of (by decide)
theorem test_ok_shared : shared.DeliveryOk := deliveryOk_of (by decide)

/-- A record in LOW, alone and with another arm waiting, meets the header's invariant: hypotheses of
StepsKeepTheHeaderWithinCapacity. -/
theorem test_ok_header : low.HeaderOk ∧ shared.HeaderOk :=
  ⟨⟨by decide, by decide, by decide, by decide, by decide, by decide, by decide, by decide, by decide⟩,
    ⟨by decide, by decide, by decide, by decide, by decide, by decide, by decide, by decide, by decide⟩⟩

theorem test_accepts : ready.Accepts ∧ held.Accepts ∧ low.Accepts ∧ finish.Accepts ∧ settle.Accepts :=
  ⟨⟨by decide, by decide⟩, ⟨by decide, by decide⟩, ⟨by decide, by decide⟩, ⟨by decide, by decide⟩, ⟨by decide, by decide⟩⟩

/-! ## One step of each kind of command -/

/-- The field of the state after a command; none for a stop. -/
def after (c : Instr) (s : State) (f : State → α) : Option α :=
  match exec c s with
  | .next t => some (f t)
  | .fault _ | .refused _ => none

def linkResult (s : State) : Option Result := s.link.reply.map (·.result)

/-- The state with one meter's counts set. -/
def withMeter (m : MeterId) (x : Meter) : State := running.setMeter m x

/-- POWER_ON lasts 100 ms (R193, R195). -/
theorem test_powerOnEnd :
    after (.powerOnEnd 5) State.reset (fun t => (t.now, t.store.mode, t.link.address)) = some (100, .loading, 5) := by
  decide

/-- Both areas failed: UNCONFIGURED, defaults, CONFIG_DEFAULTED (R196). -/
theorem test_loadingEnd_failed :
    after (.loadingEnd 3 3 ⟨allMet, ButtonLevels.none⟩ 5) { State.reset with store := { Store.reset with mode := .loading, sampledStraps := 5 } }
      (fun t => (t.store.mode, t.stationAlarms, t.link.silence)) =
      some (.unconfigured, [.restarted, .configDefaulted], some 30000) := by decide

/-- The LOW amount of the header chapter's arms is 48, and at entry the valve opens (R88, R132). -/
theorem test_start :
    after (.startLoad [0, 7]) ready (fun t => (t.phase 0, (t.resv 0).amount, (t.arm 0).valve, linkResult t)) =
      some (some .low, 48, .openFurther, some .ok) := by decide

/-- With no free capacity the record waits (R98, R134). -/
theorem test_start_waits :
    after (.startButtonEdge ⟨0, true⟩) (ready.setResv 1 ⟨.high, 853, 48⟩) (fun t => (t.phase 0, t.queue)) =
      some (some .headerWait, [⟨0, .low, 48⟩]) := by decide

/-- A button already held gives no edge; released and pressed again it does (R103). -/
theorem test_button_held :
    (after (.startButtonEdge ⟨0, true⟩) (pressing ready) (fun t => t.phase 0),
      after (.startButtonEdge ⟨0, false⟩) (pressing ready) (fun t => (t.phase 0, t.buttons.start[0])),
      after (.stopButtonEdge ⟨0, true⟩) (pressing low) (fun t => t.phase 0)) =
      (some none, some (none, false), some (some .low)) := by decide

/-- While RESETn is held low no button is read (R193). -/
theorem test_button_in_reset :
    exec (.startButtonEdge ⟨0, true⟩) { State.reset with store := { Store.reset with resetLow := true } } =
      .next { State.reset with store := { Store.reset with resetLow := true } } := rfl

/-- When arm 1 is held, arm 2's request is granted from the head of the queue (R138, R135, R136). -/
theorem test_hold_grants :
    after (.stopButtonEdge ⟨0, true⟩) shared (fun t => (t.phase 0, t.phase 1, t.queue, (t.resv 1).amount)) =
      some (none, some .low, [], 48) := by decide

/-- A permissive loss holds the record and latches PERMIT_LOSS with its source (R164). -/
theorem test_loss :
    after (.permissiveLoss (.ground .a)) low
      (fun t => ((t.active 0).map (·.state), (t.alarm 0).latched, (t.alarm 0).sources, (t.alarm 4).latched)) =
      some (some .held, [.permitLoss], [.ground], []) := by decide +kernel

/-- The worked sequence of a back-surge: with a limit of 20 the 21st reverse pulse is detected (R48). -/
theorem test_reverse_limit :
    (after (.meterAEdge 4 true) (withMeter 4 { Meter.start with debt := 19 }) (fun t => (t.alarm 2).latched),
      after (.meterAEdge 4 true) (withMeter 4 { Meter.start with debt := 20 }) (fun t => (t.alarm 2).latched)) =
      (some [], some [.reverseFlow]) := by decide

/-- The worked sequence of a broken B lead: windows 1 to 3 of meter 12 (R52). -/
theorem test_windows :
    (after (.meterAEdge 11 false) (withMeter 11 { Meter.start with windowA := 999, windowB := 997 })
        (fun t => ((t.meter 11).mismatches, (t.alarm 5).latched)),
      after (.meterAEdge 11 false) (withMeter 11 { Meter.start with windowA := 999, windowB := 400 })
        (fun t => ((t.meter 11).mismatches, (t.alarm 5).latched)),
      after (.meterAEdge 11 false) (withMeter 11 { Meter.start with windowA := 999, mismatches := 1 })
        (fun t => ((t.meter 11).mismatches, (t.alarm 5).latched))) =
      (some (0, []), some (1, []), some (0, [.pulseEth])) := by decide

/-- A B count of 1,006 closes the window early (R51, R52). -/
theorem test_early_close :
    (after (.meterBEdge 11) (withMeter 11 { Meter.start with windowB := 1004 }) (fun t => (t.meter 11).windowB),
      after (.meterBEdge 11) (withMeter 11 { Meter.start with windowB := 1005 }) (fun t => (t.meter 11).windowB)) =
      (some 1005, some 0) := by decide

/-- 10.3 L of unassigned volume pass a leak limit of 10 L (R55): 1,030 pulses at 100 per litre. -/
theorem test_unassigned :
    after (.sampleEvent 1) (withMeter 2 { Meter.start with pending := 1030 })
      (fun t => (decide (10000 < (t.meter 2).unassigned), (t.alarm 1).latched, (t.arm 1).sampleClock)) =
      some (true, [.unauthFlow], some 150) := by decide

/-- A sample in LOW: 60 pulses at 100 per litre are 600 mL, 360 L/min against a target of 392 L/min. -/
theorem test_sample_in_low :
    after (.sampleEvent 0)
      ((low.setArm 0 { low.arm 0 with gasTarget := 392 }).setMeter 0 { Meter.start with pending := 60 })
      (fun t => ((t.active 0).map (·.gasGross), (t.arm 0).qGas, (t.arm 0).valve)) =
      some (some 600, 360, .openFurther) := by decide

/-- A HELD record whose limit runs out ends with HOLD_EXPIRED (R17, R26). -/
theorem test_hold_expires :
    after (.holdLimitExpiry 7) held (fun t => (t.loads.map (·.endReason), (t.active 0).isSome, t.now)) =
      some ([some .holdExpired], false, 1200000) := by decide

/-- A settle timer that runs out with the injectors done ends the record COMPLETE (R93, R26). -/
theorem test_settle_ends :
    after (.settleExpiry 0) settle (fun t => (t.loads.map (·.endReason), t.loads.map (·.overrun), t.attention)) =
      some ([some .complete], [some (-8000000)], 1) := by decide

/-- The threshold of 400 pulses at 10 per cent is 360 (R152). -/
theorem test_judgement :
    let s := fun pulses => low.setInjector 0 ⟨.verifying, true, some ⟨some 7⟩, pulses, 0, some 400⟩
    (after (.verifyTailEnd 0) (s 359) (fun t => t.loads.map fun l => l.entries.map fun e => (e.verified, e.injected)),
      after (.verifyTailEnd 0) (s 360) (fun t => t.loads.map fun l => l.entries.map fun e => (e.verified, e.injected))) =
      (some [[(0, 0)]], some [[(1, 90)]]) := by decide

/-- READ ARM has a payload of 47 bytes (R192). -/
theorem test_readArm_length :
    after (.readArm [1]) low (fun t => t.link.reply.map (·.payload.length)) = some (some 47) := by decide

/-- The worked sequence of checks at definition: the range stands before the duplicate. -/
theorem test_define_order :
    (after (.defineRecipe [0, 12, 3, 132, 5, 0]) ready linkResult,
      after (.defineRecipe [0, 12, 0, 150, 5, 2, 3, 0, 250, 3, 0, 250]) ready linkResult,
      after (.defineRecipe [0, 12, 0, 150, 5, 0]) ready linkResult,
      after (.defineRecipe [0, 77, 0, 150, 5, 0]) ready linkResult) =
      (some (some .badField), some (some .badField), some (some .duplicate), some (some .ok)) := by decide

/-- READ SETTING of the K-factor of meter 16 gives its default of 100,000 (R201). -/
theorem test_readSetting :
    after (.readSetting [0, 34, 16]) ready (fun t => t.link.reply.map (·.payload)) = some (some [0, 1, 134, 160]) := by
  decide

/-- A write of the same K-factor to a meter of an arm with a record is IN_USE; to another it is taken (R198). -/
theorem test_writeSetting :
    (after (.writeSetting [0, 34, 1, 0, 1, 134, 160]) ready linkResult,
      after (.writeSetting [0, 34, 3, 0, 1, 134, 161]) ready (fun t => (linkResult t, (t.meterCfg 2).kFactor))) =
      (some (some .inUse), some (some .ok, 100001)) := by decide

/-- The address byte of a reply is 64 plus the station address, and the length counts code to payload (R184). -/
theorem test_replyBegin :
    after .replyBegin { ready with link := { ready.link with address := 5, reply := some ⟨0x17, .ok, [0, 7]⟩ } }
      (fun t => t.link.sending.map (·.take 12)) =
      some (some [69, 10, 0x17, 0, 1, 0, 1, 0, 0, 0, 0, 7]) := by decide

/-- LTX: high when idle; start bit, data, mark and stop of the first character 69, and the second's mark low (R177). -/
theorem test_ltx :
    (low.ltx 0, (List.range 22).map ({ low with link := { low.link with sending := some [69, 10] } } : State).ltx) =
      (true, [false, true, false, true, false, false, false, true, false, true, true,
        false, false, true, false, true, false, false, false, false, false, true]) := by decide

/-- The tries of a byte count its read and its write together: the third failure ends the save (R199). -/
theorem test_save_tries :
    let s := fun p => ({ running with store := { running.store with line := .saving, save := some p } } : State)
    (after (.saveByteDone true) (s ⟨.m, 0, false, 1⟩) (·.store.save),
      after (.saveByteDone false) (s ⟨.m, 0, true, 1⟩) (fun t => (t.store.save, t.stationAlarms)),
      after (.saveByteDone false) (s ⟨.m, 0, true, 2⟩) (·.store.save)) =
      (some (some ⟨.m, 0, true, 1⟩), some (none, [.saveFailed]), some (some ⟨.m, 0, true, 1⟩)) := by decide

/-- A good LIST RECIPES frame, its CRC from the check of R181 over 01h 24h. -/
theorem test_decodeFrame :
    (decodeFrame false (encodeFrame 0x24 []), decodeFrame true (encodeFrame 0x50 []), decodeFrame false [251],
      decodeFrame false [1, 0x24, 0]) =
      (some (.listRecipes []), some .holdAll, some (.frameDiscard .badLength ⟨false, [251]⟩), none) := by decide +kernel

/-! ## For each statement, states and operands that meet its hypotheses -/

theorem test_hyp_StepRunsTheFrontCommand :
    ({ running with pending := [.holdAll, .replyEnd] } : State).pending = .holdAll :: [.replyEnd] := rfl

/-- A sample clock at the boundary: due at the next ms, and one ms later. -/
theorem test_hyp_IdleStepIsOneMillisecond :
    running.pending = [] ∧ (running.arm 0).sampleClock = some 50 ∧ 50 ≤ ({ running with now := 49 } : State).now + 1 ∧
      ¬ 50 ≤ ({ running with now := 48 } : State).now + 1 := by decide

theorem test_hyp_CommandsKeepTheQueue : exec .pendingFrameDiscard running = .next running := rfl

/-- The reply of an accepted RESTART on the line. -/
def restarting : State :=
  { running with store := { running.store with restart := true }, link := { running.link with sending := some [] } }

theorem test_hyp_StartsPutEveryBlockIntoItsStartState :
    restarting.link.sending.isSome = true ∧ restarting.store.restart = true := by decide

theorem test_hyp_PowerOnEndSamplesTheStraps :
    State.reset.store.mode = .powerOn ∧ State.reset.store.startTimer = some 100 := by decide

/-- LOADING with the straps at 5. -/
def loading : State := { State.reset with store := { Store.reset with mode := .loading, sampledStraps := 5 } }

/-- LOADING with both images of the defaults in the memory. -/
def loadingSaved : State := { loading with memory := Settings.default.saved }

/-- The images are read valid; spoiled or marked ones fail. -/
theorem test_hyp_LoadingEndEntersByTheAreas_valid :
    loadingSaved.loadSettings 0 0 = (Settings.default, true, true) := by
  have h := Settings.saved_areas Settings.default (by decide +kernel) (by decide +kernel)
  have own := fun a hi => Settings.loadArea_own Settings.default a Settings.default.saved (h a).1 (h a).2 hi (by decide)
  have m := own .m (by decide +kernel)
  have l := own .l (by decide)
  simp [State.loadSettings, State.readArea, loadingSaved, loading, State.reset, Store.reset, m, l]

theorem test_hyp_LoadingEndEntersByTheAreas :
    loading.store.mode = .loading ∧ loading.loadSettings 3 3 = (Settings.default, false, false) ∧
      loadingSaved.store.mode = .loading ∧ loading.stationAlarms = [] ∧
      ∀ n : ArmId, loading.channelsReady n = false := by decide

/-- Both areas valid; two spoiled attempts are no failure and three are; a mark is. -/
theorem test_hyp_FailedAreasFallBackToDefaults :
    (loadingSaved.loadSettings 0 0).2.1 = true ∧ (loadingSaved.loadSettings 0 0).2.2 = true ∧ 2 < 3 ∧
      (loading.loadSettings 3 3).2.1 = false ∧ (loading.loadSettings 3 3).2.2 = false ∧
      (({ loading with store := { loading.store with mixedM := true } } : State).loadSettings 0 3).2.1 = false ∧
      slotOf 1 8 = some (.arm 7 1) ∧ (1, 8) ∈ Area.m.slots ∧ slotOf 80 11 = some (.alarmClass 10) ∧
      (80, 11) ∈ Area.l.slots := by
  rw [test_hyp_LoadingEndEntersByTheAreas_valid]
  decide

theorem test_hyp_LevelsAndStrapsAreWatched : running.operating = true ∧ (5 : BitVec 5) ≠ running.store.filteredStraps := by
  decide

/-- Losses that act, on a flowing record and on one in FINISH, and one that does not. -/
theorem test_hyp_LossStopsEveryArmItActsOn :
    low.operating = true ∧ levelOf low.levels .headerPress = true ∧ low.lossActs .headerPress 0 = true ∧
      flowingPhase (low.phase 0) = true ∧ low.active 0 = some (deliveringLoad .low) ∧
      low.lossActs .headerPress 1 = false ∧ low.phase 1 = none ∧
      levelOf finish.levels .headerPress = true ∧ finish.lossActs .headerPress 0 = true ∧
      finish.phase 0 = some .finish := by decide

/-- With nothing reserved, the amount of 48 is granted at once; with 853 of the 900 held it is not, and with 852 it
is. -/
theorem test_hyp_StartBeginsTheDelivery :
    ready.active 0 = some readyLoad ∧ readyLoad.state = .ready ∧ ready.mayStart 0 readyLoad = true ∧
      ready.buttons.start[0] = false ∧
      ([0, 7] : List Byte).length = 2 ∧ fieldAt [0, 7] 0 2 = readyLoad.number ∧ readyLoad.number ≠ 0 ∧
      (ready.injCfg 0).arm = armNumber 0 ∧ meterArm 1 = 0 ∧ meterArm 2 ≠ 0 ∧
      (ready.loads.map (·.number)).Nodup ∧
      48 = ready.ruledAmount 0 (ready.armCfg 0).lowRate (ready.fraction readyLoad) := by decide

theorem test_hyp_Start_granted : ready.grantedAtOnce 48 ∧ (ready.setResv 1 ⟨.high, 852, 48⟩).grantedAtOnce 48 ∧
    ¬ (ready.setResv 1 ⟨.high, 853, 48⟩).grantedAtOnce 48 ∧ ¬ ({ ready with queue := [⟨1, .low, 48⟩] } : State).grantedAtOnce 48 := by
  unfold State.grantedAtOnce
  decide

/-- A recipe without ethanol. -/
theorem test_hyp_StartBeginsTheDelivery_gas :
    ({ ready with recipes := [⟨12, .active, 0, 5, [⟨3, 250⟩], 1⟩] } : State).fraction readyLoad = 0 := by decide

theorem test_hyp_ResumeContinuesTheDelivery :
    held.active 0 = some heldLoad ∧ heldLoad.state = .held ∧ held.mayStart 0 heldLoad = true ∧
      held.buttons.start[0] = false ∧
      fieldAt [0, 7] 0 2 = heldLoad.number ∧ heldLoad.number ≠ 0 ∧ (held.loads.map (·.number)).Nodup ∧
      48 = held.ruledAmount 0 (held.armCfg 0).lowRate (held.fraction heldLoad) := by decide

theorem test_hyp_Resume_granted : held.grantedAtOnce 48 ∧ ¬ (held.setResv 1 ⟨.high, 853, 48⟩).grantedAtOnce 48 := by
  unfold State.grantedAtOnce
  decide

/-- Number 0, an unknown number, wrong states, start conditions that fail, a release and a button already held. -/
theorem test_hyp_StartConditionsRefuse :
    fieldAt [0, 0] 0 2 = 0 ∧ low.load? (fieldAt [0, 9] 0 2) = none ∧
      low.load? (fieldAt [0, 7] 0 2) = some (deliveringLoad .low) ∧ (deliveringLoad .low).state ≠ .ready ∧
      (deliveringLoad .low).state ≠ .held ∧
      ({ ready with levels := { allMet with estop := false } } : State).mayStart 0 readyLoad = false ∧
      ({ held with levels := { allMet with estop := false } } : State).mayStart 0 heldLoad = false ∧
      running.active 0 = none ∧ low.active 0 = some (deliveringLoad .low) ∧
      (⟨0, false⟩ : ButtonChange).pressed = false ∧ (pressing ready).buttons.start[0] = true ∧
      (pressing ready).operating = true ∧ running.operating = true ∧ low.operating = true ∧
      State.reset.operating = false := by decide

/-- LOW, FINISH and HEADER_WAIT, and a queue with another arm's request behind the hold. -/
theorem test_hyp_HoldCauseStopsTheFlow :
    low.active 0 = some (deliveringLoad .low) ∧ holdablePhase (low.phase 0) = true ∧ (low.arm 0).mode = .available ∧
      low.buttons.stop[0] = false ∧ finish.active 0 = some (deliveringLoad .finish) ∧ finish.phase 0 = some .finish ∧
      (finish.arm 0).mode = .available ∧ fieldAt [0, 7] 0 2 = (deliveringLoad .low).number ∧
      holdablePhase (waiting.phase 0) = true ∧ holdablePhase (shared.phase 0) = true ∧
      shared.active 0 = some (deliveringLoad .low) ∧
      shared.queue.filter (fun r => r.arm != 0) = [⟨1, .low, 48⟩] := by decide

/-- Each refusal of HOLD LOAD, and each change of a stop button that holds nothing. -/
theorem test_hyp_HoldCause_refuses :
    fieldAt [0, 0] 0 2 = 0 ∧ low.load? (fieldAt [0, 9] 0 2) = none ∧
      ready.load? (fieldAt [0, 7] 0 2) = some readyLoad ∧ readyLoad.state ≠ .delivering ∧
      settle.load? (fieldAt [0, 7] 0 2) = some (deliveringLoad .settle) ∧
      (deliveringLoad .settle).phase = some .settle ∧ (⟨0, false⟩ : ButtonChange).pressed = false ∧
      (pressing low).buttons.stop[0] = true ∧ ready.phase 0 = none ∧ settle.phase 0 = some .settle ∧
      ((running.setArm 0 (ArmSeq.start (History.all 0))).arm 0).mode ≠ .available ∧ running.operating = true ∧
      (pressing low).operating = true ∧ ready.operating = true ∧ settle.operating = true := by decide

def silent (a : SilenceAction) : State :=
  { low with
    link := { low.link with silence := some 30000 }
    settings := { testSettings with station := { testSettings.station with silenceAction := a } } }

theorem test_hyp_StationHoldsReachEveryArm :
    (silent .hold).link.silence = some 30000 ∧ (silent .hold).settings.station.silenceAction = .hold ∧
      (silent .hold).active 0 = some (deliveringLoad .low) ∧ flowingPhase (deliveringLoad .low).deliveringPhase = true ∧
      (silent .carryOn).link.silence = some 30000 ∧ (silent .carryOn).settings.station.silenceAction = .carryOn := by decide

theorem test_hyp_StationHolds_ok : (silent .hold).DeliveryOk := deliveryOk_of (by decide)

theorem test_hyp_StationHolds_finish :
    finish.active 0 = some (deliveringLoad .finish) ∧ finish.phase 0 = some .finish ∧
      ({ finish with
        link := { finish.link with silence := some 30000 } } : State).link.silence = some 30000 := by decide

/-- Meter 1 with pulse security disabled, and a meter one edge before its window's last. -/
theorem test_hyp_ForwardPulseRepaysTheDebtFirst :
    ({ running with settings :=
        { testSettings with meters := Vector.replicate 16 { MeterSettings.default with security := false } } } :
          State).isRunning = true ∧
      (({ running with settings :=
        { testSettings with meters := Vector.replicate 16 { MeterSettings.default with security := false } } } :
          State).meterCfg 0).security = false ∧
      ((withMeter 0 { Meter.start with windowA := 998 }).meter 0).windowA + 1 < (running.meterCfg 0).window := by decide

/-- A debt of 19 stays within the limit of 20, a debt of 20 does not. -/
theorem test_hyp_ReversePulseRaisesTheDebt :
    (withMeter 0 { Meter.start with debt := 19 }).isRunning = true ∧ (running.meterCfg 0).security = true ∧
      ((withMeter 0 { Meter.start with debt := 19 }).meter 0).windowA + 1 < (running.meterCfg 0).window ∧
      min 65535 (((withMeter 0 { Meter.start with debt := 19 }).meter 0).debt + 1) ≤ (running.meterCfg 0).reverseLimit ∧
      (running.meterCfg 0).reverseLimit < min 65535 (((withMeter 0 { Meter.start with debt := 20 }).meter 0).debt + 1) := by
  decide

/-- A B count 5 off is a match and one 6 off is none, with and without a mismatch before. -/
theorem test_hyp_WindowIsJudgedAtItsSize :
    let x := (withMeter 0 { Meter.start with windowA := 999, windowB := 995, mismatches := 1 }).meter 0
    let y := (withMeter 0 { Meter.start with windowA := 999, windowB := 994, mismatches := 1, debt := 19 }).meter 0
    (running.meterCfg 0).window ≤ x.windowA + 1 ∧
      ((x.windowB : Int) - (running.meterCfg 0).window).natAbs ≤ (running.meterCfg 0).tolerance ∧
      ¬ ((y.windowB : Int) - (running.meterCfg 0).window).natAbs ≤ (running.meterCfg 0).tolerance ∧
      y.mismatches ≠ 0 ∧ ¬ (running.meterCfg 0).reverseLimit < min 65535 (y.debt + 1) ∧
      (running.meterCfg 0).reverseLimit < min 65535 (20 + 1) := by decide

/-- One reverse edge of a broken meter: the 21st of the debt and the last of a second mismatching window (R48, R52). -/
theorem test_reverse_at_the_window :
    after (.meterAEdge 11 true) (withMeter 11 { Meter.start with windowA := 999, windowB := 400, mismatches := 1, debt := 20 })
      (fun t => ((t.meter 11).debt, (t.meter 11).windowA, decide (.reverseFlow ∈ (t.alarm 5).latched),
        decide (.pulseEth ∈ (t.alarm 5).latched))) = some (21, 0, true, true) := by decide

theorem test_hyp_BEdgesCloseTheWindowEarly :
    ((withMeter 0 { Meter.start with windowB := 1004 }).meter 0).windowB + 1
        ≤ (running.meterCfg 0).window + (running.meterCfg 0).tolerance ∧
      (running.meterCfg 0).window + (running.meterCfg 0).tolerance
        < ((withMeter 0 { Meter.start with windowB := 1005, mismatches := 1 }).meter 0).windowB + 1 := by decide

def withInjector (j : Injector) : State := low.setInjector 0 j

theorem test_hyp_StrokesAreVerifiedThroughTheTail :
    ((withInjector ⟨.stroking, false, some ⟨some 7⟩, 3, 0, some 250⟩).injector 0).state = .stroking ∧
      ((withInjector ⟨.stroking, false, some ⟨some 7⟩, 3, 0, some 250⟩).injector 0).timer = some 250 ∧
      (low.injector 0).state = .idle := by decide

/-- The stroke pulse count stays at 65,535 (the table before R148). -/
theorem test_verify_pulses_saturate :
    after (.verifyPulse 0) (withInjector ⟨.stroking, false, some ⟨some 7⟩, 65535, 0, some 250⟩)
      (fun s => (s.injector 0).pulses) = some 65535 := by decide

/-- A count at the threshold and one below it, and a stroke of a retired record. -/
theorem test_hyp_TailEndJudgesTheStroke :
    let s := fun k pulses => withInjector ⟨.verifying, true, some k, pulses, 0, some 450⟩
    ((s ⟨some 7⟩ 360).injector 0).state = .verifying ∧ ((s ⟨some 7⟩ 360).injector 0).timer = some 450 ∧
      ((s ⟨some 7⟩ 360).injector 0).stroke = some ⟨some 7⟩ ∧ (s ⟨some 7⟩ 360).load? 7 = some (deliveringLoad .low) ∧
      (deliveringLoad .low).entryOf 0 = some ⟨3, 0, 40000, 0, 0, 0, 0⟩ ∧
      (low.injCfg 0).pulses * (100 - (low.injCfg 0).tolerance) / 100 ≤ ((s ⟨some 7⟩ 360).injector 0).pulses ∧
      ((s ⟨some 7⟩ 359).injector 0).pulses < (low.injCfg 0).pulses * (100 - (low.injCfg 0).tolerance) / 100 ∧
      ((s ⟨none⟩ 400).injector 0).stroke = some ⟨none⟩ := by decide

/-- In SETTLE with the timer expired and a stroke in flight, the injector at its catch-up limit of end strokes. -/
def settling (endIssued due : Nat) (abort : Bool) (timer : SettleTimer) : State :=
  let l := { deliveringLoad .settle with
    abortTaken := some abort, gasNet := 80000, entries := [⟨3, 0, 40000, due, 2, 1, 0⟩] }
  ((withRecord l).setArm 0 { running.arm 0 with settle := timer }).setInjector 0
    ⟨.verifying, false, some ⟨some 7⟩, 400, endIssued, some 450⟩

/-- The cap of 3 end strokes reached and short of it, strokes owed after this one and not, with abort taken and not, the
timer expired and still running. -/
theorem test_hyp_TailEnd_settle :
    let s := settling 3 4 false .expired
    (s.injCfg 0).arm = armNumber 0 ∧ s.phase 0 = some .settle ∧ (s.arm 0).settle = .expired ∧
      (s.injCfg 0).catchUp = 3 ∧ (s.injector 0).endIssued = 3 ∧ (s.injector 0).mask = false ∧
      (s.active 0).map (·.abortTaken) = some (some false) ∧
      (((settling 2 4 false .expired).injector 0).endIssued < 3) ∧
      ((settling 3 4 true .expired).active 0).map (·.abortTaken) = some (some true) ∧
      ((settling 3 4 false (.running 3000)).arm 0).settle ≠ .expired := by decide

theorem test_hyp_TailEnd_ok : (settling 3 4 false .expired).DeliveryOk ∧ (settling 3 4 false (.running 3000)).DeliveryOk :=
  ⟨deliveryOk_of (by decide), deliveryOk_of (by decide)⟩

/-- Where the records stand, whether short of strokes, and why they ended. -/
def standing (t : State) : List (LoadState × Bool × Option EndReason) :=
  t.loads.map fun l => (l.state, l.flags.additiveShort, l.endReason)

/-- The judgement marks and ends, or only verifies and stays in SETTLE (R93, R158). -/
theorem test_tailEnd_settle :
    after (.verifyTailEnd 0) (settling 3 4 false .expired) standing = some [(.ended, true, some .complete)] ∧
      after (.verifyTailEnd 0) (settling 1 2 false .expired) standing = some [(.ended, false, some .complete)] ∧
      after (.verifyTailEnd 0) (settling 3 4 true .expired) standing = some [(.ended, true, some .aborted)] ∧
      after (.verifyTailEnd 0) (settling 3 4 false (.running 3000)) standing = some [(.delivering, true, none)] := by
  exact ⟨by decide, by decide, by decide, by decide⟩

def reading : State :=
  { running with
    port := { nextA := some 100, nextB := some 150, readingA := true, readingB := true }
    channels := Vector.replicate 16 { TempChannel.start with validCount := 2 }
    arms := Vector.replicate 8 { ArmSeq.start (History.all 15000) with mode := .checking, checkTimer := some 30000 }
    loads := [{ readyLoad with state := .staged }]
    recipes := [⟨12, .active, 100, 5, [⟨3, 250⟩], 1⟩] }

theorem test_hyp_ReadsStartEveryHundredMs :
    reading.operating = true ∧ reading.port.nextA = some 100 ∧ reading.port.nextB = some 150 := by decide

/-- Reports at both ends of the range and past them. -/
theorem test_hyp_ReadsDeliverAndReleaseTheArms :
    reading.operating = true ∧ reading.port.reading .a = true ∧
      (-4000 : Int) ≤ -4000 ∧ (6000 : Int) ≤ 6000 ∧ ¬ (-4000 : Int) ≤ -4001 ∧ ¬ (6001 : Int) ≤ 6000 ∧
      bayOf 0 = .a ∧ bayOf 4 ≠ .a ∧ (reading.arm 0).mode = .checking ∧ reading.active 0 = none ∧
      reading.oldestStaged 0 = some { readyLoad with state := .staged } := by decide

theorem test_hyp_Reads_tables : reading.TablesOk :=
  ⟨by decide, by decide, by decide, by decide, by decide, by decide, by decide⟩

/-- After a read of valid reports the counts of both channels of arm 1 are 3. -/
theorem test_hyp_Reads_counts :
    after (.tempReadEnd .a (some (Vector.replicate 8 ⟨2000, true⟩))) reading
      (fun t => ((t.channel 0).validCount, (t.channel 1).validCount, (t.arm 0).mode)) = some (3, 3, .available) := by
  decide

theorem test_hyp_CheckingTimesOutEveryThirtySeconds :
    (reading.arm 0).mode = .checking ∧ (reading.arm 0).checkTimer = some 30000 := by decide

/-- An arm without a record, and one whose record is READY; 1,001 pulses are above the limit of 10 L, 1,000 not. -/
theorem test_hyp_IdleFlowIsUnassigned :
    running.isRunning = true ∧ (running.arm 0).mode = .available ∧ (running.arm 0).sampleClock = some 50 ∧
      running.active 0 = none ∧ (∀ l, ready.active 0 = some l → l.state = .ready) ∧
      (sampleMeter (running.meterCfg 0) 100 1500 { Meter.start with pending := 1001 }).gross = 10010 ∧
      (sampleMeter (running.meterCfg 0) 100 1500 { Meter.start with pending := 1000 }).gross = 10000 ∧
      running.classOf .unauthFlow ≠ .off := by
  refine ⟨by decide, by decide, by decide, by decide, ?_, by decide, by decide, by decide⟩
  intro l h
  have hl : readyLoad = l := Option.some.inj ((show ready.active 0 = some readyLoad by decide).symm.trans h)
  rw [← hl]
  rfl

/-- A channel valid 10 s before the sample, at the temperature hold time, and one 1 ms past it. -/
def lastValidAt (t : Nat) : State :=
  { low.setArm 0 { low.arm 0 with sampleClock := some 10000 } with
    channels := Vector.replicate 16 ⟨some ⟨2450, true, t⟩, some 2450, some t, 3⟩
    settings := { testSettings with station := { testSettings.station with tempHold := 10 } } }

/-- A HELD record with 9,999 mL of drain, to which 2 pulses add 20 mL. -/
def draining : State :=
  (held.setArm 0 { held.arm 0 with holdDrain := 9999 }).setMeter 0 { Meter.start with pending := 2 }

theorem test_hyp_SamplesJoinTheRecord :
    low.active 0 = some (deliveringLoad .low) ∧ (deliveringLoad .low).state = .delivering ∧
      held.active 0 = some heldLoad ∧ heldLoad.state = .held ∧ low.isRunning = true ∧ (low.arm 0).mode = .available ∧
      (low.arm 0).sampleClock = some 50 ∧ draining.active 0 = some heldLoad ∧
      after (.sampleEvent 0) draining (fun t => ((t.arm 0).holdDrain, (t.alarm 0).latched)) = some (10019, [.unauthFlow]) ∧
      after (.sampleEvent 0) (lastValidAt 0) (fun t => (t.alarm 0).latched) = some [] := by decide

theorem test_hyp_SamplesJoin_stale : ¬ (lastValidAt 0).staleAt 0 10000 ∧ (lastValidAt 0).staleAt 0 10001 := by
  refine ⟨?_, 0, by decide, 0, by decide, by decide⟩
  rintro ⟨m, -, t, ht, hlt⟩
  have h0 : t = 0 := by
    have : ∀ m : MeterId, ((lastValidAt 0).channel m).lastValidTime = some 0 := by decide
    exact Option.some.inj (ht.symm.trans (this m))
  subst h0
  exact absurd hlt (by decide)

theorem test_hyp_SamplesLoseNothing :
    0 < gasCurve.kFactor ∧ Meter.start.carryI < gasCurve.kFactor ∧ Meter.start.carryG < 10000 ∧
      Meter.start.carryN < 1000000 := by decide

theorem test_hyp_FactorStaysOnItsCurve :
    gasCurve.q1 < gasCurve.q2 ∧ gasCurve.q2 < gasCurve.q3 ∧ gasCurve.q3 < gasCurve.q4 := by decide

/-- A record without additives in a phase with these totals, its ethanol `behind` mL short, its meters turning. -/
def flowing (p : Phase) (gas behind : Nat) : State :=
  let s := (inPhase p).modActive 0 fun l =>
    { l with gasGross := gas, gasNet := gas, ethGross := gas / 9 - behind, ethNet := gas / 9 - behind, entries := [] }
  (s.setMeter 0 { Meter.start with pending := 60 }).setMeter 1 { Meter.start with pending := 6 }

/-- The phase, the amount held, and what waits after a sample. -/
def sampled (s : State) : Option (Option Phase × Nat × List HeaderRequest) :=
  after (.sampleEvent 0) s fun t => (t.phase 0, (t.resv 0).amount, t.queue)

/-- A sample that leaves the record in LOW, short of the low-start point; one past it that raises the amount from 48 to
293, or joins the queue when another arm holds 800; one at the taper point from LOW and from HIGH; one at the finish
point, with the ethanol far behind and up to date; and FINISH staying and closing. -/
theorem test_hyp_SampleDecidesTheGasValve :
    sampled (flowing .low 0 0) = some (some .low, 48, []) ∧ sampled (flowing .low 200000 0) = some (some .high, 293, []) ∧
      sampled ((flowing .low 200000 0).setResv 1 ⟨.high, 800, 48⟩) = some (some .low, 48, [⟨0, .upgrade, 245⟩]) ∧
      sampled (flowing .low 7150000 0) = some (some .taper, 48, []) ∧
      sampled ((flowing .high 7150000 0).setResv 0 ⟨.high, 293, 48⟩) = some (some .taper, 48, []) ∧
      sampled (flowing .taper 7190000 20000) = some (some .finish, 48, []) ∧
      sampled (flowing .taper 7190000 0) = some (some .settle, 0, []) ∧
      sampled (flowing .finish 7190000 20000) = some (some .finish, 48, []) ∧
      sampled (flowing .finish 7190000 0) = some (some .settle, 0, []) ∧
      (flowing .low 200000 0).active 0 ≠ none ∧
      245 = (flowing .low 200000 0).ruledAmount 0 ((flowing .low 200000 0).armCfg 0).highRate 100 - 48 :=
  ⟨by decide, by decide, by decide, by decide, by decide,
    by decide, by decide, by decide, by decide, by decide, by decide⟩

theorem test_hyp_Sample_granted :
    (flowing .low 200000 0).grantedAtOnce 245 ∧ ¬ ((flowing .low 200000 0).setResv 1 ⟨.high, 800, 48⟩).grantedAtOnce 245 := by
  unfold State.grantedAtOnce
  decide

theorem test_hyp_Sample_ok :
    (flowing .low 200000 0).DeliveryOk ∧ (flowing .low 200000 0).HeaderOk ∧ (flowing .taper 7190000 20000).DeliveryOk ∧
      (flowing .finish 7190000 0).DeliveryOk :=
  ⟨deliveryOk_of (by decide),
    ⟨by decide, by decide, by decide, by decide, by decide, by decide, by decide, by decide, by decide⟩,
    deliveryOk_of (by decide), deliveryOk_of (by decide)⟩

/-- A flowing record with the deviation run on since a moment, at 60 s. -/
def deviating (behind : Nat) (since : Option Nat) : State :=
  { (flowing .high 1000000 behind).setArm 0 { (flowing .high 1000000 behind).arm 0 with sampleClock := some 60000 } with
    ratios := Vector.replicate 8 ⟨0, since, none⟩
    reservations := low.reservations.set 0 ⟨.high, 293, 48⟩
    channels := Vector.replicate 16 ⟨some ⟨2450, true, 59900⟩, some 2450, some 59900, 3⟩ }

/-- A sample that leaves it in FINISH, the ethanol 8,000 mL behind; a deviation that starts, goes on, ends inside the
band, and is detected with class STOP when as old as the alarm delay. -/
theorem test_hyp_SampleSetsTheSetpoint :
    after (.sampleEvent 0) (finish.modActive 0 fun l => { l with gasNet := 72000 })
      (fun t => (t.phase 0, (t.ratio 0).setpoint)) = some (some .finish, 48) ∧
    after (.sampleEvent 0) (deviating 30000 none) (fun t => (t.ratio 0).devRun) = some (some 60000) ∧
    after (.sampleEvent 0) (deviating 30000 (some 59999)) (fun t => (t.ratio 0).devRun) = some (some 59999) ∧
    after (.sampleEvent 0) (deviating 0 (some 59999)) (fun t => (t.ratio 0).devRun) = some none ∧
    after (.sampleEvent 0) (deviating 30000 (some 0)) (fun t => ((t.alarm 0).latched, (t.active 0).map (·.state))) =
      some ([.ratioDev], some .held) ∧
    (deviating 30000 none).classOf .ratioDev = .stop :=
  ⟨by decide, by decide, by decide, by decide, by decide, by decide⟩

/-- A sample at 10,000 ms without flow, the valve open and a setpoint of 30, the runs on since some moments; the no-flow
timeout is 10 s. -/
def stalled (gas eth : Option Nat) : State :=
  { (low.setArm 0
      { low.arm 0 with valve := .openFurther, gasRun := gas, ethRun := eth, sampleClock := some 10000 }).setRatio 0
      ⟨30, none, none⟩ with
    channels := Vector.replicate 16 ⟨some ⟨2450, true, 9900⟩, some 2450, some 9900, 3⟩ }

theorem test_hyp_StalledGas_fresh : ¬ (stalled (some 0) none).staleAt 0 10000 := by
  rintro ⟨m, -, t, ht, hlt⟩
  have h0 : t = 9900 := by
    have : ∀ m : MeterId, ((stalled (some 0) none).channel m).lastValidTime = some 9900 := by decide
    exact Option.some.inj (ht.symm.trans (this m))
  subst h0
  exact absurd hlt (by decide)

/-- Both conditions hold at the sample, and the gas's does not with the valve closed. -/
theorem test_hyp_StalledGasIsDetected :
    let s := stalled (some 0) (some 1)
    s.isRunning = true ∧ (s.arm 0).mode = .available ∧ (s.arm 0).sampleClock = some 10000 ∧
      flowingPhase (s.phase 0) = true ∧ (s.arm 0).valve ≠ .close ∧ 0 < (s.ratio 0).setpoint ∧
      ((s.reach 10000).sampleArm 0).gas.flow = 0 ∧ ((s.reach 10000).sampleArm 0).eth.flow = 0 ∧
      (s.armCfg 0).noFlow = 10 ∧ s.classOf .noFlow = .stop ∧ (low.arm 0).valve = .close := by decide

/-- The runs start, go on at 9,999 ms, and are detected at 10,000 ms: one meter, the other, both. -/
theorem test_hyp_StalledGas_runs :
    let f := fun (t : State) => ((t.arm 0).gasRun, (t.arm 0).ethRun, (t.arm 0).stalled)
    after (.sampleEvent 0) (stalled none (some 1)) f = some (some 10000, some 1, none) ∧
      after (.sampleEvent 0) (stalled (some 0) (some 1)) f = some (none, none, some .gas) ∧
      after (.sampleEvent 0) (stalled (some 1) (some 0)) f = some (none, none, some .ethanol) ∧
      after (.sampleEvent 0) (stalled (some 0) (some 0)) f = some (none, none, some .both) := by
  exact ⟨by decide +kernel, by decide +kernel, by decide +kernel, by decide +kernel⟩

theorem test_hyp_StalledGas_ok : (stalled (some 0) (some 1)).DeliveryOk := deliveryOk_of (by decide)

/-- A sample that raises the strokes due to 1: 40,000 mL net at an interval of 40,000. -/
theorem test_hyp_SampleIssuesTheStrokesDue :
    after (.sampleEvent 0) (low.modActive 0 fun l => { l with gasNet := 40000 })
      (fun t => (t.loads.map fun l => l.entries.map (·.due), (t.injector 0).state)) = some ([[1]], .stroking) := by
  decide

/-- Strokes due 1 and verified none, with catch-up limits of 0 and 1: behind, and not; in LOW with both meters turning,
and in FINISH with the ethanol far behind. -/
theorem test_hyp_SampleIssues_behind :
    let limit := fun (s : State) (k : Nat) =>
      { s with settings := { s.settings with injectors := s.settings.injectors.set 0 { s.injCfg 0 with catchUp := k } } }
    let s := fun p => (flowing p 40000 20000).modActive 0 fun l => { l with entries := [⟨3, 0, 40000, 0, 0, 0, 0⟩] }
    after (.sampleEvent 0) (limit (s .low) 1) (fun t => (t.alarm 0).latched) = some [] ∧
      after (.sampleEvent 0) (limit (s .low) 0) (fun t => ((t.alarm 0).latched, t.phase 0)) = some ([.addShort], none) ∧
      after (.sampleEvent 0) (limit (s .finish) 0) (fun t => ((t.alarm 0).latched, t.phase 0)) =
        some ([.addShort], some .settle) ∧
      ((s .low).reach 50).sampleArm 0 ≠ (low.reach 50).sampleArm 0 ∧
      0 < (((s .low).reach 50).sampleArm 0).gas.flow ∧ 0 < (((s .low).reach 50).sampleArm 0).eth.flow := by
  exact ⟨by decide, by decide, by decide, by decide, by decide,
    by decide⟩

/-- SETTLE with its injectors done, HELD with its limit running, and another record of the same arm behind it. -/
theorem test_hyp_RecordsEndWithTheirReason :
    settle.active 0 = some (deliveringLoad .settle) ∧ settle.phase 0 = some .settle ∧
      (settle.arm 0).settle = .running 3000 ∧
      (∀ e ∈ (deliveringLoad .settle).entries, settle.injectorDone (deliveringLoad .settle) e = true) ∧
      held.active 0 = some heldLoad ∧ heldLoad.state = .held ∧ heldLoad.holdTimer = some 1200000 ∧
      fieldAt [0, 7] 0 2 = heldLoad.number ∧
      (let s := ({ held with loads := [{ readyLoad with number := 6, state := .ended }, heldLoad,
        { readyLoad with number := 8, state := .staged }, { readyLoad with number := 9, state := .staged }] } : State)
      s.active 0 = some heldLoad ∧ s.oldestStaged 0 = some { readyLoad with number := 8, state := .staged } ∧
        s.oldestStaged 0 ≠ some { readyLoad with number := 9, state := .staged }) := by decide

/-- An injector still stroking at the expiry. -/
theorem test_hyp_RecordsEnd_waits :
    let s := settle.setInjector 0 ⟨.stroking, false, some ⟨some 7⟩, 0, 1, some 250⟩
    s.active 0 = some (deliveringLoad .settle) ∧ s.phase 0 = some .settle ∧ (s.arm 0).settle = .running 3000 ∧
      s.injectorDone (deliveringLoad .settle) ⟨3, 0, 40000, 0, 0, 0, 0⟩ = false := by decide

theorem test_hyp_FinishTimesOut :
    finish.active 0 = some (deliveringLoad .finish) ∧ finish.phase 0 = some .finish ∧
      (finish.ratio 0).finishTimer = some 10000 ∧ (deliveringLoad .finish).abortTaken = some false ∧
      (deliveringLoad .finish).entryOf 0 = some ⟨3, 0, 40000, 0, 0, 0, 0⟩ := by decide

theorem test_hyp_AbortSendsTheRecordToSettle :
    low.active 0 = some (deliveringLoad .low) ∧ blendingPhase (low.phase 0) = true ∧
      settle.active 0 = some (deliveringLoad .settle) ∧ settle.phase 0 = some .settle ∧
      waiting.active 0 = some (deliveringLoad .headerWait) ∧ waiting.phase 0 = some .headerWait ∧
      fieldAt [0, 7] 0 2 = (deliveringLoad .low).number ∧
      fieldAt [0, 0] 0 2 = 0 ∧ low.load? (fieldAt [0, 9] 0 2) = none ∧
      ready.load? (fieldAt [0, 7] 0 2) = some readyLoad ∧ readyLoad.state = .ready := by decide

/-! ### Requests -/

/-- Staging on arm 2, whose preset stands at either end of its range. -/
theorem test_hyp_StageCreatesTheRecord :
    let p : List Byte := [0, 8, 1, 0, 12, 0, 50]
    p.length = 7 ∧ fieldAt p 0 2 = 8 ∧ fieldAt p 2 1 = armNumber 0 ∧ fieldAt p 3 2 = 12 ∧ fieldAt p 5 2 = 50 ∧
      fieldAt [0, 8, 1, 0, 12, 156, 64] 5 2 = 40000 ∧ ready.store.mode = .running ∧ ready.load? 8 = none ∧
      ready.recipe? 12 = some ⟨12, .active, 100, 5, [⟨3, 250⟩], 1⟩ ∧ (ready.arm 0).mode ≠ .outOfService ∧
      ready.loads.length < 16 ∧ ready.stagedCount 0 < 3 ∧ ready.entryFault 0 1 [⟨3, 250⟩] = none := by decide

theorem test_hyp_Stage_tables : ready.TablesOk := test_ok_ready.tables

/-- A state for each refusal of R9, in the order of its checks. -/
theorem test_hyp_StageRefusesInOrder :
    let p : List Byte := [0, 8, 1, 0, 12, 0, 50]
    let retiring := ({ ready with recipes := [⟨12, .retiring, 100, 5, [⟨3, 250⟩], 1⟩] } : State)
    let three := ({ ready with loads := List.replicate 3 { readyLoad with state := .staged } } : State)
    fieldAt [0, 8, 1, 0, 12, 0, 49] 5 2 < 50 ∧ 40000 < fieldAt [0, 8, 1, 0, 12, 156, 65] 5 2 ∧
      fieldAt [0, 8, 9, 0, 12, 0, 50] 2 1 = 9 ∧ 999 < fieldAt [0, 8, 1, 3, 232, 0, 50] 3 2 ∧
      ready.load? (fieldAt [0, 7, 1, 0, 12, 0, 50] 0 2) ≠ none ∧ ready.recipe? (fieldAt [0, 8, 1, 0, 13, 0, 50] 3 2) = none ∧
      (retiring.recipe? (fieldAt p 3 2)).map (·.state) = some .retiring ∧
      ((ready.setArm 0 (ArmSeq.start (History.all 0))).arm 0).mode = .outOfService ∧
      16 ≤ ({ ready with loads := List.replicate 16 readyLoad } : State).loads.length ∧
      ({ ready with loads := List.replicate 16 readyLoad } : State).load? 8 = none ∧ 3 ≤ three.stagedCount 0 ∧
      ready.injectorFor 0 4 = none ∧ ready.entryFault 0 1 [⟨3, 250⟩] = none ∧ ready.injectorFor 0 3 = some 0 ∧
      (ready.injCfg 0).stroke * 100000 / 560 <
        (ready.armCfg 0).highRate * ((ready.injCfg 0).strokeTime + (ready.injCfg 0).tail) / 60 ∧
      ({ ready with store := { ready.store with mode := .unconfigured } } : State).store.mode = .unconfigured := by
  decide

/-- A record at 100,000 mL with a compensation of 15,000 mL: a preset of 115 L is taken and one of 114 L is not. -/
theorem test_hyp_AmendmentMovesThePreset :
    let s := low.modActive 0 fun l => { l with gasGross := 100000 }
    let l := { deliveringLoad .low with gasGross := 100000 }
    s.load? 7 = some l ∧ l.state ≠ .ended ∧ l.deliveringPhase = some .low ∧
      1000 * fieldAt [0, 7, 0, 114] 2 2 < l.gasGross + l.ethGross + (s.arm l.arm).history.current ∧
      l.gasGross + l.ethGross + (s.arm l.arm).history.current ≤ 1000 * fieldAt [0, 7, 0, 115] 2 2 ∧
      1000 * fieldAt [0, 7, 0, 115] 2 2 ≤ l.gasGross + l.ethGross + 1000 * (s.armCfg l.arm).taper ∧
      s.load? (fieldAt [0, 9, 0, 115] 0 2) = none ∧ fieldAt [0, 7, 0, 49] 2 2 < 50 ∧
      finish.load? 7 = some (deliveringLoad .finish) ∧ held.load? 7 = some heldLoad ∧
      flowingPhase heldLoad.deliveringPhase = false := by decide

/-- A record in TAPER at 100,000 mL whose new preset of 8,000 L lies far off. -/
theorem test_hyp_Amendment_taper :
    let s := (inPhase .taper).modActive 0 fun l => { l with gasGross := 100000 }
    let l := { deliveringLoad .taper with gasGross := 100000 }
    s.load? 7 = some l ∧ l.deliveringPhase = some .taper ∧
      l.gasGross + l.ethGross + 1000 * (s.armCfg l.arm).taper < 1000 * fieldAt [0, 7, 31, 64] 2 2 ∧
      (l.gasGross + l.ethGross : Int) + max 0 (s.deficit l)
        < 1000 * fieldAt [0, 7, 31, 64] 2 2 - (s.arm l.arm).history.current := by decide

/-- The phase, the amount held, and what waits after an amendment of load 7 to a preset. -/
def amendedTo (preset : Nat) (s : State) : Option (Option Phase × Nat × List HeaderRequest) :=
  after (.amendPreset ([0, 7] ++ be16 preset)) s fun t => (t.phase 0, (t.resv 0).amount, t.queue)

/-- The rows of R102 at totals of 100 L and 1,000 L, with a taper of 400 L, a compensation of 15 L and a low start of
200 L. LOW and HIGH keep their phase far off; LOW and HIGH at the new taper point go to TAPER; TAPER stays at it and
returns to LOW 1 L short of it, with an upgrade past the low-start point; at the finish point the record is in SETTLE
with the ethanol up to date, in FINISH with it 20 L behind. -/
theorem test_hyp_Amendment_rows :
    amendedTo 5000 (flowing .low 90000 0) = some (some .low, 48, []) ∧
      amendedTo 5000 ((flowing .high 900000 0).setResv 0 ⟨.high, 293, 48⟩) = some (some .high, 293, []) ∧
      amendedTo 500 (flowing .low 90000 0) = some (some .taper, 48, []) ∧
      amendedTo 1400 ((flowing .high 900000 0).setResv 0 ⟨.high, 293, 48⟩) = some (some .taper, 48, []) ∧
      amendedTo 500 (flowing .taper 90000 0) = some (some .taper, 48, []) ∧
      amendedTo 501 (flowing .taper 90000 0) = some (some .low, 48, []) ∧
      amendedTo 1401 (flowing .taper 900000 0) = some (some .high, 293, []) ∧
      amendedTo 1401 ((flowing .taper 900000 0).setResv 1 ⟨.high, 800, 48⟩) =
        some (some .low, 48, [⟨0, .upgrade, 245⟩]) ∧
      amendedTo 1015 (flowing .taper 900000 0) = some (some .settle, 0, []) ∧
      amendedTo 1010 (flowing .low 900000 20000) = some (some .finish, 48, []) :=
  ⟨by decide, by decide, by decide, by decide, by decide, by decide, by decide, by decide, by decide, by decide⟩

theorem test_hyp_Amendment_ok :
    (flowing .low 90000 0).DeliveryOk ∧ (flowing .taper 900000 0).DeliveryOk ∧ (flowing .low 900000 20000).DeliveryOk ∧
      (flowing .low 90000 0).Accepts :=
  ⟨deliveryOk_of (by decide), deliveryOk_of (by decide), deliveryOk_of (by decide), by decide, by decide⟩

/-- READY with a STAGED record behind it, and a RETIRING recipe counted once. -/
theorem test_hyp_RetireRemovesTheRecord :
    let s := ({ ready with
      loads := [readyLoad, { readyLoad with number := 8, state := .staged }]
      recipes := [⟨12, .retiring, 100, 5, [⟨3, 250⟩], 2⟩] } : State)
    s.load? 7 = some readyLoad ∧ fieldAt [0, 7] 0 2 = readyLoad.number ∧ (s.arm 0).mode = .available ∧
      s.oldestStaged 0 = some { readyLoad with number := 8, state := .staged } ∧
      low.load? 7 = some (deliveringLoad .low) ∧ fieldAt [0, 0] 0 2 = 0 ∧ low.load? (fieldAt [0, 9] 0 2) = none ∧
      (({ ready with recipes := [⟨12, .retiring, 100, 5, [⟨3, 250⟩], 1⟩] } : State).recipe? readyLoad.recipe).map
        (fun r => (r.state, r.count)) = some (.retiring, 1) ∧
      ((withInjector ⟨.verifying, true, some ⟨some 7⟩, 0, 0, some 450⟩).injector 0).stroke = some ⟨some 7⟩ := by decide

theorem test_hyp_DefineAddsARecipe :
    let p : List Byte := [0, 77, 3, 82, 50, 1, 8, 39, 15]
    6 ≤ p.length ∧ p.length = 6 + 3 * fieldAt p 5 1 ∧ p.length ≤ 249 ∧ (recipeFields p).inRange = true ∧
      (recipeFields [0, 77, 3, 83, 50, 0]).inRange = false ∧ ready.recipe? (recipeFields p).number = none ∧
      ready.recipe? (recipeFields [0, 12, 0, 150, 5, 0]).number ≠ none ∧ ready.recipes.length < 24 ∧
      24 ≤ ({ running with recipes := List.replicate 24 ⟨12, .active, 100, 5, [], 0⟩ } : State).recipes.length := by decide

theorem test_hyp_RecipesInUseAreKept :
    let p : List Byte := [0, 12, 0, 150, 5, 0]
    let s := fun st k => ({ running with recipes := [⟨12, st, 100, 5, [], k⟩] } : State)
    p.length = 6 + 3 * fieldAt p 5 1 ∧ (recipeFields p).inRange = true ∧ (recipeFields p).number = 12 ∧
      (recipeFields [0, 12, 3, 83, 5, 0]).inRange = false ∧ ready.recipe? (recipeFields [0, 13, 0, 150, 5, 0]).number = none ∧
      fieldAt [0, 0] 0 2 = 0 ∧ fieldAt [3, 231] 0 2 = 999 ∧ fieldAt [3, 232] 0 2 = 1000 ∧
      ready.recipe? (fieldAt [3, 231] 0 2) = none ∧
      fieldAt [0, 12] 0 2 = 12 ∧ (s .active 0).recipe? 12 = some ⟨12, .active, 100, 5, [], 0⟩ ∧
      ready.recipe? 12 = some ⟨12, .active, 100, 5, [⟨3, 250⟩], 1⟩ := by decide

theorem test_hyp_Recipes_tables : ({ running with recipes := [⟨12, .active, 100, 5, [], 0⟩] } : State).TablesOk :=
  ⟨by decide, by decide, by decide, by decide, by decide, by decide, by decide⟩

theorem test_hyp_Recipes_retiring :
    ({ ready with recipes := [⟨12, .retiring, 100, 5, [⟨3, 250⟩], 1⟩] } : State).TablesOk :=
  ⟨by decide, by decide, by decide, by decide, by decide, by decide, by decide⟩

theorem test_hyp_ReadRecipeReportsTheRecipe :
    fieldAt [0, 0] 0 2 = 0 ∧ 999 < fieldAt [3, 232] 0 2 ∧ fieldAt [3, 231] 0 2 = 999 ∧
      ready.recipe? (fieldAt [3, 231] 0 2) = none ∧
      ready.recipe? (fieldAt [0, 12] 0 2) = some ⟨12, .active, 100, 5, [⟨3, 250⟩], 1⟩ := by decide

theorem test_hyp_ListRecipesAscends : running.Accepts := ⟨by decide, by decide⟩

theorem test_hyp_ReadsChangeNothing :
    fieldAt [0, 0] 0 2 = 0 ∧ ready.load? (fieldAt [0, 8] 0 2) = none ∧ ready.load? (fieldAt [0, 7] 0 2) = some readyLoad ∧
      fieldAt [0] 0 1 = 0 ∧ 8 < fieldAt [9] 0 1 ∧ fieldAt [8] 0 1 = armNumber 7 ∧
      slotOf (fieldAt [0, 20, 1] 0 2) (fieldAt [0, 20, 1] 2 1) = none ∧
      slotOf (fieldAt [0, 1, 8] 0 2) (fieldAt [0, 1, 8] 2 1) = some (.arm 7 1) := by decide

theorem test_hyp_ClearAlarmsClearsItsScope :
    ([8] : List Byte).length = 1 ∧ 8 < fieldAt [9] 0 1 ∧ fieldAt [0] 0 1 = 0 ∧ fieldAt [8] 0 1 = armNumber 7 := by decide

/-- A write for each answer of R198: no item, out of range, a fixed class, during a save, in use, against a rule
between items, and taken. -/
theorem test_hyp_WriteReplacesOneSetting :
    slotOf 20 1 = none ∧ slotOf 3 1 = some (.arm 0 3) ∧ itemInRange 3 1 1001 = false ∧ itemInRange 3 1 1000 = true ∧
      fieldAt [0, 3, 1, 0, 0, 3, 232] 3 4 = 1000 ∧
      ({ running with store := { running.store with save := some ⟨.m, 0, false, 3⟩ } } : State).store.save ≠ none ∧
      ready.slotInUse 1000 (.arm 0 3) = true ∧ running.slotInUse 1000 (.arm 0 3) = false ∧
      (running.settings.put 1000 (.arm 0 3)).ruleHolds (.arm 0 3) = true ∧
      (running.settings.put 300 (.arm 0 4)).ruleHolds (.arm 0 4) = false ∧ running.store.save = none ∧
      slotOf 1 0 = none ∧ slotOf 19 8 = some (.arm 7 19) ∧ slotOf 20 8 = none ∧ slotOf 43 16 = some (.meter 15 43) ∧
      slotOf 43 17 = none ∧ slotOf 57 12 = some (.injector 11 57) ∧ slotOf 76 0 = some (.station 76) ∧
      slotOf 77 0 = none ∧ slotOf 80 11 = some (.alarmClass 10) ∧
      low.slotInUse 0 (.station 72) = true ∧ held.slotInUse 0 (.station 72) = false ∧
      ready.slotInUse 1 (.alarmClass 0) = true ∧ ready.slotInUse 1 (.injector 11 50) = true ∧
      ready.slotInUse 2 (.injector 11 50) = false ∧ (low.setInjector 11 ⟨.verifying, true, some ⟨none⟩, 0, 0, some 9⟩).slotInUse 2
        (.injector 11 57) = true ∧
      (running.settings.put 100 (.meter 0 36)).ruleHolds (.meter 0 36) = false ∧
      slotOf 75 0 = some (.station 75) ∧ (Slot.arm 0 4) ≠ .arm 0 3 ∧ slotOf 4 1 = some (.arm 0 4) := by decide

theorem test_hyp_WritesActOnTheirBlock :
    running.store.save = none ∧ running.store.mode = .running ∧ running.armLive 0 = false ∧
      running.armLive (meterArm 1) = false ∧ fieldAt [0, 1, 1, 0, 0, 0, 0] 0 2 = 1 ∧
      fieldAt [0, 1, 1, 0, 0, 0, 0] 2 1 = armNumber 0 ∧ (running.arm 0).mode ≠ .outOfService ∧
      (let s := ({ running with channels := Vector.replicate 16 TempChannel.start } : State).setArm 0
        (ArmSeq.start (History.all 0))
      (s.arm 0).mode = .outOfService ∧ s.channelsReady 0 = false ∧ s.store.mode = .running ∧ s.armLive 0 = false) ∧
      (running.setArm 0 (ArmSeq.start (History.all 0))).channelsReady 0 = true ∧
      fieldAt [0, 2, 1, 0, 0, 0, 250] 3 4 = 250 ∧ fieldAt [0, 10, 1, 0, 0, 0, 50] 3 4 = 50 ∧
      fieldAt [0, 30, 2, 0, 0, 0, 1] 2 1 = (1 : MeterId).val + 1 ∧ fieldAt [0, 32, 2, 0, 0, 39, 16] 3 4 = 10000 ∧
      fieldAt [0, 33, 2, 0, 0, 0, 1] 3 4 = 1 ∧ fieldAt [0, 34, 2, 0, 0, 3, 232] 3 4 = 1000 := by decide

/-- A sample period of 250 ms gives the first sample 125 ms after the write (R108); pulse security and the window
length clear a meter's window, the first its debt too (R53). -/
theorem test_writes_act :
    let s := withMeter 1 ⟨9, 8, 7, 6, 1, 5, 4, 3, 2⟩
    (after (.writeSetting [0, 2, 1, 0, 0, 0, 250]) running (fun t => (t.arm 0).sampleClock),
      after (.writeSetting [0, 30, 2, 0, 0, 0, 1]) s (fun t => ((t.meter 1).debt, (t.meter 1).windowA, (t.meter 1).mismatches)),
      after (.writeSetting [0, 32, 2, 0, 0, 0, 100]) s (fun t => ((t.meter 1).debt, (t.meter 1).windowB))) =
      (some (some 125), some (0, 0, 0), some (8, 0)) := by decide

theorem test_hyp_SaveAndRestartAreTaken :
    ready.store.save = none ∧ (∀ l ∈ ready.loads, l.state ≠ .delivering) ∧ (∃ l ∈ low.loads, l.state = .delivering) ∧
      ({ running with store := { running.store with save := some ⟨.m, 0, false, 3⟩ } } : State).store.save ≠ none := by
  decide

/-- Bytes 0, the last data byte and the last byte of both areas; the first byte of area M is 0 (arm 1 in service, high
byte), unlike the unwritten FFh, and the last data bytes are 0. -/
theorem test_hyp_SaveGoesByteByByte :
    let s := fun p => ({ State.reset with store := { Store.reset with save := some p } } : State)
    (s ⟨.m, 0, false, 1⟩).memory.wf = true ∧ (s ⟨.m, 0, false, 1⟩).store.save = some ⟨.m, 0, false, 1⟩ ∧
      (Settings.default.areaData .m)[0]? = some 0 ∧ (Settings.default.areaData .m)[1533]? = some 0 ∧
      (Settings.default.areaImage .l)[511]?.isSome = true ∧
      0 < Area.m.size ∧ State.reset.memory.read 0 ≠ 0 ∧ 511 + 1 = Area.l.size ∧ 1535 + 1 = Area.m.size ∧
      1533 + 2 < Area.m.size ∧ ¬ 1534 + 2 < Area.m.size ∧ Area.m.size ≤ 1536 := by decide +kernel

/-- A data byte of area M written marks the area, and area L's last byte done clears its mark (log entry 32). -/
theorem test_save_marks :
    let s := fun p => ({ State.reset with
      settings := testSettings, store := { Store.reset with mode := .running, save := some p, mixedL := true } } : State)
    after (.saveByteDone true) (s ⟨.m, 1533, true, 3⟩) (fun t => (t.store.mixedM, t.store.mixedL)) = some (true, true) ∧
      after (.saveByteDone true) (s ⟨.m, 1534, true, 3⟩) (fun t => (t.store.mixedM, t.store.mixedL)) = some (false, true) ∧
      after (.saveByteDone true) (s ⟨.l, 511, true, 3⟩) (fun t => (t.store.mixedL, t.store.save)) = some (false, none) := by
  exact ⟨by decide, by decide, by decide⟩

/-! ### The link -/

def answering : State := { ready with link := { ready.link with reply := some ⟨0x16, .ok, []⟩ } }

theorem test_hyp_FramesDuringAReplyAreDiscarded :
    answering.listening = true ∧ answering.link.reply ≠ none ∧ (Instr.holdAll).wellFormed = true ∧
      frameFields .holdAll ≠ none ∧ (Instr.pendingFrameDiscard).wellFormed = true := by decide

theorem test_hyp_FramesWithoutEffect :
    (Instr.unknownRequest 0x50 []).wellFormed = true ∧ (Instr.broadcastIgnored 0x50 [0]).wellFormed = true ∧
      (Instr.readLoad [7]).wellFormed = true ∧ ([7] : List Byte).length ≠ 2 ∧
      (Instr.defineRecipe [0, 12, 0, 150, 5, 1]).wellFormed = true ∧
      ([0, 12, 0, 150, 5, 1] : List Byte).length ≠ 6 + 3 * fieldAt [0, 12, 0, 150, 5, 1] 5 1 := by decide

theorem test_hyp_DiscardedFramesAreCounted :
    let s := ({ ready with link := { ready.link with frame := some ⟨true, []⟩, receiver := .receive } } : State)
    ready.link.errors < 65000 ∧ ready.link.frame = none ∧ s.link.frame = some ⟨true, []⟩ ∧
      (9 : Byte) ≠ 0 ∧ (9 : Byte).toNat ≠ ready.link.address := by decide

/-- A pending reply on a station with a STOP and a WARN alarm latched, and a reply on the line. -/
theorem test_hyp_RepliesGoOut :
    let s := (answering.setAlarm 0 ⟨[.noFlow], some .noFlow, []⟩).setAlarm 7 ⟨[.overrunHigh], some .overrunHigh, []⟩
    answering.link.reply = some ⟨0x16, .ok, []⟩ ∧ answering.link.sending = none ∧ answering.operating = true ∧
      (∃ k ∈ (s.alarm 0).latched, s.classOf k = .stop) ∧ (∃ k ∈ (s.alarm 7).latched, s.classOf k = .warn) ∧
      (1 : Nat).testBit 0 = true ∧ (128 : Nat).testBit 7 = true ∧ (255 : Nat) < 256 ∧ (31 : Nat) < 32 ∧
      ({ ready with link := { ready.link with sending := some [] } } : State).link.sending ≠ none ∧
      ready.store.restart = false := by decide

theorem test_hyp_RequestsSurviveTheirFrame :
    frameFields (.readLoad [0, 7]) = some (false, 0x16, [0, 7]) ∧ (Instr.readLoad [0, 7]).wellFormed = true := by decide

/-- Each valve command, a setpoint above 0, an injector stroking, a reply on the line, and the commands at which every
output goes off. -/
theorem test_hyp_GasOutputsFollowTheCommand :
    let s := fun v => ({ low.setArm 0 { low.arm 0 with valve := v } with
      link := { low.link with sending := some [69, 10] } } : State)
    ((s .close).arm 0).valve = .close ∧ ((s .hold).arm 0).valve = .hold ∧ ((s .openFurther).arm 0).valve = .openFurther ∧
      0 < (finish.ratio 0).setpoint ∧
      ((withInjector ⟨.stroking, false, some ⟨some 7⟩, 3, 0, some 250⟩).injector 0).state = .stroking ∧
      (s .hold).link.sending = some [69, 10] ∧ low.link.sending = none ∧
      ([69, 10] : List Byte)[1]? = some 10 ∧ restarting.link.sending ≠ none ∧ restarting.store.restart = true := by decide

theorem test_outputs_off :
    let f := fun (t : State) => (t.gasOutput1 0, t.gasOutput2 0, t.blockValve 0, t.driverEnable, t.ltx 0)
    after .powerDown finish f = some (false, false, false, false, true) ∧
      after .replyEnd restarting f = some (false, false, false, false, true) := by
  exact ⟨by decide, by decide⟩

/-- The step has a next state from each invariant's own state. -/
theorem test_hyp_Steps :
    low.memory.wf = true ∧ low.pending = [] ∧ step low = .next low.tick := ⟨by decide, by decide, rfl⟩

end Sys2Proof.Tests
end

section
/-! SUPPORT. The link around a request's owner (R183, R185), and the refusals of STAGE LOAD (R9). -/

namespace Sys2Proof.Machine

/-! ## Fields of a payload (R192) -/

theorem fromBytes_concat (bs : List Byte) (b : Byte) : fromBytes (bs ++ [b]) = fromBytes bs * 256 + b.toNat := by
  rw [fromBytes, List.foldl_append]; rfl

theorem fromBytes_lt (bs : List Byte) : fromBytes bs < 256 ^ bs.length := by
  induction bs using List.reverseRecOn with
  | nil => exact Nat.zero_lt_one
  | append_singleton bs b ih =>
    have hb : b.toNat < 256 := b.isLt
    rw [fromBytes_concat, List.length_append, List.length_singleton, Nat.pow_succ]
    omega

/-- A field is below the bound its width sets, also where the payload ends inside it. -/
theorem fieldAt_lt (p : List Byte) (offset width : Nat) : fieldAt p offset width < 256 ^ width :=
  (fromBytes_lt _).trans_le (Nat.pow_le_pow_right (by omega) (List.length_take_le _ _))

theorem armNumbered_armNumber (n : ArmId) : armNumbered (armNumber n) = some n :=
  dif_pos ⟨Nat.succ_pos _, n.isLt⟩

/-! ## The state a request's owner is given (R183)

`receiveGood` writes the link alone, so that every other field of the state reads as before the frame, by `rfl`. -/

theorem State.receiveGood_eq (s : State) (b : Bool) : s.receiveGood b = s.withLink (s.linkReceived b) := by
  have hlink : (s.link.abandonOther b).toState .wait none =
      { s.link with receiver := .wait, frame := none, errors := (s.link.abandonOther b).errors } := by
    unfold Link.abandonOther
    split
    · split <;> rfl
    · rfl
  rw [State.receiveGood, hlink]
  rfl

/-- An answer that leaves the state it was given changes the link alone. -/
theorem Answer.pend_receiveGood (s : State) (r : Result) (payload : List Byte) (code : Byte) :
    (⟨s.receiveGood false, r, payload⟩ : Answer).pend code = s.withLink (s.linkAnswered code r payload) := by
  rw [State.receiveGood_eq]; rfl

/-- A request whose length fits, at a station that takes it, is answered by its owner. -/
theorem State.takeRequest_accepted {s : State} (hs : s.Accepts) {code : Byte} {p : List Byte}
    (hp : frameExists p = true) (owner : State → Answer) :
    s.takeRequest code p true owner = (owner (s.receiveGood false)).pend code := by
  rw [State.takeRequest, hs.listening, hp, hs.nonePending]; rfl

/-! ## STAGE LOAD: the checks one by one (R9) -/

theorem exec_stageLoad (p : List Byte) (s : State) : exec (.stageLoad p) s = execStageLoad p s := rfl

theorem exec_stageLoad_accepted {s : State} (hs : s.Accepts) {p : List Byte} (hp : p.length = 7) :
    exec (.stageLoad p) s = .next (((s.receiveGood false).answerStage p).pend 0x10) := by
  have hfits : fitsLength 8 p = true := by simp [fitsLength, frameLength, hp]
  have hexists : frameExists p = true := by simp [frameExists, frameLength, hp]
  rw [exec_stageLoad, execStageLoad, hfits, State.takeRequest_accepted hs hexists]

/-- An owner's answer that leaves the state it was given becomes the reply of STAGE LOAD. -/
theorem exec_stageLoad_of_answer {s : State} (hs : s.Accepts) {p : List Byte} (hp : p.length = 7) {r : Result}
    {payload : List Byte} (h : (s.receiveGood false).answerStage p = ⟨s.receiveGood false, r, payload⟩) :
    exec (.stageLoad p) s = .next (s.withLink (s.linkAnswered 0x10 r payload)) := by
  rw [exec_stageLoad_accepted hs hp, h, Answer.pend_receiveGood]

/-- Check 2. A load number of two bytes has no upper bound to fail. -/
theorem stageFields_inRange (p : List Byte) :
    (stageFields p).inRange = true ↔ fieldAt p 0 2 ≠ 0 ∧ (1 ≤ fieldAt p 2 1 ∧ fieldAt p 2 1 ≤ 8) ∧
      (1 ≤ fieldAt p 3 2 ∧ fieldAt p 3 2 ≤ 999) ∧ 50 ≤ fieldAt p 5 2 ∧ fieldAt p 5 2 ≤ 40000 := by
  have hnumber : fieldAt p 0 2 < 65536 := fieldAt_lt p 0 2
  simp only [StageFields.inRange, Bool.and_eq_true, decide_eq_true_eq]
  simp only [stageFields]
  omega

section
variable {s : State} {p : List Byte}

theorem State.answerStage_unconfigured (hmode : s.store.mode = .unconfigured) :
    s.answerStage p = .refuse s .unconfigured := if_pos hmode

variable (hmode : s.store.mode = .running)
include hmode

theorem State.answerStage_badField (hrange : ¬ (stageFields p).inRange = true) :
    s.answerStage p = .refuse s .badField := by
  simp [State.answerStage, hmode, hrange]

theorem State.answerStage_duplicate (hrange : (stageFields p).inRange = true) (hload : s.load? (fieldAt p 0 2) ≠ none) :
    s.answerStage p = .refuse s .duplicate := by
  have hsome : (s.load? (stageFields p).number).isSome = true := Option.isSome_iff_ne_none.mpr hload
  simp [State.answerStage, hmode, hrange, hsome]

/-- Past the first three checks the arm and the recipe decide. -/
theorem State.answerStage_fresh {n : ArmId} (hrange : (stageFields p).inRange = true)
    (hload : s.load? (fieldAt p 0 2) = none) (harm : fieldAt p 2 1 = armNumber n) :
    s.answerStage p = s.answerStageOn n (stageFields p) := by
  have hnone : s.load? (stageFields p).number = none := hload
  have hnumbered : armNumbered (stageFields p).arm = some n :=
    (congrArg armNumbered harm).trans (armNumbered_armNumber n)
  simp [State.answerStage, hmode, hrange, hnone, hnumbered]

end

section
variable {s : State} {n : ArmId} {v : StageFields} {r : Recipe}

theorem State.answerStageOn_notFound (h : s.recipe? v.recipe = none) : s.answerStageOn n v = .refuse s .notFound := by
  rw [State.answerStageOn, h]

variable (hrecipe : s.recipe? v.recipe = some r)
include hrecipe

theorem State.answerStageOn_wrongState (hstate : r.state = .retiring) :
    s.answerStageOn n v = .refuse s .wrongState := by
  simp [State.answerStageOn, hrecipe, hstate]

variable (hstate : r.state = .active)
include hstate

theorem State.answerStageOn_notPermitted (harm : (s.arm n).mode = .outOfService) :
    s.answerStageOn n v = .refuse s .notPermitted := by
  simp [State.answerStageOn, hrecipe, hstate, harm]

variable (harm : (s.arm n).mode ≠ .outOfService)
include harm

theorem State.answerStageOn_tableFull (hfull : 16 ≤ s.loads.length) :
    s.answerStageOn n v = .refuse s .tableFull := by
  simp [State.answerStageOn, hrecipe, hstate, harm, hfull]

variable (hroom : s.loads.length < 16)
include hroom

theorem State.answerStageOn_armQueueFull (hstaged : 3 ≤ s.stagedCount n) :
    s.answerStageOn n v = .refuse s .armQueueFull := by
  simp [State.answerStageOn, hrecipe, hstate, harm, Nat.not_le.mpr hroom, hstaged]

theorem State.answerStageOn_entryFault (hstaged : s.stagedCount n < 3) {result : Result} {k : Nat}
    (hfault : s.entryFault n 1 r.entries = some (result, k)) :
    s.answerStageOn n v = ⟨s, result, byte1 k⟩ := by
  simp [State.answerStageOn, hrecipe, hstate, harm, Nat.not_le.mpr hroom, Nat.not_le.mpr hstaged, hfault]

end

/-! ## Checks 9 and 10, entry by entry (R9, R146, R147) -/

section
variable (s : State) (n : ArmId) (k : Nat) (e : RecipeEntry) (rest : List RecipeEntry)

/-- An entry that passes both checks: an injector on the arm has its code and keeps up with its interval. -/
def State.entryPasses : Prop :=
  ∃ i, s.injectorFor n e.code = some i ∧
    minInterval (s.armCfg n).highRate (s.injCfg i) ≤ interval (s.injCfg i).stroke e.dose

variable {s n e}

theorem State.entryFault_noInjector (h : s.injectorFor n e.code = none) :
    s.entryFault n k (e :: rest) = some (.noInjector, k) := by
  rw [State.entryFault, h]

theorem State.entryFault_doseTooHigh {i : InjId} (h : s.injectorFor n e.code = some i)
    (hdose : interval (s.injCfg i).stroke e.dose < minInterval (s.armCfg n).highRate (s.injCfg i)) :
    s.entryFault n k (e :: rest) = some (.doseTooHigh, k) := by
  rw [State.entryFault, h]; exact if_pos hdose

theorem State.entryFault_of_passes (h : s.entryPasses n e) :
    s.entryFault n k (e :: rest) = s.entryFault n (k + 1) rest := by
  obtain ⟨i, hi, hdose⟩ := h
  rw [State.entryFault, hi]; exact if_neg (Nat.not_lt.mpr hdose)

theorem State.passes_of_entryFault_none (h : s.entryFault n k (e :: rest) = none) : s.entryPasses n e := by
  cases hi : s.injectorFor n e.code with
  | none => rw [State.entryFault_noInjector k rest hi] at h; cases h
  | some i =>
    refine ⟨i, hi, Nat.not_lt.mp fun hdose => ?_⟩
    rw [State.entryFault_doseTooHigh k rest hi hdose] at h
    cases h

end

/-- Entries that pass leave the fault to those after them, at their own positions. -/
theorem State.entryFault_append {s : State} {n : ArmId} {before : List RecipeEntry} {k : Nat}
    (h : s.entryFault n k before = none) (rest : List RecipeEntry) :
    s.entryFault n k (before ++ rest) = s.entryFault n (k + before.length) rest := by
  induction before generalizing k with
  | nil => rfl
  | cons e before ih =>
    have hpass := State.passes_of_entryFault_none k before h
    rw [State.entryFault_of_passes k before hpass] at h
    rw [List.cons_append, State.entryFault_of_passes k _ hpass, ih h, List.length_cons,
      Nat.add_right_comm, Nat.add_assoc]

/-- The frame of a request changes no setting the two checks read. -/
theorem State.receiveGood_entryFault (s : State) (b : Bool) (n : ArmId) (k : Nat) (entries : List RecipeEntry) :
    (s.receiveGood b).entryFault n k entries = s.entryFault n k entries := by
  induction entries generalizing k with
  | nil => rfl
  | cons e rest ih => simp only [State.entryFault, ih]; rfl

/-! ## The order of the ten checks (R9) -/

/-- Settles O37: each check's answer is the owner's, and `receiveGood` leaves what the checks read. -/
theorem stageRefusesInOrder : Obligations.StageRefusesInOrder := by
  intro p n r s hs hp
  refine ⟨fun hmode => exec_stageLoad_of_answer hs hp (State.answerStage_unconfigured hmode), fun hmode => ⟨?_, ?_⟩⟩
  · intro hbad
    refine exec_stageLoad_of_answer hs hp (State.answerStage_badField hmode ?_)
    rw [stageFields_inRange]
    omega
  intro hnumber harm hrecipeLow hrecipeHigh hpresetLow hpresetHigh
  have hrange : (stageFields p).inRange = true := by
    have hn := n.isLt
    rw [stageFields_inRange, harm, armNumber]
    omega
  refine ⟨fun hload => exec_stageLoad_of_answer hs hp (State.answerStage_duplicate hmode hrange hload), ?_⟩
  rw [← forall_and]
  intro hload
  -- Checks 4 to 10: what the arm and the recipe answer is the reply.
  have onArm {result : Result} {payload : List Byte}
      (h : (s.receiveGood false).answerStageOn n (stageFields p) = ⟨s.receiveGood false, result, payload⟩) :
      exec (.stageLoad p) s = .next (s.withLink (s.linkAnswered 0x10 result payload)) :=
    exec_stageLoad_of_answer hs hp
      ((State.answerStage_fresh (s := s.receiveGood false) hmode hrange hload harm).trans h)
  refine ⟨fun hrecipe => onArm (State.answerStageOn_notFound hrecipe), fun hrecipe => ?_⟩
  refine ⟨fun hstate => onArm (State.answerStageOn_wrongState hrecipe hstate), fun hstate => ?_⟩
  refine ⟨fun hout => onArm (State.answerStageOn_notPermitted hrecipe hstate hout), fun hout => ?_⟩
  refine ⟨fun hfull => onArm (State.answerStageOn_tableFull hrecipe hstate hout hfull), fun hroom => ?_⟩
  refine ⟨fun hqueue => onArm (State.answerStageOn_armQueueFull hrecipe hstate hout hroom hqueue), fun hqueue => ?_⟩
  intro e before after hentries hbefore
  -- Checks 9 and 10: the entries before `e` pass, so the fault at `e` is the list's first.
  have onEntry {result : Result}
      (h : s.entryFault n (1 + before.length) (e :: after) = some (result, 1 + before.length)) :
      exec (.stageLoad p) s = .next (s.withLink (s.linkAnswered 0x10 result (byte1 (before.length + 1)))) := by
    rw [← State.entryFault_append hbefore, ← hentries, ← s.receiveGood_entryFault false, Nat.add_comm] at h
    exact onArm (State.answerStageOn_entryFault (s := s.receiveGood false) (v := stageFields p) hrecipe hstate hout hroom
      hqueue h)
  exact ⟨fun hnone => onEntry (State.entryFault_noInjector _ after hnone),
    fun _ hi hdose => onEntry (State.entryFault_doseTooHigh _ after hi hdose)⟩

end Sys2Proof.Machine
end

section
/-! SUPPORT. The recipe requests: DEFINE RECIPE (R35), READ RECIPE (R38) and LIST RECIPES (R39). -/

namespace Sys2Proof.Machine

/-! ## A taken request whose owner leaves the state, or adds to the recipe table (R183) -/

theorem State.takeRequest_of_answer {s : State} (hs : s.Accepts) {code : Byte} {p : List Byte}
    (hp : frameExists p = true) {owner : State → Answer} {r : Result} {payload : List Byte}
    (h : owner (s.receiveGood false) = ⟨s.receiveGood false, r, payload⟩) :
    s.takeRequest code p true owner = s.withLink (s.linkAnswered code r payload) := by
  rw [State.takeRequest_accepted hs hp, h, Answer.pend_receiveGood]

theorem State.takeRequest_of_withRecipes {s : State} (hs : s.Accepts) {code : Byte} {p : List Byte}
    (hp : frameExists p = true) {owner : State → Answer} {table : List Recipe} {r : Result} {payload : List Byte}
    (h : owner (s.receiveGood false) = ⟨(s.receiveGood false).withRecipes table, r, payload⟩) :
    s.takeRequest code p true owner = (s.withLink (s.linkAnswered code r payload)).withRecipes table := by
  rw [State.takeRequest_accepted hs hp, h, State.receiveGood_eq]; rfl

theorem frameExists_iff (p : List Byte) : frameExists p = true ↔ p.length ≤ 249 := by
  rw [frameExists, decide_eq_true_eq, frameLength]; omega

theorem fitsLength_iff (n : Nat) (p : List Byte) : fitsLength n p = true ↔ p.length + 1 = n := by
  rw [fitsLength, beq_iff_eq, frameLength]

theorem fitsRecipe_iff (p : List Byte) :
    fitsRecipe p = true ↔ 6 ≤ p.length ∧ p.length = 6 + 3 * fieldAt p 5 1 := by
  rw [fitsRecipe, Bool.and_eq_true, decide_eq_true_eq, beq_iff_eq, frameLength]; omega

/-! ## DEFINE RECIPE: the check of the fields, and the checks in order (R35) -/

theorem codesRepeat_eq_false_iff (entries : List RecipeEntry) :
    codesRepeat entries = false ↔ (entries.map (·.code)).Nodup := by
  induction entries with
  | nil => simp [codesRepeat]
  | cons e rest ih => simp [codesRepeat, ih]

theorem RecipeFields.inRange_iff (v : RecipeFields) :
    v.inRange = true ↔ 1 ≤ v.number ∧ v.number ≤ 999 ∧ v.fraction ≤ 850 ∧ 1 ≤ v.tolerance ∧ v.tolerance ≤ 50 ∧
      v.entries.length ≤ 3 ∧ (∀ e ∈ v.entries, 1 ≤ e.code ∧ e.code ≤ 8 ∧ 1 ≤ e.dose ∧ e.dose ≤ 9999) ∧
      (v.entries.map (·.code)).Nodup := by
  simp only [RecipeFields.inRange, Bool.and_eq_true, decide_eq_true_eq, List.all_eq_true, Bool.not_eq_true',
    codesRepeat_eq_false_iff, and_assoc]

section
variable {s : State} {p : List Byte}

theorem State.answerDefine_badField (hrange : ¬ (recipeFields p).inRange = true) :
    s.answerDefine p = .refuse s .badField := by
  simp [State.answerDefine, hrange]

variable (hrange : (recipeFields p).inRange = true)
include hrange

theorem State.answerDefine_duplicate (hrecipe : s.recipe? (recipeFields p).number ≠ none) :
    s.answerDefine p = .refuse s .duplicate := by
  simp [State.answerDefine, hrange, Option.isSome_iff_ne_none.mpr hrecipe]

variable (hrecipe : s.recipe? (recipeFields p).number = none)
include hrecipe

theorem State.answerDefine_tableFull (hfull : 24 ≤ s.recipes.length) : s.answerDefine p = .refuse s .tableFull := by
  simp [State.answerDefine, hrange, hrecipe, hfull]

theorem State.answerDefine_adds (hroom : s.recipes.length < 24) :
    s.answerDefine p =
      .ok (s.withRecipes (s.recipes ++ [(recipeFields p).define])) (be16 (recipeFields p).number) := by
  simp [State.answerDefine, hrange, hrecipe, Nat.not_le.mpr hroom]

end

theorem exec_defineRecipe (p : List Byte) (s : State) : exec (.defineRecipe p) s = execDefineRecipe p s := rfl

/-- A frame of the length its entry count gives is the owner's to answer. -/
theorem exec_defineRecipe_fitting {p : List Byte} (hfits : fitsRecipe p = true) (s : State) :
    exec (.defineRecipe p) s = .next (s.takeRequest 0x20 p true (·.answerDefine p)) := by
  rw [exec_defineRecipe, execDefineRecipe, hfits]

/-- Settles O40: each check's answer is the owner's, and `receiveGood` leaves the table it reads. -/
theorem defineAddsARecipe : Obligations.DefineAddsARecipe := by
  intro p v inRange s hs hlow hcount hhigh hv hrange
  subst hv
  rw [← RecipeFields.inRange_iff] at hrange
  rw [hrange]
  have hexec := exec_defineRecipe_fitting ((fitsRecipe_iff p).mpr ⟨hlow, hcount⟩) s
  have hexists : frameExists p = true := (frameExists_iff p).mpr hhigh
  have refused {r : Result} (h : (s.receiveGood false).answerDefine p = .refuse (s.receiveGood false) r) :
      exec (.defineRecipe p) s = .next (s.refusedAs 0x20 r) := by
    rw [hexec, State.takeRequest_of_answer hs hexists h, State.refusedAs]
  refine ⟨fun hbad => refused (State.answerDefine_badField hbad),
    fun hgood hdup => refused (State.answerDefine_duplicate hgood hdup),
    fun hgood hnew hfull => refused (State.answerDefine_tableFull hgood hnew hfull), fun hgood hnew hroom => ?_⟩
  have hadds := State.answerDefine_adds (s := s.receiveGood false) hgood hnew hroom
  rw [hexec, State.takeRequest_of_withRecipes hs hexists hadds]
  rfl

/-! ## Requests that name a recipe, and READ RECIPE (R37, R38) -/

section
variable {s : State} {number : Nat} {f : Recipe → Answer}

theorem State.forRecipe_badField (h : number = 0 ∨ 999 < number) : s.forRecipe number f = .refuse s .badField :=
  if_pos (by omega)

variable (hlow : 1 ≤ number) (hhigh : number ≤ 999)
include hlow hhigh

theorem State.forRecipe_notFound (hrecipe : s.recipe? number = none) : s.forRecipe number f = .refuse s .notFound := by
  rw [State.forRecipe, if_neg (by omega), hrecipe]

theorem State.forRecipe_found {r : Recipe} (hrecipe : s.recipe? number = some r) : s.forRecipe number f = f r := by
  rw [State.forRecipe, if_neg (by omega), hrecipe]

end

theorem RecipeState.code_eq (st : RecipeState) : st.code = if st = .active then 1 else 2 := by
  cases st <;> rfl

theorem exec_readRecipe (p : List Byte) (s : State) : exec (.readRecipe p) s = execReadRecipe p s := rfl

/-- An owner's answer that leaves the state it was given becomes the reply of READ RECIPE. -/
theorem exec_readRecipe_of_answer {s : State} (hs : s.Accepts) {p : List Byte} (hp : p.length = 2) {r : Result}
    {payload : List Byte} (h : (s.receiveGood false).answerReadRecipe p = ⟨s.receiveGood false, r, payload⟩) :
    exec (.readRecipe p) s = .next (s.withLink (s.linkAnswered 0x23 r payload)) := by
  have hfits : fitsLength 3 p = true := by rw [fitsLength_iff, hp]
  have hexists : frameExists p = true := by rw [frameExists_iff, hp]; decide
  rw [exec_readRecipe, execReadRecipe, hfits, State.takeRequest_of_answer hs hexists h]

/-- Settles O42: the recipe is looked up in the table as before the frame. -/
theorem readRecipeReportsTheRecipe : Obligations.ReadRecipeReportsTheRecipe := by
  intro p r s hs hp
  refine ⟨fun hbad => exec_readRecipe_of_answer hs hp (State.forRecipe_badField hbad), fun hlow hhigh => ⟨?_, ?_⟩⟩
  · exact fun hnone => exec_readRecipe_of_answer hs hp (State.forRecipe_notFound hlow hhigh hnone)
  · intro hsome
    rw [← RecipeState.code_eq]
    exact exec_readRecipe_of_answer hs hp (State.forRecipe_found (s := s.receiveGood false) hlow hhigh hsome)

/-! ## LIST RECIPES (R39) -/

/-- The order of LIST RECIPES: by number. -/
abbrev Recipe.numberLE : Recipe → Recipe → Prop := Order.Preimage Recipe.number (· ≤ ·)

theorem insertByNumber_eq_orderedInsert (r : Recipe) (rs : List Recipe) :
    insertByNumber r rs = rs.orderedInsert Recipe.numberLE r := by
  induction rs with
  | nil => rfl
  | cons x rest ih => rw [insertByNumber, ih]; rfl

/-- The model's sort is the library's insertion sort. -/
theorem sortByNumber_eq_insertionSort (rs : List Recipe) :
    sortByNumber rs = rs.insertionSort Recipe.numberLE := by
  induction rs with
  | nil => rfl
  | cons r rest ih => rw [sortByNumber, ih, insertByNumber_eq_orderedInsert]; rfl

theorem sortByNumber_perm (rs : List Recipe) : (sortByNumber rs).Perm rs := by
  rw [sortByNumber_eq_insertionSort]; exact List.perm_insertionSort _ rs

theorem sortByNumber_pairwise (rs : List Recipe) :
    (sortByNumber rs).Pairwise (fun a b => a.number ≤ b.number) := by
  rw [sortByNumber_eq_insertionSort]; exact List.pairwise_insertionSort Recipe.numberLE rs

theorem Recipe.listEntry_eq (r : Recipe) :
    r.listEntry =
      be16 r.number ++ byte1 (if r.state = .active then 1 else 2) ++ be16 r.fraction ++ byte1 r.count := by
  rw [Recipe.listEntry, RecipeState.code_eq]

/-- The sort drops and repeats no recipe, so the count of the reply is the table's. -/
theorem State.recipeList_eq (s : State) :
    s.recipeList =
      byte1 (sortByNumber s.recipes).length ++ (sortByNumber s.recipes).flatMap fun r =>
        be16 r.number ++ byte1 (if r.state = .active then 1 else 2) ++ be16 r.fraction ++ byte1 r.count := by
  rw [State.recipeList, (sortByNumber_perm s.recipes).length_eq, funext Recipe.listEntry_eq]

theorem exec_listRecipes (p : List Byte) (s : State) : exec (.listRecipes p) s = execListRecipes p s := rfl

theorem exec_listRecipes_accepted {s : State} (hs : s.Accepts) :
    exec (.listRecipes []) s = .next (s.withLink (s.linkAnswered 0x24 .ok s.recipeList)) := by
  have hanswer : Answer.ok (s.receiveGood false) (s.receiveGood false).recipeList =
      ⟨s.receiveGood false, .ok, s.recipeList⟩ := rfl
  rw [exec_listRecipes, execListRecipes, (fitsLength_iff 1 []).mpr rfl, State.takeRequest_of_answer hs rfl hanswer]

/-- Settles O43: the table's insertion sort is the ascending list. -/
theorem listRecipesAscends : Obligations.ListRecipesAscends := by
  intro s hs
  refine ⟨sortByNumber s.recipes, sortByNumber_perm s.recipes, sortByNumber_pairwise s.recipes, ?_⟩
  rw [← State.recipeList_eq]
  exact exec_listRecipes_accepted hs

end Sys2Proof.Machine
end

section
/-! SUPPORT. The start state of every block (R194), and the events that begin a start (R193, R200). -/

namespace Sys2Proof.Machine

/-! ## The blocks in their start state (R194) -/

/-- Each arm goes into its start state on its own compensation history (R103). -/
theorem State.startState_arm (s : State) (n : ArmId) : s.startState.arm n = ArmSeq.start (s.arm n).history := by
  fin_cases n <;> rfl

theorem State.startState_ratio (s : State) (n : ArmId) : s.startState.ratio n = Ratio.start :=
  Vector.getElem_replicate n.isLt

theorem State.startState_resv (s : State) (n : ArmId) : s.startState.resv n = Reservation.start :=
  Vector.getElem_replicate n.isLt

theorem State.startState_meter (s : State) (m : MeterId) : s.startState.meter m = Meter.start :=
  Vector.getElem_replicate m.isLt

theorem State.startState_channel (s : State) (m : MeterId) : s.startState.channel m = TempChannel.start :=
  Vector.getElem_replicate m.isLt

theorem State.startState_injector (s : State) (i : InjId) : s.startState.injector i = Injector.start :=
  Vector.getElem_replicate i.isLt

theorem State.startState_alarm (s : State) (n : ArmId) : s.startState.alarm n = ArmAlarms.start :=
  Vector.getElem_replicate n.isLt

theorem State.startState_startedInto (s : State) : s.StartedInto s.startState where
  loads := rfl
  recipes := rfl
  arms := s.startState_arm
  ratios := s.startState_ratio
  reservations := s.startState_resv
  queue := rfl
  meters := s.startState_meter
  channels := s.startState_channel
  port := rfl
  injectors := s.startState_injector
  alarms := s.startState_alarm
  stationAlarms := rfl
  receiver := ⟨rfl, rfl⟩
  replies := ⟨rfl, rfl, rfl⟩
  silence := ⟨rfl, rfl⟩
  store := ⟨rfl, rfl, rfl, rfl⟩
  marks := ⟨rfl, rfl⟩
  straps := ⟨rfl, rfl⟩
  address := ⟨rfl, rfl⟩
  kept := ⟨rfl, rfl, rfl, rfl, rfl, rfl⟩

/-! ## The beginning of a start (R193) -/

theorem State.beginStart_cause (s : State) (c : ResetCause) : (s.beginStart c).store.cause = c := rfl

/-- The timer of POWER_ON runs only with the supply up and RESETn high. -/
theorem State.beginStart_startTimer (s : State) (c : ResetCause) :
    (s.beginStart c).store.startTimer =
      if (s.beginStart c).store.supplyUp && !(s.beginStart c).store.resetLow then some (s.now + 100) else none := rfl

/-- What an event writes before its start, and the start's own cause and timer, are part of no block's start state,
when the event leaves the marks and straps of the store and the address of the link. -/
theorem State.beginStart_startedInto {s : State} {x : Store} {k : Link} {c : ResetCause}
    (hmarks : x.mixedM = s.store.mixedM ∧ x.mixedL = s.store.mixedL)
    (hstraps : x.sampledStraps = s.store.sampledStraps ∧ x.filteredStraps = s.store.filteredStraps)
    (haddress : k.address = s.link.address ∧ k.source = s.link.source) :
    s.StartedInto (((s.withStore x).withLink k).beginStart c) :=
  { ((s.withStore x).withLink k).startState_startedInto with
    marks := hmarks, straps := hstraps, address := haddress }

/-! ## The events that begin a start (R193, R200) -/

theorem exec_powerUp (s : State) :
    exec .powerUp s = .next ((s.withStore { s.store with supplyUp := true }).beginStart .powerOn) := rfl

theorem exec_resetRelease (s : State) :
    exec .resetRelease s = .next ((s.withStore { s.store with resetLow := false }).beginStart .resetPin) := rfl

/-- The link at the end of a reply: its line off, and the speed of the working setting in force (R188). -/
def State.linkReplied (s : State) : Link :=
  { s.link.toState .wait none with sending := none, speed := s.settings.station.lineSpeed }

theorem exec_replyEnd (s : State) : exec .replyEnd s = execReplyEnd s := rfl

/-- The end of the reply to an accepted RESTART begins its start (R200). -/
theorem exec_replyEnd_restart {s : State} (hsending : s.link.sending.isSome = true)
    (hrestart : s.store.restart = true) :
    exec .replyEnd s = .next ((s.withLink s.linkReplied).beginStart .hostRestart) := by
  obtain ⟨frame, hframe⟩ := Option.isSome_iff_exists.mp hsending
  rw [exec_replyEnd, execReplyEnd, hframe]
  exact congrArg _ (if_pos hrestart)

/-- Settles O4: each event writes its own lead or the link, then begins the start. -/
theorem startsPutEveryBlockIntoItsStartState : Obligations.StartsPutEveryBlockIntoItsStartState := by
  intro c cause s hevent
  obtain ⟨rfl, rfl⟩ | ⟨rfl, rfl⟩ | ⟨rfl, rfl, hsending, hrestart⟩ := hevent
  · have hinto := State.beginStart_startedInto (s := s) (x := { s.store with supplyUp := true }) (k := s.link)
      (c := .powerOn) ⟨rfl, rfl⟩ ⟨rfl, rfl⟩ ⟨rfl, rfl⟩
    exact ⟨_, exec_powerUp s, hinto, State.beginStart_cause _ _, State.beginStart_startTimer _ _, rfl,
      (Bool.or_true _).symm, (Bool.and_true _).symm⟩
  · have hinto := State.beginStart_startedInto (s := s) (x := { s.store with resetLow := false }) (k := s.link)
      (c := .resetPin) ⟨rfl, rfl⟩ ⟨rfl, rfl⟩ ⟨rfl, rfl⟩
    exact ⟨_, exec_resetRelease s, hinto, State.beginStart_cause _ _, State.beginStart_startTimer _ _, rfl,
      (Bool.or_false _).symm, (Bool.and_false _).symm⟩
  · have hinto := State.beginStart_startedInto (s := s) (x := s.store) (k := s.linkReplied)
      (c := .hostRestart) ⟨rfl, rfl⟩ ⟨rfl, rfl⟩ ⟨rfl, rfl⟩
    exact ⟨_, exec_replyEnd_restart hsending hrestart, hinto, State.beginStart_cause _ _,
      State.beginStart_startTimer _ _, rfl, (Bool.or_false _).symm, (Bool.and_true _).symm⟩

end Sys2Proof.Machine
end

section
/-! SUPPORT. What every command keeps: the queue behind it and, but for the save, the settings memory; the step and
the tick. -/

namespace Sys2Proof.Machine

/-! ## What holds of the next state, if there is one -/

/-- `P` holds of the next state of an outcome, if it has one. -/
def Yields (P : State → Prop) : Host.Outcome State Fault Refusal → Prop
  | .next t => P t
  | .fault _ => True
  | .refused _ => True

theorem Yields.next {P : State → Prop} {o : Host.Outcome State Fault Refusal} {t : State} (h : Yields P o)
    (ho : o = .next t) : P t := by
  subst ho; exact h

/-! ## The queue and the settings memory -/

/-- The queue of commands and the settings memory stay as they were. -/
structure Stays (s t : State) : Prop where
  pending : t.pending = s.pending
  memory : t.memory = s.memory

theorem Stays.refl (s : State) : Stays s s := ⟨rfl, rfl⟩

theorem Stays.trans {s t u : State} (h : Stays s t) (k : Stays t u) : Stays s u :=
  ⟨k.pending.trans h.pending, k.memory.trans h.memory⟩

theorem Keeps.stays {s t : State} (h : Keeps s t) : Stays s t := ⟨h.pending, h.memory⟩

theorem Stays.ite {c : Prop} [Decidable c] {s t u : State} (h : Stays s t) (k : Stays s u) :
    Stays s (if c then t else u) := by
  split
  · exact h
  · exact k

theorem Stays.foldl {α : Type} (op : State → α → State) (h : ∀ s a, Stays s (op s a)) (s : State) (l : List α) :
    Stays s (l.foldl op s) := by
  induction l generalizing s with
  | nil => exact .refl s
  | cons a rest ih => exact (h s a).trans (ih (op s a))

theorem State.withLoads_stays (s : State) (x : List Load) : Stays s (s.withLoads x) := ⟨rfl, rfl⟩
theorem State.withRecipes_stays (s : State) (x : List Recipe) : Stays s (s.withRecipes x) := ⟨rfl, rfl⟩
theorem State.withPort_stays (s : State) (x : TempPort) : Stays s (s.withPort x) := ⟨rfl, rfl⟩
theorem State.withLevels_stays (s : State) (x : PermLevels) : Stays s (s.withLevels x) := ⟨rfl, rfl⟩
theorem State.withButtons_stays (s : State) (x : ButtonLevels) : Stays s (s.withButtons x) := ⟨rfl, rfl⟩
theorem State.withNow_stays (s : State) (x : Nat) : Stays s (s.withNow x) := ⟨rfl, rfl⟩
theorem State.modChannel_stays (s : State) (m : MeterId) (f : TempChannel → TempChannel) : Stays s (s.modChannel m f) :=
  ⟨rfl, rfl⟩

/-! ## The owners of the requests -/

@[simp] theorem Answer.ok_state (s : State) (payload : List Byte) : (Answer.ok s payload).state = s := rfl
@[simp] theorem Answer.refuse_state (s : State) (r : Result) : (Answer.refuse s r).state = s := rfl
@[simp] theorem Answer.okState_state (s : State) (k : Nat) : (Answer.okState s k).state = s := rfl

theorem State.forLoad_stays (s : State) (k : Nat) {f : Load → Answer} (hf : ∀ l, Stays s (f l).state) :
    Stays s (s.forLoad k f).state := by
  unfold State.forLoad
  split
  · exact ⟨rfl, rfl⟩
  · split
    · exact ⟨rfl, rfl⟩
    · exact hf _

theorem State.forRecipe_stays (s : State) (k : Nat) {f : Recipe → Answer} (hf : ∀ r, Stays s (f r).state) :
    Stays s (s.forRecipe k f).state := by
  unfold State.forRecipe
  split
  · exact ⟨rfl, rfl⟩
  · split
    · exact ⟨rfl, rfl⟩
    · exact hf _

theorem State.answerReadArm_stays (s : State) (p : List Byte) : Stays s (s.answerReadArm p).state := by
  unfold State.answerReadArm
  split <;> exact ⟨rfl, rfl⟩

theorem State.answerStageOn_stays (s : State) (n : ArmId) (v : StageFields) : Stays s (s.answerStageOn n v).state := by
  unfold State.answerStageOn
  split
  · exact ⟨rfl, rfl⟩
  · rename_i r _
    have hstage : Stays s (s.stage n v r) := by
      unfold State.stage
      exact ((s.withLoads_stays _).trans (State.withRecipes_stays _ _)).trans (State.promote_keeps _ n).stays
    split_ifs
    · exact ⟨rfl, rfl⟩
    · exact ⟨rfl, rfl⟩
    · exact ⟨rfl, rfl⟩
    · exact ⟨rfl, rfl⟩
    · split
      · exact ⟨rfl, rfl⟩
      · exact hstage

theorem State.answerStage_stays (s : State) (p : List Byte) : Stays s (s.answerStage p).state := by
  unfold State.answerStage
  dsimp only
  split_ifs
  · exact ⟨rfl, rfl⟩
  · exact ⟨rfl, rfl⟩
  · exact ⟨rfl, rfl⟩
  · split
    · exact ⟨rfl, rfl⟩
    · exact s.answerStageOn_stays _ _

theorem State.answerStart_stays (s : State) (p : List Byte) : Stays s (s.answerStart p).state :=
  s.forLoad_stays _ fun l => by
    split_ifs
    · exact ⟨rfl, rfl⟩
    · exact ⟨rfl, rfl⟩
    · simpa only [Answer.okState_state] using (s.start_keeps l.arm).stays

theorem State.answerHold_stays (s : State) (p : List Byte) : Stays s (s.answerHold p).state :=
  s.forLoad_stays _ fun l => by
    split
    · exact ⟨rfl, rfl⟩
    · exact ⟨rfl, rfl⟩
    · simpa only [Answer.okState_state] using (s.holdCause_keeps l.arm .host).stays

theorem State.answerResume_stays (s : State) (p : List Byte) : Stays s (s.answerResume p).state :=
  s.forLoad_stays _ fun l => by
    split_ifs
    · exact ⟨rfl, rfl⟩
    · exact ⟨rfl, rfl⟩
    · simpa only [Answer.okState_state] using (s.resume_keeps l.arm).stays

theorem State.answerAmend_stays (s : State) (p : List Byte) : Stays s (s.answerAmend p).state := by
  unfold State.answerAmend
  dsimp only
  split_ifs
  · exact ⟨rfl, rfl⟩
  · refine s.forLoad_stays _ fun l => ?_
    split_ifs
    · exact ⟨rfl, rfl⟩
    · exact ⟨rfl, rfl⟩
    · simpa only [Answer.ok_state] using (s.amendPreset_keeps l _).stays

theorem State.answerAbort_stays (s : State) (p : List Byte) : Stays s (s.answerAbort p).state :=
  s.forLoad_stays _ fun l => by
    split
    · simpa only [Answer.okState_state] using (s.abort_keeps l.arm).stays
    · simpa only [Answer.okState_state] using (s.abort_keeps l.arm).stays
    all_goals exact ⟨rfl, rfl⟩

theorem State.answerListLoads_stays (s : State) (p : List Byte) : Stays s (s.answerListLoads p).state := by
  unfold State.answerListLoads
  dsimp only
  split_ifs
  · exact ⟨rfl, rfl⟩
  · split <;> exact ⟨rfl, rfl⟩

theorem State.retire_stays (s : State) (l : Load) : Stays s (s.retire l) := by
  have h : Stays s (((s.withLoads (s.loads.filter fun x => x.number != l.number)).orphanStrokes l.number).noticeRemoval
      l.recipe) := by
    exact ((s.withLoads_stays _).trans (State.orphanStrokes_keeps _ _).stays).trans (State.withRecipes_stays _ _)
  unfold State.retire
  exact .ite (h.trans (State.promote_keeps _ _).stays) h

theorem State.answerRetire_stays (s : State) (p : List Byte) : Stays s (s.answerRetire p).state :=
  s.forLoad_stays _ fun l => by
    split
    · exact ⟨rfl, rfl⟩
    · exact ⟨rfl, rfl⟩
    all_goals simpa only [Answer.ok_state] using s.retire_stays l

theorem State.answerDefine_stays (s : State) (p : List Byte) : Stays s (s.answerDefine p).state := by
  unfold State.answerDefine
  dsimp only
  split_ifs <;> exact ⟨rfl, rfl⟩

theorem State.answerAmendRecipe_stays (s : State) (p : List Byte) : Stays s (s.answerAmendRecipe p).state := by
  unfold State.answerAmendRecipe
  dsimp only
  split_ifs
  · exact ⟨rfl, rfl⟩
  · split
    · exact ⟨rfl, rfl⟩
    · split_ifs <;> exact ⟨rfl, rfl⟩

theorem State.answerRetireRecipe_stays (s : State) (p : List Byte) : Stays s (s.answerRetireRecipe p).state :=
  s.forRecipe_stays _ fun r => by
    split_ifs
    · exact ⟨rfl, rfl⟩
    · exact Stays.ite (t := s.withRecipes _) ⟨rfl, rfl⟩ ⟨rfl, rfl⟩

theorem State.answerClear_stays (s : State) (p : List Byte) : Stays s (s.answerClear p).state := by
  unfold State.answerClear
  dsimp only
  split_ifs
  · exact ⟨rfl, rfl⟩
  · split <;> exact ⟨rfl, rfl⟩

theorem State.answerReadSetting_stays (s : State) (p : List Byte) : Stays s (s.answerReadSetting p).state := by
  unfold State.answerReadSetting
  split <;> exact ⟨rfl, rfl⟩

theorem State.wroteInService_stays (s : State) (n : ArmId) (v : Nat) : Stays s (s.wroteInService n v) :=
  .ite (.ite (s.enterChecking_keeps n).stays ⟨rfl, rfl⟩) (.ite ⟨rfl, rfl⟩ (s.modArm_keeps n _).stays)

theorem State.writeEffect_stays (s : State) (v : Nat) (slot : Slot) : Stays s (s.writeEffect v slot) := by
  unfold State.writeEffect
  split
  · exact s.wroteInService_stays _ v
  · exact .ite (s.restartClock_keeps _).stays ⟨rfl, rfl⟩
  all_goals exact ⟨rfl, rfl⟩

theorem State.answerWriteSetting_stays (s : State) (p : List Byte) : Stays s (s.answerWriteSetting p).state := by
  unfold State.answerWriteSetting
  dsimp only
  split
  · exact ⟨rfl, rfl⟩
  · rename_i slot _
    split_ifs
    · exact ⟨rfl, rfl⟩
    · exact ⟨rfl, rfl⟩
    · exact ⟨rfl, rfl⟩
    · exact ⟨rfl, rfl⟩
    · have h := State.writeEffect_stays (s.withSettings (s.settings.put (fieldAt p 3 4) slot)) (fieldAt p 3 4) slot
      exact ⟨h.pending, h.memory⟩

theorem State.answerSave_stays (s : State) : Stays s s.answerSave.state := by
  unfold State.answerSave
  split_ifs <;> exact ⟨rfl, rfl⟩

theorem State.answerRestart_stays (s : State) : Stays s s.answerRestart.state := by
  unfold State.answerRestart
  split_ifs <;> exact ⟨rfl, rfl⟩

theorem State.takeRequest_stays (s : State) (code : Byte) (p : List Byte) (fits : Bool) {owner : State → Answer}
    (h : ∀ s, Stays s (owner s).state) : Stays s (s.takeRequest code p fits owner) := by
  have hgood : Stays s (s.receiveGood false) := ⟨rfl, rfl⟩
  unfold State.takeRequest
  refine .ite (.ite ⟨rfl, rfl⟩ ?_) ⟨rfl, rfl⟩
  cases fits
  · exact ⟨hgood.pending, hgood.memory⟩
  · have howner := hgood.trans (h _)
    exact ⟨howner.pending, howner.memory⟩

/-! ## The commands -/

theorem State.checkArms_stays (s : State) : Stays s s.checkArms :=
  .foldl _ (fun s n => .ite (s.enterChecking_keeps n).stays ⟨rfl, rfl⟩) s _

theorem State.setHistories_stays (s : State) : Stays s s.setHistories :=
  .foldl _ (fun s n => (s.modArm_keeps n _).stays) s _

theorem State.latchEntry_stays (s : State) (l : Bool) (straps : BitVec 5) : Stays s (s.latchEntry l straps) := by
  unfold State.latchEntry
  dsimp only
  cases l <;> exact .ite ⟨rfl, rfl⟩ ⟨rfl, rfl⟩

theorem execLoadingEnd_stays (a b : Nat) (leads : Leads) (straps : BitVec 5) (s : State) :
    Yields (Stays s) (execLoadingEnd a b leads straps s) := by
  have hentry (c : Settings) (x : Store) (k : Link) (v : PermLevels) (l : Bool) :
      Stays s (((((s.withSettings c).withStore x).withLink k).withLevels v).setHistories.startPort.latchEntry l straps) := by
    refine Stays.trans ?_ (State.latchEntry_stays _ l straps)
    refine Stays.trans (Stays.trans ?_ (State.setHistories_stays _)) (State.withPort_stays _ _)
    exact ⟨rfl, rfl⟩
  unfold execLoadingEnd
  split
  · dsimp only [Yields]
    split
    · exact ((hentry _ _ _ _ _).trans (State.withButtons_stays _ _)).trans (State.checkArms_stays _)
    · exact hentry _ _ _ _ _
  all_goals exact .refl s

theorem State.deliverBay_stays (s : State) (bay : Bay) (r : Option (Vector TempReport 8)) :
    Stays s (s.deliverBay bay r) := by
  cases r
  · exact .foldl _ (fun u _ => u.modChannel_stays _ _) s _
  · exact .foldl _ (fun u _ => u.modChannel_stays _ _) s _

theorem execTempReadEnd_stays (bay : Bay) (r : Option (Vector TempReport 8)) (s : State) :
    Yields (Stays s) (execTempReadEnd bay r s) := by
  unfold execTempReadEnd
  split
  · exact ((s.withPort_stays _).trans (State.deliverBay_stays _ bay r)).trans
      (.foldl _ (fun u n => (u.leaveChecking_keeps n).stays) _ _)
  · exact .refl s

/-- No command but SAVE_BYTE_DONE reaches the settings memory, and none the queue. -/
theorem exec_stays (c : Instr) (s : State) (hc : ∀ acked, c ≠ .saveByteDone acked) : Yields (Stays s) (exec c s) := by
  cases c with
  | powerUp | powerDown | resetLow | resetRelease => exact ⟨rfl, rfl⟩
  | powerOnEnd => change Yields _ (execPowerOnEnd _ s); unfold execPowerOnEnd; split <;> exact ⟨rfl, rfl⟩
  | loadingEnd a b leads straps => exact execLoadingEnd_stays a b leads straps s
  | strapChange =>
    change Yields _ (execStrapChange _ s)
    unfold execStrapChange
    split
    · dsimp only [Yields]
      split <;> exact ⟨rfl, rfl⟩
    · exact .refl s
  | permissiveLoss p =>
    change Yields _ (execPermissiveLoss p s)
    unfold execPermissiveLoss
    split_ifs
    · exact (s.withLevels_stays _).trans (State.loseAll_keeps _ p).stays
    · exact ⟨rfl, rfl⟩
  | permissiveRestore => change Yields _ (execPermissiveRestore _ s); unfold execPermissiveRestore; split_ifs <;> exact ⟨rfl, rfl⟩
  | startButtonEdge b =>
    change Yields _ (execStartButtonEdge b s)
    unfold execStartButtonEdge
    split
    · exact Stays.ite ((s.withButtons_stays _).trans (State.startEdge_keeps _ b.arm).stays) (s.withButtons_stays _)
    · exact ⟨rfl, rfl⟩
  | stopButtonEdge b =>
    change Yields _ (execStopButtonEdge b s)
    unfold execStopButtonEdge
    split
    · exact Stays.ite ((s.withButtons_stays _).trans (State.stopEdge_keeps _ b.arm).stays) (s.withButtons_stays _)
    · exact ⟨rfl, rfl⟩
  | meterAEdge m b =>
    change Yields _ (execMeterAEdge m b s)
    unfold execMeterAEdge
    have hpulse : Keeps s (if b = true then s.reversePulse m else s.modMeter m Meter.forward) :=
      .ite (s.reversePulse_keeps m) (s.modMeter_keeps m _)
    split
    · split
      · exact (hpulse.trans (State.countA_keeps _ m)).stays
      · exact (s.modMeter_keeps m _).stays
    · exact .refl s
  | meterBEdge m =>
    change Yields _ (execMeterBEdge m s)
    unfold execMeterBEdge
    split_ifs
    · exact (s.countB_keeps m).stays
    · exact ⟨rfl, rfl⟩
  | verifyPulse => change Yields _ (execVerifyPulse _ s); unfold execVerifyPulse; split <;> exact ⟨rfl, rfl⟩
  | tempReadStart =>
    change Yields _ (execTempReadStart _ s)
    unfold execTempReadStart
    split
    · split_ifs <;> exact ⟨rfl, rfl⟩
    · exact ⟨rfl, rfl⟩
  | tempReadEnd bay r => exact execTempReadEnd_stays bay r s
  | checkingTimeout n =>
    change Yields _ (execCheckingTimeout n s)
    unfold execCheckingTimeout
    split
    · split_ifs
      · exact (s.withNow_stays _).trans ((State.modArm_keeps _ n _).trans (State.detect_keeps _ n .tempFault)).stays
      · exact ⟨rfl, rfl⟩
    · exact ⟨rfl, rfl⟩
  | sampleEvent n =>
    change Yields _ (execSampleEvent n s)
    unfold execSampleEvent
    split
    · split_ifs
      · exact (s.withNow_stays _).trans ((State.modArm_keeps _ n _).trans (State.sample_keeps _ n)).stays
      · exact ⟨rfl, rfl⟩
    · exact ⟨rfl, rfl⟩
  | strokeTimeEnd => change Yields _ (execStrokeTimeEnd _ s); unfold execStrokeTimeEnd; split <;> exact ⟨rfl, rfl⟩
  | verifyTailEnd i =>
    change Yields _ (execVerifyTailEnd i s)
    unfold execVerifyTailEnd
    split
    · exact (s.withNow_stays _).trans ((State.judge_keeps _ i).trans (State.afterJudgement_keeps _ i)).stays
    · exact ⟨rfl, rfl⟩
  | settleExpiry n =>
    change Yields _ (execSettleExpiry n s)
    unfold execSettleExpiry
    split
    · exact (s.withNow_stays _).trans ((State.modArm_keeps _ n _).trans (State.endSettleIfOver_keeps _ n)).stays
    · exact ⟨rfl, rfl⟩
  | finishTimeout n =>
    change Yields _ (execFinishTimeout n s)
    unfold execFinishTimeout
    split
    · have h (f : Ratio → Ratio) (due : Nat) : Stays s ((s.reach due).modRatio n f) :=
        (s.withNow_stays _).trans (State.modRatio_keeps _ n f).stays
      exact Stays.ite ((h _ _).trans (State.enterSettle_keeps State.examine_keeps _ n).stays) (h _ _)
    · exact ⟨rfl, rfl⟩
  | holdLimitExpiry load =>
    change Yields _ (execHoldLimitExpiry load s)
    unfold execHoldLimitExpiry
    split
    · split
      · exact (s.withNow_stays _).trans (State.endRecord_keeps _ _ _).stays
      · exact ⟨rfl, rfl⟩
    · exact ⟨rfl, rfl⟩
  | stationStatus p | listRecipes p => exact s.takeRequest_stays _ _ _ fun u => ⟨rfl, rfl⟩
  | readArm p => exact s.takeRequest_stays _ _ _ fun u => u.answerReadArm_stays p
  | stageLoad p => exact s.takeRequest_stays _ _ _ fun u => u.answerStage_stays p
  | startLoad p => exact s.takeRequest_stays _ _ _ fun u => u.answerStart_stays p
  | holdLoad p => exact s.takeRequest_stays _ _ _ fun u => u.answerHold_stays p
  | resumeLoad p => exact s.takeRequest_stays _ _ _ fun u => u.answerResume_stays p
  | amendPreset p => exact s.takeRequest_stays _ _ _ fun u => u.answerAmend_stays p
  | abortLoad p => exact s.takeRequest_stays _ _ _ fun u => u.answerAbort_stays p
  | readLoad p => exact s.takeRequest_stays _ _ _ fun u => u.forLoad_stays _ fun _ => ⟨rfl, rfl⟩
  | retireLoad p => exact s.takeRequest_stays _ _ _ fun u => u.answerRetire_stays p
  | listLoads p => exact s.takeRequest_stays _ _ _ fun u => u.answerListLoads_stays p
  | defineRecipe p => exact s.takeRequest_stays _ _ _ fun u => u.answerDefine_stays p
  | amendRecipe p => exact s.takeRequest_stays _ _ _ fun u => u.answerAmendRecipe_stays p
  | retireRecipe p => exact s.takeRequest_stays _ _ _ fun u => u.answerRetireRecipe_stays p
  | readRecipe p => exact s.takeRequest_stays _ _ _ fun u => u.forRecipe_stays _ fun _ => ⟨rfl, rfl⟩
  | clearAlarms p => exact s.takeRequest_stays _ _ _ fun u => u.answerClear_stays p
  | readSetting p => exact s.takeRequest_stays _ _ _ fun u => u.answerReadSetting_stays p
  | writeSetting p => exact s.takeRequest_stays _ _ _ fun u => u.answerWriteSetting_stays p
  | saveSettings p => exact s.takeRequest_stays _ _ _ fun u => u.answerSave_stays
  | restart p => exact s.takeRequest_stays _ _ _ fun u => u.answerRestart_stays
  | saveByteDone acked => exact absurd rfl (hc acked)
  | holdAll =>
    refine Stays.ite (.ite ⟨rfl, rfl⟩ ?_) ⟨rfl, rfl⟩
    exact Stays.trans (t := s.receiveGood true) ⟨rfl, rfl⟩ (State.holdAll_keeps _ .broadcast).stays
  | unknownRequest code p =>
    change Yields _ (execUnknownRequest code p s)
    unfold execUnknownRequest
    split_ifs
    · exact ⟨rfl, rfl⟩
    · exact s.takeRequest_stays _ _ _ fun u => ⟨rfl, rfl⟩
  | broadcastIgnored =>
    change Yields _ (execBroadcastIgnored _ _ s)
    unfold execBroadcastIgnored
    split_ifs
    · exact Stays.ite (.ite ⟨rfl, rfl⟩ ⟨rfl, rfl⟩) ⟨rfl, rfl⟩
    · exact ⟨rfl, rfl⟩
  | frameDiscard reason =>
    cases reason with
    | framingError | badLength | crcMismatch | abandoned => exact Stays.ite ⟨rfl, rfl⟩ ⟨rfl, rfl⟩
  | frameIdleTimeout => exact Stays.ite ⟨rfl, rfl⟩ ⟨rfl, rfl⟩
  | pendingFrameDiscard => change Yields _ (execPendingFrameDiscard s); unfold execPendingFrameDiscard; split_ifs <;> exact ⟨rfl, rfl⟩
  | replyBegin => change Yields _ (execReplyBegin s); unfold execReplyBegin; split <;> exact ⟨rfl, rfl⟩
  | replyEnd =>
    change Yields _ (execReplyEnd s)
    unfold execReplyEnd
    split
    · exact Stays.ite ⟨rfl, rfl⟩ ⟨rfl, rfl⟩
    · exact ⟨rfl, rfl⟩
  | linkSilence =>
    change Yields _ (execLinkSilence s)
    unfold execLinkSilence
    split
    · have h (due : Nat) (k : Link) : Stays s (((s.reach due).withLink k).latchStation .linkSilence) := ⟨rfl, rfl⟩
      dsimp only [Yields]
      split
      · exact (h _ _).trans (State.holdAll_keeps _ _).stays
      · exact h _ _
    · exact ⟨rfl, rfl⟩
  | frameForOtherStation =>
    change Yields _ (execFrameForOtherStation _ _ s)
    unfold execFrameForOtherStation
    split_ifs <;> exact ⟨rfl, rfl⟩

/-! ## The byte of a save (R199) -/

theorem SaveProgress.address_lt {p : SaveProgress} (h : p.byte < p.area.size) : p.address < memorySize := by
  unfold SaveProgress.address memorySize
  cases ha : p.area <;> simp only [ha, Area.start, Area.size] at h ⊢ <;> omega

/-- What SAVE_BYTE_DONE leaves: the queue, and a memory as it was or with one byte of it written. -/
theorem execSaveByteDone_yields (acked : Bool) (s : State) :
    Yields (fun t => t.pending = s.pending ∧
      (t.memory = s.memory ∨ ∃ a b, a < memorySize ∧ t.memory = s.memory.write a b)) (execSaveByteDone acked s) := by
  unfold execSaveByteDone
  split
  · exact ⟨rfl, .inl rfl⟩
  · rename_i p _
    split_ifs with hsize hack hwriting
    · exact trivial
    · show (s.saveNotAcked p).pending = _ ∧ _
      unfold State.saveNotAcked
      split_ifs <;> exact ⟨rfl, .inl rfl⟩
    · exact ⟨rfl, .inr ⟨p.address, _, p.address_lt (Nat.lt_of_not_le hsize), rfl⟩⟩
    · show (s.saveRead p).pending = _ ∧ _
      unfold State.saveRead
      split_ifs <;> exact ⟨rfl, .inl rfl⟩

/-- Settles O3. -/
theorem commandsKeepTheQueue : Obligations.CommandsKeepTheQueue := by
  intro c s t h
  by_cases hc : ∃ acked, c = .saveByteDone acked
  · obtain ⟨acked, rfl⟩ := hc
    exact ((execSaveByteDone_yields acked s).next h).1
  · exact ((exec_stays c s (not_exists.mp hc)).next h).pending

theorem exec_keeps_memory_wf (c : Instr) (s : State) (hs : s.memory.wf = true) :
    Yields (fun t => t.memory.wf = true) (exec c s) := by
  cases h : exec c s with
  | fault | refused => exact trivial
  | next t =>
    by_cases hc : ∃ acked, c = .saveByteDone acked
    · obtain ⟨acked, rfl⟩ := hc
      obtain ⟨-, hmem | ⟨a, b, ha, hmem⟩⟩ := (execSaveByteDone_yields acked s).next h
      · exact (congrArg Memory.wf hmem).trans hs
      · exact (congrArg Memory.wf hmem).trans (Memory.write_wf s.memory a b ha hs)
    · have hmem := ((exec_stays c s (not_exists.mp hc)).next h).memory
      exact (congrArg Memory.wf hmem).trans hs

/-! ## The step -/

theorem step_cons {s : State} {c : Instr} {rest : List Instr} (h : s.pending = c :: rest) :
    step s = exec c (s.withPending rest) := by
  rw [step, h]

theorem step_nil {s : State} (h : s.pending = []) : step s = .next s.tick := by
  rw [step, h]

/-- What every command and the tick make true of the next state is true after a step. -/
theorem step_yields {P : State → Prop} {s : State} (hexec : ∀ c rest, s.pending = c :: rest → Yields P (exec c (s.withPending rest)))
    (htick : P s.tick) : Yields P (step s) := by
  cases h : s.pending with
  | nil => rw [step_nil h]; exact htick
  | cons c rest => rw [step_cons h]; exact hexec c rest h

/-- Settles O57. -/
theorem stepsKeepTheMemoryCanonical : Obligations.StepsKeepTheMemoryCanonical := fun s _ hs hstep =>
  (step_yields (P := fun t => t.memory.wf = true) (fun c rest _ => exec_keeps_memory_wf c (s.withPending rest) hs) hs).next
    hstep

/-- Settles O1. -/
theorem stepRunsTheFrontCommand : Obligations.StepRunsTheFrontCommand := fun _ _ _ h => step_cons h

/-! ## The tick (log entry 1) -/

theorem mem_whenDue {now : Nat} {due : Option Nat} {c d : Instr} :
    d ∈ whenDue now due c ↔ d = c ∧ ∃ t, due = some t ∧ t ≤ now := by
  unfold whenDue
  cases due with
  | none => simp
  | some t => simp; tauto

/-- Of the timers at an arm the sample clock alone queues a SAMPLE_EVENT. -/
theorem State.sampleEvent_mem_dueAtArm (s : State) (n m : ArmId) :
    Instr.sampleEvent n ∈ s.dueAtArm m ↔ n = m ∧ ∃ due, (s.arm m).sampleClock = some due ∧ due ≤ s.now := by
  simp [State.dueAtArm, mem_whenDue]

theorem State.sampleEvent_mem_dueCommands (s : State) (n : ArmId) :
    Instr.sampleEvent n ∈ s.dueCommands ↔ ∃ due, (s.arm n).sampleClock = some due ∧ due ≤ s.now := by
  have harms : ∀ m : ArmId, m ∈ allArms := by decide
  have hinj : ∀ i, Instr.sampleEvent n ∉ s.dueAtInjector i := by
    intro i h
    unfold State.dueAtInjector at h
    split at h <;> simp [mem_whenDue] at h
  have hholds : Instr.sampleEvent n ∉ s.dueHolds := by
    intro h
    obtain ⟨l, -, hl⟩ := List.mem_flatMap.mp h
    split at hl <;> simp [mem_whenDue] at hl
  simp [State.dueCommands, State.dueReads, mem_whenDue, hinj, hholds, State.sampleEvent_mem_dueAtArm, harms]

/-- Settles O2. -/
theorem idleStepIsOneMillisecond : Obligations.IdleStepIsOneMillisecond := by
  intro s hs
  refine ⟨s.tick, step_nil hs, rfl, rfl, fun n due hdue => ?_⟩
  have hpending : s.tick.pending = (s.withNow (s.now + 1)).dueCommands := by
    show s.pending ++ _ = _
    rw [hs, List.nil_append]
  have harm : ((s.withNow (s.now + 1)).arm n).sampleClock = some due := hdue
  rw [hpending, State.sampleEvent_mem_dueCommands, harm]
  simp

end Sys2Proof.Machine
end

section
/-! SUPPORT. Operations folded over the arms, the injectors or the channels; the rest of the start-up commands (R193
to R196), the levels that are watched (R163, R195), and the machine after reset. -/

namespace Sys2Proof.Machine

/-! ## One operation on each member of a list -/

section
variable {α β : Type} {op : State → α → State} {P : State → Prop}

theorem foldl_keeps (hP : ∀ s a, P s → P (op s a)) {s : State} (hs : P s) (l : List α) : P (l.foldl op s) := by
  induction l generalizing s with
  | nil => exact hs
  | cons a rest ih => exact ih (hP s a hs)

/-- An operation that changes its own member's part alone, by a function of that part, changes each part once. `P` is
what the operation reads and keeps. -/
theorem foldl_get [DecidableEq α] {get : State → α → β} {f : α → β → β} (hP : ∀ s a, P s → P (op s a))
    (hself : ∀ s a, P s → get (op s a) a = f a (get s a))
    (hother : ∀ s a b, P s → b ≠ a → get (op s a) b = get s b) {s : State} (hs : P s) {l : List α} (hl : l.Nodup)
    (a : α) : get (l.foldl op s) a = if a ∈ l then f a (get s a) else get s a := by
  induction l generalizing s with
  | nil => rfl
  | cons b rest ih =>
    obtain ⟨hb, hrest⟩ := List.nodup_cons.mp hl
    rw [List.foldl_cons, ih (hP s b hs) hrest]
    by_cases hab : a = b
    · subst hab
      rw [if_neg hb, if_pos List.mem_cons_self, hself s a hs]
    · rw [hother s b a hs hab]
      simp [hab]

end

theorem mem_allArms (n : ArmId) : n ∈ allArms := by fin_cases n <;> decide

theorem nodup_allArms : allArms.Nodup := by decide

theorem mem_allInjectors (i : InjId) : i ∈ allInjectors := by fin_cases i <;> decide

theorem nodup_allInjectors : allInjectors.Nodup := by decide

/-- `t` differs from `s` at most in its arm sequencers. -/
def OnlyArms (s t : State) : Prop := t = { s with arms := t.arms }

theorem OnlyArms.refl (s : State) : OnlyArms s s := rfl

theorem OnlyArms.trans {s t u : State} (h : OnlyArms s t) (k : OnlyArms t u) : OnlyArms s u := by
  unfold OnlyArms at *
  rw [k, h]

theorem State.modArm_onlyArms (s : State) (n : ArmId) (f : ArmSeq → ArmSeq) : OnlyArms s (s.modArm n f) := rfl

/-! ## POWER_DOWN and RESET_LOW (R193) -/

/-- A write of the store that leaves its marks and straps is no part of a block's start state. -/
theorem State.startState_startedInto_withStore {s : State} {x : Store}
    (hmarks : x.mixedM = s.store.mixedM ∧ x.mixedL = s.store.mixedL)
    (hstraps : x.sampledStraps = s.store.sampledStraps ∧ x.filteredStraps = s.store.filteredStraps) :
    s.StartedInto (s.withStore x).startState :=
  { (s.withStore x).startState_startedInto with marks := hmarks, straps := hstraps }

/-- Settles O5. -/
theorem powerDownAndResetLowHoldTheStart : Obligations.PowerDownAndResetLowHoldTheStart := by
  rintro c s (rfl | rfl)
  · exact ⟨_, rfl, State.startState_startedInto_withStore (x := { s.store with supplyUp := false }) ⟨rfl, rfl⟩ ⟨rfl, rfl⟩,
      rfl, rfl, rfl, (Bool.and_false _).symm, (Bool.or_false _).symm⟩
  · exact ⟨_, rfl, State.startState_startedInto_withStore (x := { s.store with resetLow := true }) ⟨rfl, rfl⟩ ⟨rfl, rfl⟩,
      rfl, rfl, rfl, (Bool.and_true _).symm, (Bool.or_true _).symm⟩

/-! ## POWER_ON_END (R195, R178) -/

theorem exec_powerOnEnd {s : State} {due : Nat} (hmode : s.store.mode = .powerOn) (hdue : s.store.startTimer = some due)
    (straps : BitVec 5) :
    exec (.powerOnEnd straps) s = .next { s with
      now := max s.now due
      store := { s.store with mode := .loading, line := .reading, sampledStraps := straps, startTimer := none }
      link := s.link.takeStraps straps } := by
  show execPowerOnEnd straps s = _
  rw [execPowerOnEnd, hmode, hdue]
  rfl

/-- Settles O6. -/
theorem powerOnEndSamplesTheStraps : Obligations.PowerOnEndSamplesTheStraps := fun straps _ _ hmode hdue =>
  ⟨_, exec_powerOnEnd hmode hdue straps, rfl, rfl, rfl⟩

/-! ## LOADING_END (R196, R79, R103, R163, R178, R187) -/

theorem Link.afterLoading_eq (k : Link) (c : StationSettings) (straps : BitVec 5) (now : Nat) :
    k.afterLoading c straps now = { k with
      silence := silenceFrom c now
      speed := c.lineSpeed
      address := if straps = 0 then c.linkAddress else k.address
      source := if straps = 0 then .setting else k.source } := by
  unfold Link.afterLoading silenceFrom
  by_cases h : straps = 0
  · simp only [h, if_true]
  · simp only [h, if_false]

theorem State.setHistories_onlyArms (s : State) : OnlyArms s s.setHistories :=
  foldl_keeps (P := OnlyArms s) (fun u n h => h.trans (u.modArm_onlyArms n _)) (.refl s) allArms

theorem OnlyArms.settings {s t : State} (h : OnlyArms s t) : t.settings = s.settings := by rw [h]

theorem State.setHistories_arm (s : State) (n : ArmId) :
    s.setHistories.arm n = { s.arm n with history := History.all (1000 * (s.armCfg n).gasComp) } := by
  have h := foldl_get (P := fun u => u.settings = s.settings) (get := State.arm) (s := s) (l := allArms)
    (op := fun u n => u.modArm n fun a => { a with history := History.all (1000 * (u.armCfg n).gasComp) })
    (f := fun n a => { a with history := History.all (1000 * (s.armCfg n).gasComp) })
    (fun _ _ hu => hu) (fun u m hu => by simp [State.armCfg, hu])
    (fun u m k _ hk => by simp [State.modArm_arm, hk]) rfl nodup_allArms n
  rwa [if_pos (mem_allArms n)] at h

section
variable {s u : State} (hready : ∀ n, s.channelsReady n = false) (hu : OnlyArms s u)
include hready hu

/-- With the channels not ready, entry to CHECKING writes the arm alone (R81). -/
theorem State.enterChecking_notReady (n : ArmId) :
    u.enterChecking n = u.modArm n fun a => { a with mode := .checking, checkTimer := some (s.now + 30000) } := by
  have hnot : u.channelsReady n = false := by rw [hu]; exact hready n
  have hnow : u.now = s.now := by rw [hu]
  rw [State.enterChecking, hnot, hnow]
  rfl

theorem State.checkArm_onlyArms (n : ArmId) :
    OnlyArms s (if (u.armCfg n).inService then u.enterChecking n else u) := by
  split
  · rw [State.enterChecking_notReady hready hu]
    exact hu.trans (u.modArm_onlyArms n _)
  · exact hu

end

section
variable {s : State} (hready : ∀ n, s.channelsReady n = false)
include hready

theorem State.checkArms_onlyArms : OnlyArms s s.checkArms :=
  foldl_keeps (P := OnlyArms s) (fun _ n hu => State.checkArm_onlyArms hready hu n) (.refl s) allArms

/-- An arm in service enters CHECKING, the others stay (R79). -/
theorem State.checkArms_arm (n : ArmId) :
    s.checkArms.arm n = if (s.armCfg n).inService then
      { s.arm n with mode := .checking, checkTimer := some (s.now + 30000) } else s.arm n := by
  have hcfg {u : State} (hu : OnlyArms s u) (m : ArmId) : u.armCfg m = s.armCfg m := by rw [hu]; rfl
  have h := foldl_get (P := OnlyArms s) (get := State.arm) (s := s) (l := allArms)
    (op := fun u n => if (u.armCfg n).inService then u.enterChecking n else u)
    (f := fun n a => if (s.armCfg n).inService then
      { a with mode := .checking, checkTimer := some (s.now + 30000) } else a)
    (fun _ n hu => State.checkArm_onlyArms hready hu n) (fun u m hu => ?_) (fun u m k hu hk => ?_) (.refl s)
    nodup_allArms n
  · rwa [if_pos (mem_allArms n)] at h
  · rw [hcfg hu, State.enterChecking_notReady hready hu]
    split <;> simp
  · rw [State.enterChecking_notReady hready hu]
    split <;> simp [State.modArm_arm, hk]

end

/-- The station alarms at the entry, when none stood (R193, R195). -/
theorem State.latchEntry_eq {s : State} (h : s.stationAlarms = []) (l : Bool) (straps : BitVec 5) :
    s.latchEntry l straps = s.withStationAlarms ([.restarted] ++ (if l then [] else [.configDefaulted])
      ++ (if straps = s.store.sampledStraps then [] else [.addressChanged])) := by
  cases l <;> by_cases hs : straps = s.store.sampledStraps <;>
    simp [State.latchEntry, State.latchStation, insertOnce, h, hs, State.withStationAlarms]

/-- The state of LOADING_END with the areas' settings, the link, the levels and the first reads, before the histories
are set. -/
def State.taken (s : State) (c : Settings) (m : Bool) (leads : Leads) (straps : BitVec 5) : State :=
  { s with
    settings := c
    store := { s.store with mode := if m then .running else .unconfigured, line := .idle, filteredStraps := straps }
    link := s.link.afterLoading c.station s.store.sampledStraps s.now
    levels := leads.permissives }

/-- The state LOADING_END leaves before any arm is checked. -/
def State.loaded (s : State) (c : Settings) (m l : Bool) (leads : Leads) (straps : BitVec 5) : State :=
  (s.taken c m leads straps).setHistories.startPort.latchEntry l straps

theorem exec_loadingEnd {s : State} {a b : Nat} {c : Settings} {m l : Bool} (hmode : s.store.mode = .loading)
    (hload : s.loadSettings a b = (c, m, l)) (leads : Leads) (straps : BitVec 5) :
    exec (.loadingEnd a b leads straps) s = .next
      (if m then ((s.loaded c m l leads straps).withButtons leads.buttons).checkArms
        else s.loaded c m l leads straps) := by
  show execLoadingEnd a b leads straps s = _
  unfold execLoadingEnd
  rw [hmode, hload]
  rfl

theorem State.loaded_eq {s : State} (halarms : s.stationAlarms = []) (c : Settings) (m l : Bool) (leads : Leads)
    (straps : BitVec 5) :
    s.loaded c m l leads straps = { s.taken c m leads straps with
      arms := (s.taken c m leads straps).setHistories.arms
      port := { nextA := some s.now, nextB := some (s.now + 50), readingA := false, readingB := false }
      stationAlarms := [.restarted] ++ (if l then [] else [.configDefaulted])
        ++ (if straps = s.store.sampledStraps then [] else [.addressChanged]) } := by
  have honly := (s.taken c m leads straps).setHistories_onlyArms
  have halarm : (s.taken c m leads straps).setHistories.startPort.stationAlarms = [] := by
    rw [State.startPort, State.withPort_stationAlarms, honly]
    exact halarms
  rw [State.loaded, State.latchEntry_eq halarm, State.startPort, honly]
  rfl

/-- The arm once LOADING_END has set its history and, in RUNNING, checked it (R79). -/
theorem State.loaded_arm {s : State} (halarms : s.stationAlarms = []) (c : Settings) (m l : Bool) (leads : Leads)
    (straps : BitVec 5) (n : ArmId) :
    (s.loaded c m l leads straps).arm n = { s.arm n with history := History.all (1000 * c.arms[n].gasComp) } := by
  rw [State.loaded_eq halarms]
  exact (s.taken c m leads straps).setHistories_arm n

/-- LOADING_END, both ways it can enter: what it leaves but the arms, and each arm. -/
theorem exec_loadingEnd_next {s : State} {a b : Nat} {c : Settings} {m l : Bool} (hmode : s.store.mode = .loading)
    (hload : s.loadSettings a b = (c, m, l)) (halarms : s.stationAlarms = [])
    (hready : ∀ n, s.channelsReady n = false) (leads : Leads) (straps : BitVec 5) :
    ∃ t, exec (.loadingEnd a b leads straps) s = .next t ∧
      t = { s.taken c m leads straps with
        arms := t.arms
        port := { nextA := some s.now, nextB := some (s.now + 50), readingA := false, readingB := false }
        buttons := if m then leads.buttons else s.buttons
        stationAlarms := [.restarted] ++ (if l then [] else [.configDefaulted])
          ++ (if straps = s.store.sampledStraps then [] else [.addressChanged]) } ∧
      ∀ n, t.arm n = if m && c.arms[n].inService then
        { s.arm n with
          history := History.all (1000 * c.arms[n].gasComp), mode := .checking, checkTimer := some (s.now + 30000) }
        else { s.arm n with history := History.all (1000 * c.arms[n].gasComp) } := by
  have harm := State.loaded_arm halarms c m l leads straps
  have hloaded := State.loaded_eq halarms c m l leads straps
  have hexec := exec_loadingEnd hmode hload leads straps
  cases m with
  | false => exact ⟨s.loaded c false l leads straps, hexec, by rw [hloaded]; rfl, harm⟩
  | true =>
    have hnot : ∀ n, ((s.loaded c true l leads straps).withButtons leads.buttons).channelsReady n = false := by
      rw [hloaded]; exact hready
    have honly := State.checkArms_onlyArms hnot
    have hchecked := State.checkArms_arm hnot
    refine ⟨_, hexec, ?_⟩
    rw [if_pos rfl]
    generalize ((s.loaded c true l leads straps).withButtons leads.buttons).checkArms = t at honly hchecked
    refine ⟨?_, fun n => ?_⟩
    · rw [hloaded] at honly
      exact honly
    · rw [hchecked, State.withButtons_arm, harm]
      simp only [State.armCfg, hloaded]
      rfl

/-- Settles O7. -/
theorem loadingEndEntersByTheAreas : Obligations.LoadingEndEntersByTheAreas := by
  intro a b leads straps c m l s hmode hload halarms hready
  obtain ⟨t, hexec, ht, harm⟩ := exec_loadingEnd_next hmode hload halarms hready leads straps
  refine ⟨t, hexec, by rw [ht]; rfl, by rw [ht]; rfl, by rw [ht], by rw [ht]; rfl, by rw [ht], ?_, by rw [ht],
    by rw [ht]; rfl, fun n => ?_⟩
  · rw [ht]
    exact s.link.afterLoading_eq c.station s.store.sampledStraps s.now
  · rw [harm n]
    by_cases hm : (m && c.arms[n].inService) = true
    · simp only [hm, if_true, and_self]
    · simp only [hm, if_false, and_self, Bool.false_eq_true]

/-! ## STRAP_CHANGE and PERMISSIVE_RESTORE (R195, R163) -/

theorem levelOf_setLevel (v : PermLevels) (p q : Permissive) (x : Bool) :
    levelOf (setLevel v p x) q = if q = p then x else levelOf v q := by
  rcases p with _ | _ | (_ | _) | (_ | _) | n <;> rcases q with _ | _ | (_ | _) | (_ | _) | m <;>
    simp [levelOf, setLevel, Vector.getElem_set, Fin.ext_iff, eq_comm]

theorem exec_strapChange {s : State} {straps : BitVec 5} (hs : s.operating = true)
    (hstraps : straps ≠ s.store.filteredStraps) :
    exec (.strapChange straps) s = .next
      (if straps = s.store.sampledStraps then s.withStore { s.store with filteredStraps := straps }
        else (s.withStore { s.store with filteredStraps := straps }).latchStation .addressChanged) := by
  show execStrapChange straps s = _
  rw [execStrapChange, if_pos (by simp [hs, hstraps])]

theorem exec_permissiveRestore {s : State} (hs : s.operating = true) (p : Permissive) :
    exec (.permissiveRestore p) s = .next (s.withLevels (setLevel s.levels p true)) :=
  if_pos hs

/-- Settles O9. -/
theorem levelsAndStrapsAreWatched : Obligations.LevelsAndStrapsAreWatched := by
  intro straps p q s hs
  refine ⟨fun hstraps => ?_, _, exec_permissiveRestore hs p, rfl, ?_, fun hq => ?_⟩
  · rw [exec_strapChange hs hstraps]
    by_cases hsampled : straps = s.store.sampledStraps
    · rw [if_pos hsampled, if_pos (.inl hsampled)]
      rfl
    · rw [if_neg hsampled]
      simp only [hsampled, false_or]
      rfl
  · rw [State.withLevels_levels, levelOf_setLevel, if_pos rfl]
  · rw [State.withLevels_levels, levelOf_setLevel, if_neg hq]

/-! ## The machine after reset -/

theorem State.reset_deliveryOk : State.reset.DeliveryOk where
  tables := ⟨by decide, by decide, by decide, by decide, by simp [State.reset], by simp [State.reset],
    by simp [State.reset]⟩
  lists := ⟨fun _ => Nat.zero_le _, fun _ => Nat.zero_le _, fun _ => List.Pairwise.nil⟩
  stopped := fun _ => rfl
  oneRequest := List.Pairwise.nil
  requests := by simp [State.reset]
  permitted := fun _ => rfl
  valve := by decide
  setpoint := by decide

theorem State.reset_headerOk : State.reset.HeaderOk where
  within := by decide
  lowExact := by decide
  highCovers := by decide
  noneHeld := by decide
  held := by decide
  queuedLow := by simp [State.reset]
  clamped := by decide
  headWaits := by simp [State.reset]
  targets := by decide

/-- Settles O60. -/
theorem resetMeetsTheInvariants : Obligations.ResetMeetsTheInvariants :=
  ⟨State.reset_deliveryOk, State.reset_headerOk, State.reset_memory_wf⟩

end Sys2Proof.Machine
end

section
/-! SUPPORT. The station link: requests answered, refused for their length or discarded (R180 to R186), the reply with
its status header (R184, R189, R192), and a request read back from its frame. -/

namespace Sys2Proof.Machine

/-! ## A request by its length, and while a reply is pending (R183, R185) -/

section
variable {s : State} {code : Byte} {p : List Byte} {owner : State → Answer}

theorem State.takeRequest_pending (hs : s.listening = true) (hreply : s.link.reply ≠ none) (hp : frameExists p = true)
    (fits : Bool) : s.takeRequest code p fits owner = s.discardPending := by
  have hsome : s.link.reply.isSome = true := Option.isSome_iff_ne_none.mpr hreply
  rw [State.takeRequest, hs, hp, hsome]; rfl

theorem State.takeRequest_badLength (hs : s.Accepts) (hp : frameExists p = true) :
    s.takeRequest code p false owner = s.refusedAs code .badLength := by
  rw [State.takeRequest, hs.listening, hp, hs.nonePending]
  exact Answer.pend_receiveGood s .badLength [] code

end

theorem State.takeBroadcast_pending {s : State} (hs : s.listening = true) (hreply : s.link.reply ≠ none)
    (effect : State → State) : s.takeBroadcast effect = s.discardPending := by
  have hsome : s.link.reply.isSome = true := Option.isSome_iff_ne_none.mpr hreply
  rw [State.takeBroadcast, hs, hsome]; rfl

theorem State.takeBroadcast_accepted {s : State} (hs : s.Accepts) (effect : State → State) :
    s.takeBroadcast effect = effect (s.withLink (s.linkReceived true)) := by
  rw [State.takeBroadcast, hs.listening, hs.nonePending, State.receiveGood_eq]; rfl

/-! ## Frames while a reply is pending (R185) -/

/-- What a command with a frame does while a reply is pending. -/
theorem exec_pending {c : Instr} {s : State} (hs : s.listening = true) (hreply : s.link.reply ≠ none)
    (hwf : c.wellFormed = true) (hc : frameFields c ≠ none) : exec c s = .next s.discardPending := by
  have request {code : Byte} {p : List Byte} (hp : frameExists p = true) (fits : Bool) (owner : State → Answer) :
      (.next (s.takeRequest code p fits owner) : Host.Outcome State Fault Refusal) = .next s.discardPending :=
    congrArg _ (State.takeRequest_pending hs hreply hp fits)
  cases c with
  | stationStatus p | readArm p | stageLoad p | startLoad p | holdLoad p | resumeLoad p | amendPreset p | abortLoad p
  | readLoad p | retireLoad p | listLoads p | defineRecipe p | amendRecipe p | retireRecipe p | readRecipe p
  | listRecipes p | clearAlarms p | readSetting p | writeSetting p | saveSettings p | restart p =>
    exact request hwf _ _
  | unknownRequest code p =>
    obtain ⟨hcode, hp⟩ := Bool.and_eq_true _ _ ▸ hwf
    show execUnknownRequest code p s = _
    rw [execUnknownRequest, if_neg (by simpa using hcode)]
    exact request hp _ _
  | broadcastIgnored code p =>
    obtain ⟨hcode, hp⟩ := Bool.and_eq_true _ _ ▸ hwf
    show execBroadcastIgnored code p s = _
    rw [execBroadcastIgnored, hp, hcode, State.takeBroadcast_pending hs hreply]
    rfl
  | holdAll => exact congrArg _ (State.takeBroadcast_pending hs hreply _)
  | _ => exact absurd rfl hc

/-- Settles O51. -/
theorem framesDuringAReplyAreDiscarded : Obligations.FramesDuringAReplyAreDiscarded := by
  rintro c s hs hreply hwf (rfl | hc)
  · have hsome : s.link.reply.isSome = true := Option.isSome_iff_ne_none.mpr hreply
    show execPendingFrameDiscard s = _
    rw [execPendingFrameDiscard, hs, hsome]
    rfl
  · exact exec_pending hs hreply hwf hc

/-! ## Frames without effect (R183, R186) -/

theorem fitsLength_eq_false {k : Nat} {p : List Byte} (h : p.length + 1 ≠ k) : fitsLength k p = false := by
  rw [← Bool.not_eq_true, fitsLength_iff]; exact h

theorem fitsRecipe_eq_false {p : List Byte} (h : p.length < 6 ∨ p.length ≠ 6 + 3 * fieldAt p 5 1) :
    fitsRecipe p = false := by
  rw [← Bool.not_eq_true, fitsRecipe_iff]; omega

/-- Settles O52. -/
theorem framesWithoutEffect : Obligations.FramesWithoutEffect := by
  intro c code p s hs hwf
  refine ⟨?_, ?_, ?_⟩
  · rintro rfl
    obtain ⟨hcode, hp⟩ := Bool.and_eq_true _ _ ▸ hwf
    show execUnknownRequest code p s = _
    rw [execUnknownRequest, if_neg (by simpa using hcode), State.takeRequest_of_answer hs hp rfl]
    rfl
  · rintro rfl
    obtain ⟨hcode, hp⟩ := Bool.and_eq_true _ _ ▸ hwf
    show execBroadcastIgnored code p s = _
    rw [execBroadcastIgnored, hp, hcode, State.takeBroadcast_accepted hs]
    rfl
  · have misfit {k : Nat} (hp : frameExists p = true) (owner : State → Answer) (h : p.length + 1 ≠ k) :
        (.next (s.takeRequest code p (fitsLength k p) owner) : Host.Outcome State Fault Refusal) =
          .next (s.refusedAs code .badLength) := by
      rw [fitsLength_eq_false h, State.takeRequest_badLength hs hp]
    have misfitRecipe (hp : frameExists p = true) (owner : State → Answer)
        (h : p.length < 6 ∨ p.length ≠ 6 + 3 * fieldAt p 5 1) :
        (.next (s.takeRequest code p (fitsRecipe p) owner) : Host.Outcome State Fault Refusal) =
          .next (s.refusedAs code .badLength) := by
      rw [fitsRecipe_eq_false h, State.takeRequest_badLength hs hp]
    rintro (⟨hlen, hcs⟩ | ⟨hlen, hcs⟩ | ⟨hlen, hcs⟩ | ⟨hlen, hcs⟩ | ⟨hlen, rfl, rfl⟩ | ⟨hlen, rfl, rfl⟩ | ⟨hlen, hcs⟩)
    · rcases hcs with ⟨rfl, rfl⟩ | ⟨rfl, rfl⟩ | ⟨rfl, rfl⟩ | ⟨rfl, rfl⟩ | ⟨rfl, rfl⟩ | ⟨rfl, rfl⟩ | ⟨rfl, rfl⟩ | ⟨rfl, rfl⟩ <;>
        exact misfit hwf _ (by omega)
    · rcases hcs with ⟨rfl, rfl⟩ | ⟨rfl, rfl⟩ | ⟨rfl, rfl⟩ | ⟨rfl, rfl⟩ <;> exact misfit hwf _ (by omega)
    · rcases hcs with ⟨rfl, rfl⟩ | ⟨rfl, rfl⟩ | ⟨rfl, rfl⟩ <;> exact misfit hwf _ (by omega)
    · rcases hcs with ⟨rfl, rfl⟩ | ⟨rfl, rfl⟩ <;> exact misfit hwf _ (by omega)
    · exact misfit hwf _ (by omega)
    · exact misfit hwf _ (by omega)
    · rcases hcs with ⟨rfl, rfl⟩ | ⟨rfl, rfl⟩ <;> exact misfitRecipe hwf _ hlen

/-! ## Discarded frames (R179, R180, R182) -/

theorem Link.countError_errors {k : Link} (h : k.errors < 65535) : k.countError = { k with errors := k.errors + 1 } := by
  simp only [Link.countError, satAdd, u16Max, Nat.min_eq_right (show k.errors + 1 ≤ 65535 by omega)]

/-- A frame of the other kind that the receiver holds is one more discard. -/
theorem Link.abandonOther_errors {k : Link} {f g : RxFrame} {other : Nat} (herr : k.errors < 65535)
    (hother : (k.frame = none ∧ other = 0) ∨ (k.frame = some g ∧ other = if g.broadcast = f.broadcast then 0 else 1)) :
    k.abandonOther f.broadcast = { k with errors := k.errors + other } := by
  rcases hother with ⟨hframe, rfl⟩ | ⟨hframe, rfl⟩
  · simp only [Link.abandonOther, hframe]
    exact congrArg (fun f => { k with frame := f }) hframe
  · by_cases hkind : g.broadcast = f.broadcast
    · simp only [Link.abandonOther, hframe, hkind, beq_self_eq_true, if_true]
      exact congrArg (fun f => { k with frame := f }) hframe
    · simp [Link.abandonOther, hframe, hkind, Link.countError_errors herr]

section
variable {s : State} (hs : s.Accepts)
include hs

theorem State.discardFrame_accepted (f : RxFrame) (r : Receiver) (held : Option RxFrame) :
    s.discardFrame f r held = s.withLink (((s.link.abandonOther f.broadcast).countError).toState r held) := by
  rw [State.discardFrame, hs.listening, hs.nonePending]; rfl

theorem exec_frameForOtherStation {mark : Byte} (hmark : mark ≠ 0) (haddress : mark.toNat ≠ s.link.address)
    (begun : Option RxFrame) :
    exec (.frameForOtherStation mark begun) s = .next (s.withLink ((s.link.abandonFor begun).toState .skip none)) := by
  have hzero : mark.toNat ≠ 0 := fun h => hmark (BitVec.eq_of_toNat_eq h)
  show execFrameForOtherStation mark begun s = _
  rw [execFrameForOtherStation, hs.listening, hs.nonePending, if_pos (by simp [hzero, haddress])]
  rfl

end

/-- Settles O53. -/
theorem discardedFramesAreCounted : Obligations.DiscardedFramesAreCounted := by
  intro reason f g mark other s hs herr hother
  have hone : other ≤ 1 := by
    rcases hother with ⟨-, rfl⟩ | ⟨-, rfl⟩
    · exact Nat.zero_le 1
    · split <;> decide
  have hcounted (r : Receiver) (held : Option RxFrame) :
      ((s.link.abandonOther f.broadcast).countError).toState r held =
        { s.link with errors := s.link.errors + other + 1, receiver := r, frame := held } := by
    rw [Link.abandonOther_errors (by omega) hother, Link.countError_errors (by show s.link.errors + other < _; omega)]
    rfl
  refine ⟨?_, ?_, fun hmark haddress => ⟨?_, ?_⟩⟩
  · show execFrameDiscard reason f s = _
    cases reason <;> simp only [execFrameDiscard, State.discardFrame_accepted hs, hcounted] <;> rfl
  · show execFrameIdleTimeout f s = _
    rw [execFrameIdleTimeout, State.discardFrame_accepted hs, hcounted]
    rfl
  · rw [exec_frameForOtherStation hs hmark haddress]
    cases hframe : s.link.frame with
    | none => simp [Link.abandonFor, hframe, Link.toState, State.withLink]
    | some x =>
      simp [Link.abandonFor, hframe, Link.toState, State.withLink, Link.countError_errors (show s.link.errors < 65535 by omega)]
  · rw [exec_frameForOtherStation hs hmark haddress]
    exact congrArg (fun k => Host.Outcome.next (s.withLink k)) (hcounted .skip none)

/-! ## Bits (R192) -/

theorem bits_cons (b : Bool) (bs : List Bool) : bits (b :: bs) = (if b then 1 else 0) + 2 * bits bs := rfl

theorem testBit_bits (bs : List Bool) (k : Nat) : (bits bs).testBit k = bs.getD k false := by
  induction bs generalizing k with
  | nil => simp [bits]
  | cons b bs ih =>
    rw [bits_cons]
    cases k with
    | zero => cases b <;> simp [Nat.testBit_zero]
    | succ k =>
      have hdiv : ((if b = true then 1 else 0) + 2 * bits bs) / 2 = bits bs := by split <;> omega
      rw [Nat.testBit_succ, hdiv, ih]
      rfl

/-- A number below the bound of a list of bits is the list's when it has its bits. -/
theorem eq_bits {b : Nat} {bs : List Bool} (hb : b < 2 ^ bs.length)
    (h : ∀ k, k < bs.length → b.testBit k = bs.getD k false) : b = bits bs := by
  refine Nat.eq_of_testBit_eq fun k => ?_
  rw [testBit_bits]
  by_cases hk : k < bs.length
  · exact h k hk
  · have hlarge : 2 ^ bs.length ≤ 2 ^ k := Nat.pow_le_pow_right (by decide) (by omega)
    rw [Nat.testBit_lt_two_pow (hb.trans_le hlarge), List.getD_eq_default _ _ (by omega)]

theorem eq_armBits {b : Nat} {f : ArmId → Bool} (hb : b < 256) (h : ∀ n : ArmId, b.testBit n = f n) : b = armBits f := by
  refine eq_bits (by simpa [allArms] using hb) fun k hk => ?_
  have hk8 : k < 8 := by simpa [allArms] using hk
  rw [h ⟨k, hk8⟩]
  have hall : allArms[k]? = some ⟨k, hk8⟩ := by
    interval_cases k <;> rfl
  simp [List.getD_eq_getElem?_getD, hall]

theorem State.latchedClass_iff (s : State) (n : ArmId) (c : AlarmClass) :
    s.latchedClass n c = true ↔ ∃ k ∈ (s.alarm n).latched, s.classOf k = c := by
  simp [State.latchedClass]

theorem operating_iff (s : State) : s.operating = true ↔ s.store.mode = .running ∨ s.store.mode = .unconfigured := by
  unfold State.operating
  cases s.store.mode <;> decide

theorem StationMode.code_of_operating {s : State} (h : s.operating = true) :
    s.store.mode.code = if s.store.mode = .running then 1 else 2 := by
  rcases (operating_iff s).mp h with h | h <;> rw [h] <;> rfl

/-! ## The reply (R184, R188, R189) -/

theorem State.stationFlags_eq {s : State} {b : Nat} (hb : b < 32)
    (h0 : b.testBit 0 = true ↔ ∃ n, ∃ k ∈ (s.alarm n).latched, s.classOf k = .stop)
    (h1 : b.testBit 1 = true ↔ s.stationAlarms ≠ []) (h2 : b.testBit 2 = true ↔ StationAlarm.restarted ∈ s.stationAlarms)
    (h3 : b.testBit 3 = true ↔ s.link.overrun = true) (h4 : b.testBit 4 = true ↔ s.store.save ≠ none) :
    b = s.stationFlags := by
  refine eq_bits hb fun k hk => ?_
  have hany : (allArms.any fun n => s.latchedClass n .stop) = true ↔
      ∃ n, ∃ k ∈ (s.alarm n).latched, s.classOf k = .stop := by
    simp [List.any_eq_true, State.latchedClass_iff, mem_allArms]
  have hk5 : k < 5 := hk
  rw [Bool.eq_iff_iff]
  interval_cases k
  · exact h0.trans hany.symm
  · rw [h1]; simp
  · rw [h2]; simp
  · rw [h3]; simp
  · rw [h4]; simp [Option.isSome_iff_ne_none]

theorem exec_replyBegin {s : State} {r : Reply} (hreply : s.link.reply = some r) (hsending : s.link.sending = none) :
    exec .replyBegin s = .next (s.withLink { s.link with
      sending := some (replyFrame s.link.address r s.statusHeader), reply := none, overrun := false }) := by
  show execReplyBegin s = _
  rw [execReplyBegin, hreply, hsending]

theorem exec_replyEnd_noRestart {s : State} (hsending : s.link.sending ≠ none) (hrestart : s.store.restart = false) :
    exec .replyEnd s = .next (s.withLink s.linkReplied) := by
  obtain ⟨frame, hframe⟩ := Option.ne_none_iff_exists'.mp hsending
  rw [exec_replyEnd, execReplyEnd, hframe]
  simp only [hrestart]
  rfl

/-- Settles O54. -/
theorem repliesGoOut : Obligations.RepliesGoOut := by
  intro r header body latched s hlatched
  simp only [hlatched]
  refine ⟨fun b0 b1 b2 b3 b4 b5 hs h0 h1 h2 h3 h4 h5 hheader hreply hsending hbody => ?_,
    fun hsending hrestart => exec_replyEnd_noRestart hsending hrestart⟩
  obtain ⟨hlt, hstop, hset, hrestarted, hoverrun, hsave⟩ := h1
  have e1 := State.stationFlags_eq hlt hstop hset hrestarted hoverrun hsave
  have e2 : b2 = armBits fun n => (s.active n).isSome :=
    eq_armBits h2.1 fun n => by rw [Bool.eq_iff_iff, h2.2, Option.isSome_iff_ne_none]
  have e3 : b3 = armBits fun n => s.latchedClass n .stop :=
    eq_armBits h3.1 fun n => by rw [Bool.eq_iff_iff, h3.2, State.latchedClass_iff]
  have e4 : b4 = armBits fun n => s.latchedClass n .warn :=
    eq_armBits h4.1 fun n => by rw [Bool.eq_iff_iff, h4.2, State.latchedClass_iff]
  have hstatus : header = s.statusHeader := by
    rw [hheader, State.statusHeader, State.attention, StationMode.code_of_operating hs, h0, ← e1, ← e2, ← e3, ← e4, h5]
  rw [exec_replyBegin hreply hsending, replyFrame, replyBody, ← hstatus, ← hbody]
  rfl

/-! ## A request and its frame (R180 to R183, R186, R192) -/

theorem encodeFrame_eq (code : Byte) (p : List Byte) :
    encodeFrame code p = byteOf (p.length + 1) 0 :: code :: p ++ crcBytes (byteOf (p.length + 1) 0 :: code :: p) := rfl

theorem byteOf_toNat_of_lt {n : Nat} (h : n < 256) : (byteOf n 0).toNat = n := by
  simp [byteOf, Nat.mod_eq_of_lt h]

/-- A whole frame with its own CRC is read as the command of its code. -/
theorem decodeFrame_encodeFrame (broadcast : Bool) (code : Byte) {p : List Byte} (hp : frameExists p = true) :
    decodeFrame broadcast (encodeFrame code p) = some (if broadcast then broadcastOf code p else requestOf code p) := by
  rw [frameExists_iff] at hp
  have hn : (byteOf (p.length + 1) 0).toNat = p.length + 1 := byteOf_toNat_of_lt (by omega)
  have hgood : lengthGood (byteOf (p.length + 1) 0) = true := by
    rw [lengthGood, decide_eq_true_eq, hn]; omega
  have hlen : (code :: p ++ crcBytes (byteOf (p.length + 1) 0 :: code :: p)).length = p.length + 1 + 2 := by
    rw [List.length_append, crcBytes_length, List.length_cons]
  have htake : (code :: p ++ crcBytes (byteOf (p.length + 1) 0 :: code :: p)).take (p.length + 1) = code :: p :=
    List.take_left' rfl
  have hdrop : (code :: p ++ crcBytes (byteOf (p.length + 1) 0 :: code :: p)).drop (p.length + 1) =
      crcBytes (byteOf (p.length + 1) 0 :: code :: p) := List.drop_left' rfl
  rw [encodeFrame_eq, List.cons_append, decodeFrame]
  simp only [hgood, hn, hlen, htake, hdrop]
  simp

/-- The codes of R192 that a frame for one station carries stand for their own commands, any other for none. -/
theorem requestOf_unknown {code : Byte} {p : List Byte} (h : knownCodes.contains code = false) :
    requestOf code p = .unknownRequest code p := by
  have hnot : code ∉ knownCodes := by simpa using h
  simp only [knownCodes, List.mem_cons, List.not_mem_nil, or_false, not_or] at hnot
  simp only [requestOf, hnot, if_false]

theorem requestOf_frameFields {i : Instr} {code : Byte} {p : List Byte} (h : frameFields i = some (false, code, p))
    (hwf : i.wellFormed = true) : requestOf code p = i ∧ frameExists p = true := by
  cases i with
  | unknownRequest c q =>
    cases h
    obtain ⟨hcode, hp⟩ := Bool.and_eq_true _ _ ▸ hwf
    exact ⟨requestOf_unknown (by simpa using hcode), hp⟩
  | stationStatus q | readArm q | stageLoad q | startLoad q | holdLoad q | resumeLoad q | amendPreset q | abortLoad q
  | readLoad q | retireLoad q | listLoads q | defineRecipe q | amendRecipe q | retireRecipe q | readRecipe q
  | listRecipes q | clearAlarms q | readSetting q | writeSetting q | saveSettings q | restart q =>
    cases h
    exact ⟨rfl, hwf⟩
  | _ => cases h

theorem broadcastOf_frameFields {i : Instr} {code : Byte} {p : List Byte} (h : frameFields i = some (true, code, p))
    (hwf : i.wellFormed = true) : broadcastOf code p = i ∧ frameExists p = true := by
  cases i with
  | holdAll => cases h; exact ⟨rfl, rfl⟩
  | broadcastIgnored c q =>
    cases h
    obtain ⟨hcode, hp⟩ := Bool.and_eq_true _ _ ▸ hwf
    refine ⟨if_neg ?_, hp⟩
    rintro ⟨rfl, rfl⟩
    exact absurd hcode (by decide)
  | _ => cases h

/-- Settles O55. -/
theorem requestsSurviveTheirFrame : Obligations.RequestsSurviveTheirFrame := by
  intro i broadcast code p hfields hwf
  cases broadcast with
  | false =>
    obtain ⟨hcode, hp⟩ := requestOf_frameFields hfields hwf
    rw [decodeFrame_encodeFrame false code hp, if_neg (by decide), hcode]
  | true =>
    obtain ⟨hcode, hp⟩ := broadcastOf_frameFields hfields hwf
    rw [decodeFrame_encodeFrame true code hp, if_pos rfl, hcode]

end Sys2Proof.Machine
end

section
/-! SUPPORT. Requests that report, clear or begin something: STATION STATUS, CLEAR ALARMS, SAVE SETTINGS and RESTART
(R173, R190, R199, R200); the byte of a save (R199); the output leads (R97, R115, R148, R176, R177). -/

namespace Sys2Proof.Machine

/-! ## Answers with an effect (R183) -/

/-- An owner's answer with an effect that leaves the link as it was received. -/
theorem State.takeRequest_of_effect {s : State} (hs : s.Accepts) {code : Byte} {p : List Byte} (hp : frameExists p = true)
    {owner : State → Answer} {t : State} {r : Result} {payload : List Byte}
    (h : owner (s.withLink (s.linkReceived false)) = ⟨t, r, payload⟩) (hlink : t.link = s.linkReceived false) :
    s.takeRequest code p true owner = t.withLink (s.linkAnswered code r payload) := by
  rw [State.takeRequest_accepted hs hp, State.receiveGood_eq, h]
  simp only [Answer.pend, hlink]
  rfl

theorem frameExists_of_length {k : Nat} {p : List Byte} (h : p.length = k) (hk : k ≤ 249) : frameExists p = true := by
  rw [frameExists_iff, h]; exact hk

theorem fitsLength_of_length {k : Nat} {p : List Byte} (h : p.length = k) : fitsLength (k + 1) p = true := by
  rw [fitsLength_iff, h]

/-! ## STATION STATUS (R190) -/

theorem State.Accepts.operating {s : State} (hs : s.Accepts) : s.operating = true :=
  ((Bool.and_eq_true _ _).mp hs.listening).1

theorem ResetCause.code_eq (c : ResetCause) :
    c.code = match c with
      | .powerOn => 1
      | .resetPin => 2
      | .hostRestart => 3 := by
  cases c <;> rfl

theorem AddressSource.code_eq (a : AddressSource) : a.code = if a = .straps then 1 else 2 := by
  cases a <;> rfl

theorem boolCode_isSome {α : Type} [DecidableEq α] (o : Option α) : boolCode o.isSome = if o = none then 0 else 1 := by
  cases o <;> rfl

/-- Settles O44. -/
theorem stationStatusReportsTheStation : Obligations.StationStatusReportsTheStation := by
  intro s hs
  have hanswer : Answer.ok (s.receiveGood false) (s.receiveGood false).stationReport =
      ⟨s.receiveGood false, .ok, (s.withLink (s.linkReceived false)).stationReport⟩ := by
    rw [State.receiveGood_eq]; rfl
  show execStationStatus [] s = _
  rw [execStationStatus, fitsLength_of_length (k := 0) (p := []) rfl, State.takeRequest_of_answer hs rfl hanswer]
  simp only [State.stationReport, State.withLink_store, State.withLink_link, State.withLink_stationAlarms,
    State.withLink_loads, State.withLink_recipes, StationMode.code_of_operating hs.operating, ResetCause.code_eq,
    boolCode_isSome]
  rw [AddressSource.code_eq]
  rfl

/-! ## CLEAR ALARMS (R173) -/

section
variable {s : State} (hs : s.Accepts) {p : List Byte} (hp : p.length = 1)
include hs hp

theorem exec_clearAlarms_of_effect {t : State} {r : Result} {payload : List Byte}
    (h : (s.withLink (s.linkReceived false)).answerClear p = ⟨t, r, payload⟩) (hlink : t.link = s.linkReceived false) :
    exec (.clearAlarms p) s = .next (t.withLink (s.linkAnswered 0x30 r payload)) := by
  show execClearAlarms p s = _
  rw [execClearAlarms, fitsLength_of_length hp,
    State.takeRequest_of_effect hs (frameExists_of_length hp (by decide)) h hlink]

theorem exec_clearAlarms_station (hscope : fieldAt p 0 1 = 0) :
    exec (.clearAlarms p) s = .next { s with
      stationAlarms := [], link := { s.linkAnswered 0x30 .ok [] with errors := 0 } } := by
  show execClearAlarms p s = _
  rw [execClearAlarms, fitsLength_of_length hp,
    State.takeRequest_accepted hs (frameExists_of_length hp (by decide)), State.receiveGood_eq]
  simp only [State.answerClear, hscope, if_true]
  rfl

end

theorem armNumbered_of_gt {k : Nat} (h : 8 < k) : armNumbered k = none := dif_neg (by omega)

/-- Settles O46. -/
theorem clearAlarmsClearsItsScope : Obligations.ClearAlarmsClearsItsScope := by
  intro p n s hs hp
  refine ⟨fun hbad => ?_, exec_clearAlarms_station hs hp, fun harm => ?_⟩
  · refine exec_clearAlarms_of_effect hs hp (t := s.withLink (s.linkReceived false)) ?_ rfl
    have hne : fieldAt p 0 1 ≠ 0 := by omega
    simp only [State.answerClear, hne, if_false, armNumbered_of_gt hbad]
    rfl
  · refine exec_clearAlarms_of_effect hs hp (t := (s.withLink (s.linkReceived false)).clearArm n) ?_ rfl
    have hne : armNumber n ≠ 0 := Nat.succ_ne_zero _
    simp only [State.answerClear, harm, hne, if_false, armNumbered_armNumber]
    rfl

/-! ## SAVE SETTINGS and RESTART (R199, R200) -/

theorem exec_saveSettings_of_effect {s t : State} (hs : s.Accepts) {r : Result} {payload : List Byte}
    (h : (s.withLink (s.linkReceived false)).answerSave = ⟨t, r, payload⟩) (hlink : t.link = s.linkReceived false) :
    exec (.saveSettings []) s = .next (t.withLink (s.linkAnswered 0x42 r payload)) := by
  show execSaveSettings [] s = _
  rw [execSaveSettings, fitsLength_of_length (k := 0) (p := []) rfl, State.takeRequest_of_effect hs rfl h hlink]

theorem exec_restart_of_effect {s t : State} (hs : s.Accepts) {r : Result} {payload : List Byte}
    (h : (s.withLink (s.linkReceived false)).answerRestart = ⟨t, r, payload⟩) (hlink : t.link = s.linkReceived false) :
    exec (.restart []) s = .next (t.withLink (s.linkAnswered 0x43 r payload)) := by
  show execRestart [] s = _
  rw [execRestart, fitsLength_of_length (k := 0) (p := []) rfl, State.takeRequest_of_effect hs rfl h hlink]

theorem State.anyDelivering_iff (s : State) : s.anyDelivering = true ↔ ∃ l ∈ s.loads, l.state = .delivering := by
  simp [State.anyDelivering]

/-- Settles O49. -/
theorem saveAndRestartAreTaken : Obligations.SaveAndRestartAreTaken := by
  intro s hs
  let u := s.withLink (s.linkReceived false)
  refine ⟨fun hsave => ?_, fun hsave => ?_⟩
  · have hsome : u.store.save.isSome = true := Option.isSome_iff_ne_none.mpr hsave
    exact ⟨exec_saveSettings_of_effect hs (t := u) (if_pos hsome) rfl, exec_restart_of_effect hs (t := u) (if_pos hsome) rfl⟩
  · have hnone : ¬ u.store.save.isSome = true := by rw [show u.store.save = none from hsave]; decide
    refine ⟨exec_saveSettings_of_effect hs (t := u.withStore _) (if_neg hnone) rfl, fun hany => ?_, fun hany => ?_⟩
    · have hdelivering : u.anyDelivering = true := u.anyDelivering_iff.mpr hany
      exact exec_restart_of_effect hs (t := u) ((if_neg hnone).trans (if_pos hdelivering)) rfl
    · have hdelivering : ¬ u.anyDelivering = true := fun h => by
        obtain ⟨l, hl, hstate⟩ := u.anyDelivering_iff.mp h
        exact hany l hl hstate
      exact exec_restart_of_effect hs (t := u.withStore _) ((if_neg hnone).trans (if_neg hdelivering)) rfl

/-! ## The byte of a save (R199; log entries 7, 8, 32, 39) -/

section
variable {s : State} {p : SaveProgress} (hsave : s.store.save = some p)
include hsave

theorem exec_saveByteDone_fault (hsize : p.area.size ≤ p.byte) (ack : Bool) :
    exec (.saveByteDone ack) s = .fault (.noSuchMemoryByte p.address) := by
  show execSaveByteDone ack s = _
  rw [execSaveByteDone, hsave]
  exact if_pos hsize

variable (hsize : p.byte < p.area.size)
include hsize

theorem exec_saveByteDone_notAcked : exec (.saveByteDone false) s = .next (s.saveNotAcked p) := by
  show execSaveByteDone false s = _
  rw [execSaveByteDone, hsave]
  exact if_neg (Nat.not_le.mpr hsize)

theorem exec_saveByteDone_acked :
    exec (.saveByteDone true) s = .next (if p.writing then s.saveWrote p else s.saveRead p) := by
  show execSaveByteDone true s = _
  rw [execSaveByteDone, hsave]
  simp only [Nat.not_le.mpr hsize, if_false, Bool.not_true, Bool.false_eq_true]
  split <;> rfl

end

theorem Store.setMixed_eq (t : Store) (a : Area) (x : Bool) :
    t.setMixed a x = { t with
      mixedM := if a = .m then x else t.mixedM, mixedL := if a = .l then x else t.mixedL } := by
  cases a <;> rfl

/-- Where the save goes after a byte: on in its area, from area M to area L, or to its end. -/
theorem Store.advance_eq (t : Store) (p : SaveProgress) :
    t.advance p = { t with
      save := if p.byte + 1 < p.area.size then some ⟨p.area, p.byte + 1, false, 3⟩
        else if p.area = .m then some ⟨.l, 0, false, 3⟩ else none
      line := if p.byte + 1 < p.area.size ∨ p.area = .m then t.line else .idle
      mixedM := if p.byte + 1 < p.area.size ∨ p.area = .l then t.mixedM else false
      mixedL := if p.byte + 1 < p.area.size ∨ p.area = .m then t.mixedL else false } := by
  unfold Store.advance
  by_cases h : p.byte + 1 < p.area.size
  · simp [h, saveTries]
  · cases ha : p.area <;> rw [ha] at h <;> simp [h, Store.setMixed, Store.endSave, SaveProgress.enter, saveTries]

/-- The mark of an area after a byte done: cleared by its last byte, set by a data byte written. -/
def SaveProgress.markAfter (p : SaveProgress) (before : Bool) : Bool :=
  if p.byte + 1 = p.area.size then false
  else if p.writing = true ∧ p.byte + 2 < p.area.size then true else before

/-- The store after a byte done, read equal or written. -/
def Store.done (t : Store) (p : SaveProgress) : Store :=
  (if p.writing = true ∧ p.byte < p.area.dataSize then t.setMixed p.area true else t).advance p

theorem Store.done_progress (t : Store) (p : SaveProgress) :
    (p.byte + 1 < p.area.size → (t.done p).save = some ⟨p.area, p.byte + 1, false, 3⟩ ∧ (t.done p).line = t.line) ∧
      (p.byte + 1 = p.area.size → p.area = .m → (t.done p).save = some ⟨.l, 0, false, 3⟩ ∧ (t.done p).line = t.line) ∧
      (p.byte + 1 = p.area.size → p.area = .l → (t.done p).save = none ∧ (t.done p).line = .idle) := by
  have hline : (if p.writing = true ∧ p.byte < p.area.dataSize then t.setMixed p.area true else t).line = t.line := by
    split
    · rw [Store.setMixed_eq]
    · rfl
  rw [Store.done, Store.advance_eq, hline]
  refine ⟨fun h => ?_, fun h ha => ?_, fun h ha => ?_⟩
  · simp [h]
  · simp [h, ha]
  · simp [h, ha]

theorem Store.done_marks (t : Store) {p : SaveProgress} (hsize : p.byte < p.area.size) :
    (t.done p).mixedM = (if p.area = .m then p.markAfter t.mixedM else t.mixedM) ∧
      (t.done p).mixedL = (if p.area = .l then p.markAfter t.mixedL else t.mixedL) := by
  have hdata : p.byte < p.area.dataSize ↔ p.byte + 2 < p.area.size := by rw [Area.dataSize]; omega
  rw [Store.done, Store.advance_eq]
  simp only [SaveProgress.markAfter, hdata]
  clear hdata
  generalize p.area.size = size at hsize ⊢
  by_cases hlast : p.byte + 1 = size
  · have hend : ¬ p.byte + 2 < size := by omega
    cases p.area <;> simp [hlast, hend]
  · have hnext : p.byte + 1 < size := by omega
    by_cases hmark : p.writing = true ∧ p.byte + 2 < size
    · cases p.area <;> simp [hlast, hnext, hmark, Store.setMixed]
    · cases p.area <;> simp only [hlast, hnext, hmark] <;> simp

/-- A byte done: the store moves on, and a byte written is in the memory. -/
theorem exec_saveByteDone_done {s : State} {p : SaveProgress} (hsave : s.store.save = some p)
    (hsize : p.byte < p.area.size) (hdone : p.writing = true ∨ s.memory.read p.address = s.workingByte p) :
    exec (.saveByteDone true) s = .next { s with
      store := s.store.done p
      memory := if p.writing then s.memory.write p.address (s.workingByte p) else s.memory } := by
  rw [exec_saveByteDone_acked hsave hsize, Store.done]
  cases hwriting : p.writing with
  | true => simp only [if_true, true_and]; rfl
  | false =>
    have hequal : s.memory.read p.address = s.workingByte p := hdone.resolve_left (by simp [hwriting])
    simp [State.saveRead, hequal, State.withStore]

/-- Settles O50. -/
theorem saveGoesByteByByte : Obligations.SaveGoesByteByByte := by
  refine ⟨?_, fun ack p s hsave hsize => exec_saveByteDone_fault hsave hsize ack⟩
  intro ack p w done s hwf hsave hw hsize hdone
  have hworking : s.workingByte p = w := by rw [State.workingByte, hw]; rfl
  have haddress : p.address < memorySize := p.address_lt hsize
  cases ack with
  | false =>
    have hnot : ¬ done := fun h => absurd (hdone.mp h).1 (by decide)
    refine ⟨_, exec_saveByteDone_notAcked hsave hsize, ?_⟩
    by_cases htries : p.tries ≤ 1
    · have heq : s.saveNotAcked p = (s.withStore s.store.endSave).latchStation .saveFailed := if_pos htries
      rw [heq]
      refine ⟨fun _ _ => rfl, hwf, fun _ => ⟨rfl, fun _ => ⟨rfl, ?_⟩, fun h => absurd h (by omega)⟩,
        fun h => absurd h (by decide), fun h => absurd h hnot, fun h => ?_, rfl⟩
      · simp only [State.latchStation, State.withStationAlarms_stationAlarms, insertOnce]
        split <;> simp_all
      · rcases h with h | h
        · exact absurd h (by decide)
        · exact absurd h (by omega)
    · have heq : s.saveNotAcked p = s.withStore { s.store with save := some { p with tries := p.tries - 1 } } :=
        if_neg htries
      rw [heq]
      exact ⟨fun _ _ => rfl, hwf, fun _ => ⟨rfl, fun h => absurd h htries, fun _ => rfl⟩, fun h => absurd h (by decide),
        fun h => absurd h hnot, fun _ => rfl, rfl⟩
  | true =>
    by_cases hd : done
    · have hbyte : p.writing = true ∨ s.memory.read p.address = s.workingByte p := by
        rw [hworking]; exact (hdone.mp hd).2
      refine ⟨_, exec_saveByteDone_done hsave hsize hbyte, fun a ha => ?_, ?_, fun h => absurd h (by decide),
        fun _ h => absurd hd h, fun _ => ⟨?_, ?_⟩, fun _ => rfl, rfl⟩
      · show Memory.read (if _ then _ else _) a = _
        split
        · exact Memory.read_write_other s.memory _ ha
        · rfl
      · show Memory.wf (if _ then _ else _) = _
        split
        · exact Memory.write_wf s.memory _ _ haddress hwf
        · exact hwf
      · show Memory.read (if _ then _ else _) _ = _
        split
        · rw [hworking]; exact Memory.read_write_same s.memory _ _ hwf
        · rename_i hwriting
          exact (hdone.mp hd).2.resolve_left hwriting
      · obtain ⟨hnext, hm, hl⟩ := s.store.done_progress p
        exact ⟨hnext, hm, hl, s.store.done_marks hsize⟩
    · have hnot : ¬ (p.writing = true ∨ s.memory.read p.address = s.workingByte p) := by
        rw [hworking]; exact fun h => hd (hdone.mpr ⟨rfl, h⟩)
      obtain ⟨hwriting, hread⟩ := not_or.mp hnot
      have heq : exec (.saveByteDone true) s =
          .next (s.withStore { s.store with save := some { p with writing := true } }) := by
        rw [exec_saveByteDone_acked hsave hsize, if_neg hwriting, State.saveRead, if_neg hread]
      exact ⟨_, heq, fun _ _ => rfl, hwf, fun h => absurd h (by decide), fun _ _ => ⟨rfl, rfl⟩, fun h => absurd h hd,
        fun _ => rfl, rfl⟩

/-! ## Outputs (R97, R115, R148, R176, R177) -/

theorem State.ltx_idle {s : State} (h : s.link.sending = none) (k : Nat) : s.ltx k = true := by
  rw [State.ltx, State.lineBits_idle h]; rfl

/-- LTX at a bit time of a character of the reply on the line. -/
theorem State.ltx_sending {s : State} {frame : List Byte} (h : s.link.sending = some frame) {k j : Nat} {b : Byte}
    (hb : frame[k]? = some b) (hj : j < 11) :
    s.ltx (11 * k + j) = ((characterBits (decide (k = 0)) b)[j]?).getD true := by
  rw [State.ltx, State.lineBits_sending h, frameBits_getElem? frame k j b hb hj]

/-- Every output is off in the start state. -/
theorem State.StartedInto.outputs_off {s t : State} (h : s.StartedInto t) (n : ArmId) (i : InjId) :
    (t.arm n).valve = .close ∧ t.gasOutput1 n = false ∧ t.gasOutput2 n = false ∧ t.blockValve n = false ∧
      (t.setpointDuty n).1 = 0 ∧ t.injectorOutput i = false ∧ t.driverEnable = false ∧ ∀ k, t.ltx k = true := by
  simp only [State.gasOutput1, State.gasOutput2, State.blockValve, State.setpointDuty, State.injectorOutput,
    State.driverEnable, h.arms, h.ratios, h.injectors, h.replies.2.2]
  exact ⟨rfl, rfl, rfl, rfl, rfl, rfl, rfl, State.ltx_idle h.replies.2.2⟩

/-- The commands at which a start begins or is held put every block into its start state. -/
theorem exec_startedInto {c : Instr} {s t : State}
    (hc : c = .powerUp ∨ c = .powerDown ∨ c = .resetLow ∨ c = .resetRelease ∨
      (c = .replyEnd ∧ s.link.sending ≠ none ∧ s.store.restart = true)) (h : exec c s = .next t) : s.StartedInto t := by
  have starts (cause : ResetCause) (hc : (c = .powerUp ∧ cause = .powerOn) ∨ (c = .resetRelease ∧ cause = .resetPin)
      ∨ (c = .replyEnd ∧ cause = .hostRestart ∧ s.link.sending.isSome = true ∧ s.store.restart = true)) :
      s.StartedInto t := by
    obtain ⟨u, hu, hinto, -⟩ := startsPutEveryBlockIntoItsStartState c cause s hc
    cases hu.symm.trans h
    exact hinto
  have holds (hc : c = .powerDown ∨ c = .resetLow) : s.StartedInto t := by
    obtain ⟨u, hu, hinto, -⟩ := powerDownAndResetLowHoldTheStart c s hc
    cases hu.symm.trans h
    exact hinto
  rcases hc with hc | hc | hc | hc | ⟨hc, hsending, hrestart⟩
  · exact starts .powerOn (.inl ⟨hc, rfl⟩)
  · exact holds (.inl hc)
  · exact holds (.inr hc)
  · exact starts .resetPin (.inr (.inl ⟨hc, rfl⟩))
  · exact starts .hostRestart (.inr (.inr ⟨hc, rfl, Option.isSome_iff_ne_none.mpr hsending, hrestart⟩))

/-- Settles O56. -/
theorem gasOutputsFollowTheCommand : Obligations.GasOutputsFollowTheCommand := by
  intro n i s
  refine ⟨fun h => ?_, fun h => ?_, fun h => ?_, decide_eq_true_iff, rfl, beq_iff_eq,
    Option.isSome_iff_ne_none, State.ltx_idle, fun frame hframe => ⟨fun k b hb => ?_, fun k hk => ?_⟩,
    fun c t hc h => (exec_startedInto hc h).outputs_off n i⟩
  · simp [State.gasOutput1, State.gasOutput2, h]
  · simp [State.gasOutput1, State.gasOutput2, h]
  · simp [State.gasOutput1, State.gasOutput2, h]
  · refine ⟨State.ltx_sending hframe hb (j := 0) (by decide), fun j hj => ?_,
      State.ltx_sending hframe hb (j := 9) (by decide), State.ltx_sending hframe hb (j := 10) (by decide)⟩
    rw [Nat.add_assoc, State.ltx_sending hframe hb (by omega)]
    interval_cases j <;> rfl
  · rw [State.ltx, State.lineBits_sending hframe, List.getElem?_eq_none (by rw [frameBits_length]; exact hk)]
    rfl

end Sys2Proof.Machine
end

section
/-! SUPPORT. The meter channels between detections (R45 to R47), the strokes between issue and judgement (R151), the
start of a converter read (R60), the refusals of START and RESUME (R12, R13, R16), and the recipe requests in use
(R36, R37). -/

namespace Sys2Proof.Machine

/-! ## Meter channels (R47, R51) -/

theorem Meter.forward_eq (m : Meter) : m.forward = { m with
    debt := m.debt - 1, pending := if 0 < m.debt then m.pending else min 65535 (m.pending + 1) } := by
  unfold Meter.forward
  split
  · rfl
  · rename_i h
    simp only [satAdd, Nat.eq_zero_of_not_pos h]

/-- Two changes of one meter are one. -/
theorem State.modMeter_modMeter (s : State) (m : MeterId) (f g : Meter → Meter) :
    (s.modMeter m f).modMeter m g = s.modMeter m fun x => g (f x) := by
  simp [State.modMeter, State.setMeter, State.meter]

/-- An A edge below the window size counts and closes nothing. -/
theorem State.countA_below {s : State} {m : MeterId} (h : (s.meter m).windowA + 1 < (s.meterCfg m).window) :
    s.countA m = s.modMeter m fun x => { x with windowA := x.windowA + 1 } := by
  rw [State.countA, State.modMeter_meter_self]
  exact if_neg (Nat.not_le.mpr h)

theorem exec_meterAEdge {s : State} (hs : s.isRunning = true) (m : MeterId) (b : Bool) :
    exec (.meterAEdge m b) s = .next
      (if (s.meterCfg m).security then (if b then s.reversePulse m else s.modMeter m Meter.forward).countA m
        else s.modMeter m Meter.forward) := by
  show execMeterAEdge m b s = _
  rw [execMeterAEdge, if_pos hs]
  split <;> rfl

/-- Settles O16. -/
theorem forwardPulseRepaysTheDebtFirst : Obligations.ForwardPulseRepaysTheDebtFirst := by
  intro m b s hs h
  rw [exec_meterAEdge hs]
  by_cases hsecurity : (s.meterCfg m).security = true
  · obtain ⟨rfl, hwindow⟩ := h.resolve_left (by simp [hsecurity])
    have hbelow : ((s.modMeter m Meter.forward).meter m).windowA + 1 <
        ((s.modMeter m Meter.forward).meterCfg m).window := by
      rw [State.modMeter_meter_self, Meter.forward_eq]
      exact hwindow
    simp only [hsecurity, if_true, Bool.false_eq_true, if_false]
    rw [State.countA_below hbelow, State.modMeter_modMeter, State.modMeter, Meter.forward_eq]
    rfl
  · simp only [hsecurity, if_false, Nat.add_zero, Bool.false_eq_true]
    rw [State.modMeter, Meter.forward_eq]
    rfl

/-! ## Strokes (R151) and the start of a read (R60) -/

/-- Settles O20. -/
theorem strokesAreVerifiedThroughTheTail : Obligations.StrokesAreVerifiedThroughTheTail := by
  intro i due s
  refine ⟨fun h => ?_, fun h => ?_, fun h hdue => ?_⟩
  · show execVerifyPulse i s = _
    rw [execVerifyPulse]
    rcases h with h | h <;> rw [h] <;> rfl
  · show execVerifyPulse i s = _
    rw [execVerifyPulse]
    rcases h with h | h <;> rw [h]
  · show execStrokeTimeEnd i s = _
    rw [execStrokeTimeEnd, h, hdue]
    rfl

/-- Settles O22. -/
theorem readsStartEveryHundredMs : Obligations.ReadsStartEveryHundredMs := by
  intro due s hs
  refine ⟨fun h => ?_, fun h => ?_⟩
  · show execTempReadStart .a s = _
    rw [execTempReadStart, TempPort.next, h]
    exact if_pos hs
  · show execTempReadStart .b s = _
    rw [execTempReadStart, TempPort.next, h]
    exact if_pos hs

/-! ## Requests that name a load (R12, R16, R18, R19, R22, R24) -/

section
variable {s : State} {number : Nat} {f : Load → Answer}

theorem State.forLoad_badField (h : number = 0) : s.forLoad number f = .refuse s .badField := if_pos h

theorem State.forLoad_notFound (h : number ≠ 0) (hload : s.load? number = none) :
    s.forLoad number f = .refuse s .notFound := by
  rw [State.forLoad, if_neg h, hload]

theorem State.forLoad_found (h : number ≠ 0) {l : Load} (hload : s.load? number = some l) :
    s.forLoad number f = f l := by
  rw [State.forLoad, if_neg h, hload]

end

/-- A request that names a load and fits, as its owner answers it. -/
theorem State.takeRequest_forLoad {s : State} (hs : s.Accepts) {code : Byte} {p : List Byte} (hp : p.length = 2)
    {owner : State → Answer} {r : Result} (h : owner (s.receiveGood false) = .refuse (s.receiveGood false) r) :
    s.takeRequest code p (fitsLength 3 p) owner = s.refusedAs code r := by
  rw [fitsLength_of_length hp, State.takeRequest_of_answer hs (frameExists_of_length hp (by decide)) h]
  rfl

section
variable {s : State} (hs : s.Accepts) {p : List Byte} (hp : p.length = 2) {r : Result}
include hs hp

theorem exec_startLoad_refused (h : (s.receiveGood false).answerStart p = .refuse (s.receiveGood false) r) :
    exec (.startLoad p) s = .next (s.refusedAs 0x11 r) :=
  congrArg Host.Outcome.next (State.takeRequest_forLoad hs hp h)

theorem exec_resumeLoad_refused (h : (s.receiveGood false).answerResume p = .refuse (s.receiveGood false) r) :
    exec (.resumeLoad p) s = .next (s.refusedAs 0x13 r) :=
  congrArg Host.Outcome.next (State.takeRequest_forLoad hs hp h)

end

section
variable {s : State} {p : List Byte} {l : Load} (hne : fieldAt p 0 2 ≠ 0) (hload : s.load? (fieldAt p 0 2) = some l)
include hne hload

theorem State.answerStart_wrongState (h : l.state ≠ .ready) : s.answerStart p = .refuse s .wrongState :=
  (State.forLoad_found hne hload).trans (if_pos h)

theorem State.answerStart_notPermitted (h : l.state = .ready) (hmay : s.mayStart l.arm l = false) :
    s.answerStart p = .refuse s .notPermitted :=
  (State.forLoad_found hne hload).trans ((if_neg (not_not.mpr h)).trans (if_pos (by rw [hmay]; rfl)))

theorem State.answerStart_starts (h : l.state = .ready) (hmay : s.mayStart l.arm l = true) :
    s.answerStart p = .okState (s.start l.arm) l.number :=
  (State.forLoad_found hne hload).trans ((if_neg (not_not.mpr h)).trans (if_neg (by rw [hmay]; decide)))

theorem State.answerResume_wrongState (h : l.state ≠ .held) : s.answerResume p = .refuse s .wrongState :=
  (State.forLoad_found hne hload).trans (if_pos h)

theorem State.answerResume_notPermitted (h : l.state = .held) (hmay : s.mayStart l.arm l = false) :
    s.answerResume p = .refuse s .notPermitted :=
  (State.forLoad_found hne hload).trans ((if_neg (not_not.mpr h)).trans (if_pos (by rw [hmay]; rfl)))

theorem State.answerResume_resumes (h : l.state = .held) (hmay : s.mayStart l.arm l = true) :
    s.answerResume p = .okState (s.resume l.arm) l.number :=
  (State.forLoad_found hne hload).trans ((if_neg (not_not.mpr h)).trans (if_neg (by rw [hmay]; decide)))

end

/-! ## The push-buttons (R13, R103) -/

section
variable {s : State} (b : ButtonChange)

theorem exec_startButtonEdge (hs : s.operating = true) :
    exec (.startButtonEdge b) s = .next (if isEdge s.buttons.start[b.arm] b.pressed
      then (s.withButtons (setStart s.buttons b)).startEdge b.arm else s.withButtons (setStart s.buttons b)) :=
  if_pos hs

theorem exec_stopButtonEdge (hs : s.operating = true) :
    exec (.stopButtonEdge b) s = .next (if isEdge s.buttons.stop[b.arm] b.pressed
      then (s.withButtons (setStop s.buttons b)).stopEdge b.arm else s.withButtons (setStop s.buttons b)) :=
  if_pos hs

end

theorem State.startEdge_noRecord {s : State} {n : ArmId} (h : s.active n = none) : s.startEdge n = s := by
  rw [State.startEdge, h]

/-- A start edge on a record that may not start, or that is DELIVERING, is ignored. -/
theorem State.startEdge_ignored {s : State} {n : ArmId} {l : Load} (h : s.active n = some l)
    (hl : s.mayStart n l = false ∨ l.state = .delivering) : s.startEdge n = s := by
  rw [State.startEdge, h]
  rcases hl with hl | hl
  · simp [hl]
  · simp [hl]

/-- Settles O13. -/
theorem startConditionsRefuse : Obligations.StartConditionsRefuse := by
  intro p b l s
  refine ⟨fun hs hp => ⟨fun hzero => ?_, fun hne hnone => ?_, fun hne hload => ⟨fun h => ?_, fun h => ?_,
    fun h hmay => ?_, fun h hmay => ?_⟩⟩, fun hs h => ?_, fun hs => ?_⟩
  · exact ⟨exec_startLoad_refused hs hp (State.forLoad_badField hzero),
      exec_resumeLoad_refused hs hp (State.forLoad_badField hzero)⟩
  · exact ⟨exec_startLoad_refused hs hp (State.forLoad_notFound hne hnone),
      exec_resumeLoad_refused hs hp (State.forLoad_notFound hne hnone)⟩
  · exact exec_startLoad_refused hs hp (State.answerStart_wrongState hne hload h)
  · exact exec_resumeLoad_refused hs hp (State.answerResume_wrongState hne hload h)
  · exact exec_startLoad_refused hs hp (State.answerStart_notPermitted hne hload h hmay)
  · exact exec_resumeLoad_refused hs hp (State.answerResume_notPermitted hne hload h hmay)
  · rw [exec_startButtonEdge b hs]
    rcases h with h | h | h | ⟨h, hl⟩
    · have hedge : isEdge s.buttons.start[b.arm] b.pressed = false := by rw [h, isEdge, Bool.and_false]
      rw [hedge]; rfl
    · have hedge : isEdge s.buttons.start[b.arm] b.pressed = false := by rw [h]; rfl
      rw [hedge]; rfl
    · rw [State.startEdge_noRecord (s := s.withButtons (setStart s.buttons b)) h, ite_self]; rfl
    · rw [State.startEdge_ignored (s := s.withButtons (setStart s.buttons b)) h hl, ite_self]; rfl
  · show execStartButtonEdge b s = _
    rw [execStartButtonEdge, hs]
    rfl

/-! ## AMEND RECIPE and RETIRE RECIPE (R36, R37) -/

/-- A recipe looked up after the recipe of a number was changed: the change keeps numbers. -/
theorem State.modRecipe_recipe? (s : State) (number k : Nat) {f : Recipe → Recipe} (hf : ∀ r, (f r).number = r.number) :
    (s.modRecipe number f).recipe? k = if k = number then (s.recipe? k).map f else s.recipe? k := by
  simp only [State.recipe?, State.modRecipe, State.withRecipes_recipes]
  have hnumber : ((fun r : Recipe => r.number == k) ∘ fun r => if r.number == number then f r else r) =
      fun r => r.number == k := by
    funext r
    simp only [Function.comp_apply, apply_ite Recipe.number, hf, ite_self]
  rw [List.find?_map, hnumber]
  cases h : s.recipes.find? fun r => r.number == k with
  | none => simp
  | some r =>
    have hr : r.number = k := by simpa using List.find?_some h
    by_cases hk : k = number <;> simp [hr, hk]

/-- A recipe looked up after the recipe of a number left the table. -/
theorem find?_filter_number (rs : List Recipe) (number k : Nat) :
    (rs.filter fun x => x.number != number).find? (fun r => r.number == k) =
      if k = number then none else rs.find? fun r => r.number == k := by
  rw [List.find?_filter]
  split
  · rename_i hk
    rw [List.find?_eq_none]
    simp [hk]
  · rename_i hk
    congr 1
    funext r
    by_cases hr : r.number = k <;> simp [hr, hk]

/-- A recipe as RETIRE RECIPE leaves it while records name it. -/
def Recipe.retiringNow (r : Recipe) : Recipe := { r with state := .retiring }

theorem State.retireRecipe_inUse {s : State} {r : Recipe} (h : r.count ≠ 0) :
    s.retireRecipe r = s.modRecipe r.number Recipe.retiringNow := if_neg h

theorem State.recipe?_number {s : State} {k : Nat} {r : Recipe} (h : s.recipe? k = some r) : r.number = k := by
  simpa using List.find?_some h

theorem State.recipe?_mem {s : State} {k : Nat} {r : Recipe} (h : s.recipe? k = some r) : r ∈ s.recipes :=
  List.mem_of_find?_eq_some h

/-- With numbers unlike, a number stands for one recipe. -/
theorem length_filter_number {rs : List Recipe} (hn : (rs.map (·.number)).Nodup) {r : Recipe} (hr : r ∈ rs) :
    (rs.filter fun x => x.number != r.number).length + 1 = rs.length := by
  induction rs with
  | nil => cases hr
  | cons x rest ih =>
    rw [List.map_cons, List.nodup_cons] at hn
    obtain ⟨hx, hrest⟩ := hn
    rcases List.mem_cons.mp hr with rfl | hr
    · have hall : rest.filter (fun y => y.number != r.number) = rest := by
        refine List.filter_eq_self.mpr fun y hy => ?_
        have hne : y.number ≠ r.number := fun h => hx (List.mem_map.mpr ⟨y, hy, h⟩)
        simpa using hne
      simp [hall]
    · have hne : x.number ≠ r.number := fun h => hx (List.mem_map.mpr ⟨r, hr, h.symm⟩)
      have hkept := ih hrest hr
      simp [hne, hkept]

theorem State.modRecipe_length (s : State) (number : Nat) (f : Recipe → Recipe) :
    (s.modRecipe number f).recipes.length = s.recipes.length := List.length_map _

section
variable {s : State} (hs : s.Accepts) {p : List Byte} {t : State} {r : Result} {payload : List Byte}
include hs

theorem exec_amendRecipe_of_effect (hfits : fitsRecipe p = true) (hexists : frameExists p = true)
    (h : (s.withLink (s.linkReceived false)).answerAmendRecipe p = ⟨t, r, payload⟩)
    (hlink : t.link = s.linkReceived false) :
    exec (.amendRecipe p) s = .next (t.withLink (s.linkAnswered 0x21 r payload)) := by
  show execAmendRecipe p s = _
  rw [execAmendRecipe, hfits, State.takeRequest_of_effect hs hexists h hlink]

theorem exec_retireRecipe_of_effect (hp : p.length = 2)
    (h : (s.withLink (s.linkReceived false)).answerRetireRecipe p = ⟨t, r, payload⟩)
    (hlink : t.link = s.linkReceived false) :
    exec (.retireRecipe p) s = .next (t.withLink (s.linkAnswered 0x22 r payload)) := by
  show execRetireRecipe p s = _
  rw [execRetireRecipe, fitsLength_of_length hp,
    State.takeRequest_of_effect hs (frameExists_of_length hp (by decide)) h hlink]

theorem exec_amendRecipe_refused (hfits : fitsRecipe p = true) (hexists : frameExists p = true)
    (h : (s.withLink (s.linkReceived false)).answerAmendRecipe p = .refuse (s.withLink (s.linkReceived false)) r) :
    exec (.amendRecipe p) s = .next (s.refusedAs 0x21 r) :=
  exec_amendRecipe_of_effect (t := s.withLink (s.linkReceived false)) hs hfits hexists h rfl

theorem exec_retireRecipe_refused (hp : p.length = 2)
    (h : (s.withLink (s.linkReceived false)).answerRetireRecipe p = .refuse (s.withLink (s.linkReceived false)) r) :
    exec (.retireRecipe p) s = .next (s.refusedAs 0x22 r) :=
  exec_retireRecipe_of_effect (t := s.withLink (s.linkReceived false)) hs hp h rfl

end

section
variable {s : State} {p : List Byte}

theorem State.answerAmendRecipe_badField (h : ¬ (recipeFields p).inRange = true) :
    s.answerAmendRecipe p = .refuse s .badField := by
  simp [State.answerAmendRecipe, h]

variable (hrange : (recipeFields p).inRange = true)
include hrange

theorem State.answerAmendRecipe_notFound (h : s.recipe? (recipeFields p).number = none) :
    s.answerAmendRecipe p = .refuse s .notFound := by
  simp [State.answerAmendRecipe, hrange, h]

/-- Past the first two checks the recipe's state and count decide. -/
theorem State.answerAmendRecipe_found {r : Recipe} (h : s.recipe? (recipeFields p).number = some r) :
    s.answerAmendRecipe p =
      if r.state = .retiring then .refuse s .wrongState
      else if 0 < r.count then .refuse s .inUse
      else .ok (s.modRecipe (recipeFields p).number (·.amend (recipeFields p))) (be16 (recipeFields p).number) := by
  simp [State.answerAmendRecipe, hrange, h]

end

/-- Settles O41. -/
theorem recipesInUseAreKept : Obligations.RecipesInUseAreKept := by
  refine ⟨?_, ?_⟩
  · intro p q v r s hs htables hlow hlen hv hrange hnumber hq hqr hrecipe
    subst hv
    let u := s.withLink (s.linkReceived false)
    have hrn := (RecipeFields.inRange_iff _).mp hrange
    have hp : p.length ≤ 249 := by
      have hcount : (recipeFields p).entries.length = fieldAt p 5 1 := by
        have hlength (k : Nat) (bs : List Byte) : (recipeEntries k bs).length = k := by
          induction k generalizing bs with
          | zero => rfl
          | succ k ih => simp [recipeEntries, ih]
        exact hlength _ _
      omega
    have hexists := (frameExists_iff p).mpr hp
    have hfits := (fitsRecipe_iff p).mpr ⟨hlow, hlen⟩
    have hfound : u.recipe? (recipeFields p).number = some r := by rw [hnumber]; exact hrecipe
    have hamend := State.answerAmendRecipe_found hrange hfound
    have hmem := State.recipe?_mem hrecipe
    have hretire : u.answerRetireRecipe q = if r.state = .retiring then .refuse u .wrongState
        else .ok (u.retireRecipe r) (be16 r.number ++ byte1 r.retireOutcome ++ byte1 r.count) :=
      State.forRecipe_found (by omega) (by omega) (by rw [hqr]; exact hrecipe)
    refine ⟨fun hstate => ?_, fun hstate hcount => ?_, fun hstate hcount => ?_⟩
    · rw [if_pos hstate] at hamend hretire
      exact ⟨exec_amendRecipe_refused hs hfits hexists hamend, exec_retireRecipe_refused hs hq hretire⟩
    · have hne : r.state ≠ .retiring := by rw [hstate]; decide
      rw [if_neg hne, if_pos hcount] at hamend
      rw [if_neg hne, State.retireRecipe_inUse (by omega), Recipe.retireOutcome, if_neg (by omega)] at hretire
      refine ⟨exec_amendRecipe_refused hs hfits hexists hamend, _,
        exec_retireRecipe_of_effect hs hq hretire rfl, ?_, fun k hk => ?_, u.modRecipe_length _ _, rfl⟩
      · refine (u.modRecipe_recipe? r.number r.number (f := Recipe.retiringNow) fun _ => rfl).trans ?_
        rw [if_pos rfl, show u.recipe? r.number = some r from hrecipe]
        rfl
      · exact (u.modRecipe_recipe? r.number k (f := Recipe.retiringNow) fun _ => rfl).trans (if_neg hk)
    · have hne : r.state ≠ .retiring := by rw [hstate]; decide
      rw [if_neg hne, if_neg (by omega), hnumber] at hamend
      have hgone : u.retireRecipe r = u.withRecipes (s.recipes.filter fun x => x.number != r.number) := if_pos hcount
      rw [if_neg hne, hgone, Recipe.retireOutcome, if_pos hcount, hcount] at hretire
      refine ⟨⟨_, exec_amendRecipe_of_effect hs hfits hexists hamend rfl, ?_, fun k hk => ?_,
        u.modRecipe_length _ _, rfl⟩, _, exec_retireRecipe_of_effect hs hq hretire rfl, ?_, fun k hk => ?_,
        length_filter_number htables.recipeNumbers hmem, by rw [List.append_assoc]; rfl⟩
      · refine (u.modRecipe_recipe? r.number r.number (f := (·.amend (recipeFields p))) fun _ => rfl).trans ?_
        rw [if_pos rfl, show u.recipe? r.number = some r from hrecipe, Option.map_some, Recipe.amend, hstate, hcount]
      · exact (u.modRecipe_recipe? r.number k (f := (·.amend (recipeFields p))) fun _ => rfl).trans (if_neg hk)
      · exact (find?_filter_number s.recipes r.number r.number).trans (if_pos rfl)
      · exact (find?_filter_number s.recipes r.number k).trans (if_neg hk)
  · intro p q v inRange s hs hlow hlen hhigh hq hv hrange
    subst hv
    rw [← RecipeFields.inRange_iff] at hrange
    rw [hrange]
    have hexists := (frameExists_iff p).mpr hhigh
    have hfits := (fitsRecipe_iff p).mpr ⟨hlow, hlen⟩
    exact ⟨fun h => exec_amendRecipe_refused hs hfits hexists (State.answerAmendRecipe_badField h),
      fun h hnone => exec_amendRecipe_refused hs hfits hexists (State.answerAmendRecipe_notFound h hnone),
      fun h => exec_retireRecipe_refused hs hq (State.forRecipe_badField h),
      fun h1 h2 hnone => exec_retireRecipe_refused hs hq (State.forRecipe_notFound h1 h2 hnone)⟩

end Sys2Proof.Machine
end

section
/-! SUPPORT. The volume arithmetic over any run of samples (R64 to R72) and the meter factor curve (R67). -/

namespace Sys2Proof.Machine

/-! ## The carries (R64) -/

/-- The meter after one sample of a run, its pending pulses and temperature given. -/
def runMeter (c : MeterSettings) (period : Nat) (m : Meter) (x : Nat × Int) : Meter :=
  (sampleMeter c period x.2 { m with pending := x.1 }).meter

/-- A sum over a run of samples, each term read on the meter as it is before the sample. -/
def runSum (c : MeterSettings) (period : Nat) (f : Meter → Nat × Int → Nat) : Meter → List (Nat × Int) → Nat
  | _, [] => 0
  | m, x :: run => f m x + runSum c period f (runMeter c period m x) run

theorem foldl_runSum (c : MeterSettings) (period : Nat) (f : Meter → Nat × Int → Nat) (run : List (Nat × Int))
    (m : Meter) (k : Nat) :
    (run.foldl (fun (a : Meter × Nat) x => (runMeter c period a.1 x, a.2 + f a.1 x)) (m, k)).2 =
      k + runSum c period f m run := by
  induction run generalizing m k with
  | nil => rfl
  | cons x run ih => rw [List.foldl_cons, ih, runSum, Nat.add_assoc]

/-- A carry over a run: with each sample's quotient and carry those of a division by `d`, `d` times the sum of the
quotients and the last carry are the sum of the added amounts and the first carry, and the carry stays below `d`. -/
theorem runSum_carry (c : MeterSettings) (period d : Nat) (hd : 0 < d) (carry : Meter → Nat)
    (quotient added : Meter → Nat × Int → Nat)
    (hq : ∀ m x, quotient m x = (added m x + carry m) / d)
    (hc : ∀ m x, carry (runMeter c period m x) = (added m x + carry m) % d)
    (run : List (Nat × Int)) (m : Meter) (hm : carry m < d) :
    d * runSum c period quotient m run + carry (run.foldl (runMeter c period) m) =
        runSum c period added m run + carry m ∧
      carry (run.foldl (runMeter c period) m) < d := by
  induction run generalizing m with
  | nil => exact ⟨by simp [runSum], hm⟩
  | cons x run ih =>
    obtain ⟨hsum, hlt⟩ := ih (runMeter c period m x) (by rw [hc]; exact Nat.mod_lt _ hd)
    refine ⟨?_, hlt⟩
    have hdiv := Nat.div_add_mod (added m x + carry m) d
    rw [← hq, ← hc] at hdiv
    rw [List.foldl_cons, runSum, runSum, Nat.mul_add]
    omega

theorem runSum_mul (c : MeterSettings) (period k : Nat) (f : Meter → Nat × Int → Nat) (run : List (Nat × Int))
    (m : Meter) : runSum c period (fun m x => f m x * k) m run = k * runSum c period f m run := by
  induction run generalizing m with
  | nil => rfl
  | cons x run ih => rw [runSum, runSum, ih, Nat.mul_add, Nat.mul_comm]

/-- Settles O27, by the law of a carry for each of the three divisions. -/
theorem samplesLoseNothing : Obligations.SamplesLoseNothing := by
  intro c period run m hk hI hG hN sampled after sum indicated
  have hsum (f : Meter → Nat × Int → Nat) : sum f = runSum c period f m run :=
    (foldl_runSum c period f run m 0).trans (Nat.zero_add _)
  obtain ⟨sumI, ltI⟩ := runSum_carry c period c.kFactor hk Meter.carryI indicated
    (fun _ x => min x.1 2500 * 1000000) (fun _ _ => rfl) (fun _ _ => rfl) run m hI
  obtain ⟨sumG, ltG⟩ := runSum_carry c period 10000 (by decide) Meter.carryG (fun m x => (sampled m x).gross)
    (fun m x => indicated m x * c.factor (sampled m x).flow) (fun _ _ => rfl) (fun _ _ => rfl) run m hG
  obtain ⟨sumN, ltN⟩ := runSum_carry c period 1000000 (by decide) Meter.carryN (fun m x => (sampled m x).net)
    (fun m x => (sampled m x).gross * vcf c.alpha x.2) (fun _ _ => rfl) (fun _ _ => rfl) run m hN
  rw [runSum_mul] at sumI
  refine ⟨?_, ?_, ?_, ltI, ltG, ltN⟩
  · simp only [hsum]; exact sumI
  · simp only [hsum]; exact sumG
  · simp only [hsum]; exact sumN

/-! ## The meter factor (R67) -/

theorem roundAway_mul (k : Int) {d : Nat} (hd : 0 < d) : roundAway (k * d) d = k := by
  have hquot : (2 * (k.natAbs * d) + d) / (2 * d) = k.natAbs := by
    rw [show 2 * (k.natAbs * d) + d = d + k.natAbs * (2 * d) by ring, Nat.add_mul_div_right _ _ (by omega),
      Nat.div_eq_of_lt (by omega), Nat.zero_add]
  simp only [roundAway, Int.natAbs_mul, Int.natAbs_natCast, hquot]
  split
  · rename_i hneg
    have hk : k < 0 := by
      by_contra hk
      exact absurd (Int.mul_nonneg (not_lt.mp hk) (Int.natCast_nonneg d)) (not_le.mpr hneg)
    omega
  · rename_i hpos
    have hk : 0 ≤ k := by
      by_contra hk
      exact hpos (Int.mul_neg_of_neg_of_pos (not_le.mp hk) (by omega))
    omega

/-- Rounding away from zero is monotone. -/
theorem roundAway_mono {a b : Int} (h : a ≤ b) (d : Nat) : roundAway a d ≤ roundAway b d := by
  simp only [roundAway]
  have hdiv {x y : Nat} (hxy : x ≤ y) : (2 * x + d) / (2 * d) ≤ (2 * y + d) / (2 * d) :=
    Nat.div_le_div_right (by omega)
  split <;> split
  · have := hdiv (x := b.natAbs) (y := a.natAbs) (by omega)
    omega
  · have hb := Int.natCast_nonneg ((2 * b.natAbs + d) / (2 * d))
    have ha := Int.natCast_nonneg ((2 * a.natAbs + d) / (2 * d))
    omega
  · omega
  · have := hdiv (x := a.natAbs) (y := b.natAbs) (by omega)
    omega

section
variable {qa qb : Nat} (fa fb : Nat)

theorem segmentFactor_start (h : qa < qb) : segmentFactor qa fa qb fb qa = fa := by
  have hzero : roundAway 0 (qb - qa) = 0 := by simpa using roundAway_mul 0 (d := qb - qa) (by omega)
  rw [segmentFactor, sub_self, mul_zero, hzero]
  omega

/-- Between the two points of a segment the factor lies between theirs. -/
theorem segmentFactor_between {q : Nat} (h : qa < qb) (hlow : qa ≤ q) (hhigh : q ≤ qb) :
    min fa fb ≤ segmentFactor qa fa qb fb q ∧ segmentFactor qa fa qb fb q ≤ max fa fb := by
  have hd : 0 < qb - qa := by omega
  have hzero : roundAway 0 (qb - qa) = 0 := by simpa using roundAway_mul 0 hd
  have hfull := roundAway_mul ((fb : Int) - fa) hd
  have hk : (q : Int) - qa ≤ ((qb - qa : Nat) : Int) := by omega
  have hk0 : 0 ≤ (q : Int) - qa := by omega
  rw [segmentFactor]
  rcases Nat.le_total fa fb with hf | hf
  · have hf0 : 0 ≤ (fb : Int) - fa := by omega
    have h1 := roundAway_mono (Int.mul_nonneg hf0 hk0) (qb - qa)
    have h2 := roundAway_mono (Int.mul_le_mul_of_nonneg_left hk hf0) (qb - qa)
    omega
  · have hf0 : (fb : Int) - fa ≤ 0 := by omega
    have h1 := roundAway_mono (Int.mul_nonpos_of_nonpos_of_nonneg hf0 hk0) (qb - qa)
    have h2 := roundAway_mono (Int.mul_le_mul_of_nonpos_left hf0 hk) (qb - qa)
    omega

end

/-! A curve's factor on each of its segments, both ends included. -/

section
variable {c : MeterSettings} {q : Nat} (h1 : c.q1 < c.q2) (h2 : c.q2 < c.q3) (h3 : c.q3 < c.q4)

theorem MeterSettings.factor_low (h : q ≤ c.q1) : c.factor q = c.f1 := if_pos h

include h1 in
theorem MeterSettings.factor_first (hlow : c.q1 ≤ q) (hhigh : q < c.q2) :
    c.factor q = segmentFactor c.q1 c.f1 c.q2 c.f2 q := by
  rcases hlow.eq_or_lt with rfl | hlow
  · rw [factor_low le_rfl, segmentFactor_start _ _ h1]
  · rw [factor, if_neg (by omega), if_pos hhigh]

include h1 in
theorem MeterSettings.factor_second (hlow : c.q2 ≤ q) (hhigh : q < c.q3) :
    c.factor q = segmentFactor c.q2 c.f2 c.q3 c.f3 q := by
  rw [factor, if_neg (by omega), if_neg (by omega), if_pos hhigh]

include h1 h2 in
theorem MeterSettings.factor_third (hlow : c.q3 ≤ q) (hhigh : q < c.q4) :
    c.factor q = segmentFactor c.q3 c.f3 c.q4 c.f4 q := by
  rw [factor, if_neg (by omega), if_neg (by omega), if_neg (by omega), if_pos hhigh]

include h1 h2 h3 in
theorem MeterSettings.factor_high (h : c.q4 ≤ q) : c.factor q = c.f4 := by
  rw [factor, if_neg (by omega), if_neg (by omega), if_neg (by omega), if_neg (by omega)]

end

/-- Settles O28, segment by segment. -/
theorem factorStaysOnItsCurve : Obligations.FactorStaysOnItsCurve := by
  intro c q h1 h2 h3
  have at2 : c.factor c.q2 = c.f2 :=
    (MeterSettings.factor_second h1 le_rfl h2).trans (segmentFactor_start _ _ h2)
  have at3 : c.factor c.q3 = c.f3 :=
    (MeterSettings.factor_third h1 h2 le_rfl h3).trans (segmentFactor_start _ _ h3)
  have at4 : c.factor c.q4 = c.f4 := MeterSettings.factor_high h1 h2 h3 le_rfl
  refine ⟨MeterSettings.factor_low, at2, at3, MeterSettings.factor_high h1 h2 h3, fun hlow hhigh => ?_,
    fun hlow hhigh => ?_, fun hlow hhigh => ?_⟩
  · rcases hhigh.eq_or_lt with rfl | hhigh
    · rw [at2]; exact ⟨min_le_right _ _, le_max_right _ _⟩
    · rw [MeterSettings.factor_first h1 hlow hhigh]; exact segmentFactor_between _ _ h1 hlow hhigh.le
  · rcases hhigh.eq_or_lt with rfl | hhigh
    · rw [at3]; exact ⟨min_le_right _ _, le_max_right _ _⟩
    · rw [MeterSettings.factor_second h1 hlow hhigh]; exact segmentFactor_between _ _ h2 hlow hhigh.le
  · rcases hhigh.eq_or_lt with rfl | hhigh
    · rw [at4]; exact ⟨min_le_right _ _, le_max_right _ _⟩
    · rw [MeterSettings.factor_third h1 h2 hlow hhigh]; exact segmentFactor_between _ _ h3 hlow hhigh.le

end Sys2Proof.Machine
end

section
/-! SUPPORT. The load table under its updates (R1, R7): what an arm's active record, a record's number and an arm's
list give after `modActive` and `modLoad`, and that the other updates leave them. -/

namespace Sys2Proof.Machine

/-! ## Lists -/

/-- A search over changed members, where the change keeps what is searched for. -/
theorem find?_map_of_iff {α : Type} {p : α → Bool} {g : α → α} {l : List α} (h : ∀ x ∈ l, p (g x) = p x) :
    (l.map g).find? p = (l.find? p).map g := by
  induction l with
  | nil => rfl
  | cons x rest ih =>
    have hrest := ih fun y hy => h y (List.mem_cons_of_mem _ hy)
    rw [List.map_cons, List.find?_cons, List.find?_cons, h x List.mem_cons_self, hrest]
    cases p x <;> rfl

/-- With keys unlike, a key finds the member that carries it. -/
theorem find?_key {α : Type} {key : α → Nat} {l : List α} (hn : (l.map key).Nodup) {x : α} (hx : x ∈ l) :
    l.find? (fun y => key y == key x) = some x := by
  cases hfind : l.find? (fun y => key y == key x) with
  | none => exact absurd (List.find?_eq_none.mp hfind x hx) (by simp)
  | some y =>
    have hkey : key y = key x := by simpa using List.find?_some hfind
    rw [List.inj_on_of_nodup_map hn (List.mem_of_find?_eq_some hfind) hx hkey]

/-! ## The active record -/

section
variable {s t : State} {n m : ArmId} {l : Load}

theorem State.active_mem (h : s.active n = some l) : l ∈ s.loads := List.mem_of_find?_eq_some h

theorem State.active_arm (h : s.active n = some l) : l.arm = n := by
  have hl := List.find?_some h
  simp only [Bool.and_eq_true, beq_iff_eq] at hl
  exact hl.1

theorem State.active_isActive (h : s.active n = some l) : l.isActive = true := by
  have hl := List.find?_some h
  simp only [Bool.and_eq_true] at hl
  exact hl.2

theorem State.active_eq_find (s : State) (n : ArmId) : s.active n = (s.armList n).find? Load.isActive := by
  rw [State.active, State.armList, List.find?_filter]
  congr 1
  funext l
  rw [Bool.decide_and, Bool.decide_eq_true, Bool.decide_eq_true]

theorem State.active_of_armList (h : t.armList n = s.armList n) : t.active n = s.active n := by
  rw [State.active_eq_find, State.active_eq_find, h]

theorem State.phase_of_active (h : t.active n = s.active n) : t.phase n = s.phase n := by
  rw [State.phase, State.phase, h]

theorem State.phase_eq (h : s.active n = some l) : s.phase n = l.deliveringPhase := by
  rw [State.phase, h, Option.bind_some]

theorem State.phase_none (h : s.active n = none) : s.phase n = none := by
  rw [State.phase, h, Option.bind_none]

/-- An arm with a phase has a DELIVERING record in that phase. -/
theorem State.phase_eq_some {p : Phase} :
    s.phase n = some p ↔ ∃ l, s.active n = some l ∧ l.state = .delivering ∧ l.phase = some p := by
  simp only [State.phase, Option.bind_eq_some_iff, Load.deliveringPhase]
  refine exists_congr fun l => and_congr_right fun _ => ?_
  by_cases h : l.state = .delivering <;> simp [h]

theorem Load.deliveringPhase_delivering (h : l.state = .delivering) : l.deliveringPhase = l.phase := if_pos h

theorem Load.deliveringPhase_none (h : l.state ≠ .delivering) : l.deliveringPhase = none := if_neg h

theorem Load.delivering_of_phase {p : Phase} (h : l.deliveringPhase = some p) : l.state = .delivering ∧ l.phase = some p := by
  by_cases hs : l.state = .delivering
  · exact ⟨hs, (Load.deliveringPhase_delivering hs).symm.trans h⟩
  · rw [Load.deliveringPhase_none hs] at h
    cases h

theorem Load.isActive_iff : l.isActive = true ↔ l.state = .ready ∨ l.state = .delivering ∨ l.state = .held := by
  rw [Load.isActive]
  cases l.state <;> simp

end

/-! ## Updates of other fields -/

section
variable (s : State) (n m : ArmId)

@[simp] theorem State.withNow_active (x : Nat) : (s.withNow x).active m = s.active m := rfl
@[simp] theorem State.withLink_active (x : Link) : (s.withLink x).active m = s.active m := rfl
@[simp] theorem State.withQueue_active (x : List HeaderRequest) : (s.withQueue x).active m = s.active m := rfl
@[simp] theorem State.withButtons_active (x : ButtonLevels) : (s.withButtons x).active m = s.active m := rfl
@[simp] theorem State.withLevels_active (x : PermLevels) : (s.withLevels x).active m = s.active m := rfl
@[simp] theorem State.withRecipes_active (x : List Recipe) : (s.withRecipes x).active m = s.active m := rfl
@[simp] theorem State.withSettings_active (x : Settings) : (s.withSettings x).active m = s.active m := rfl
@[simp] theorem State.modArm_active (f : ArmSeq → ArmSeq) : (s.modArm n f).active m = s.active m := rfl
@[simp] theorem State.modRatio_active (f : Ratio → Ratio) : (s.modRatio n f).active m = s.active m := rfl
@[simp] theorem State.modResv_active (f : Reservation → Reservation) : (s.modResv n f).active m = s.active m := rfl
@[simp] theorem State.modAlarm_active (f : ArmAlarms → ArmAlarms) : (s.modAlarm n f).active m = s.active m := rfl
@[simp] theorem State.modInjector_active (i : InjId) (f : Injector → Injector) : (s.modInjector i f).active m = s.active m := rfl
@[simp] theorem State.modMeter_active (i : MeterId) (f : Meter → Meter) : (s.modMeter i f).active m = s.active m := rfl
@[simp] theorem State.setMeter_active (i : MeterId) (x : Meter) : (s.setMeter i x).active m = s.active m := rfl
@[simp] theorem State.withNow_phase (x : Nat) : (s.withNow x).phase m = s.phase m := rfl
@[simp] theorem State.withQueue_phase (x : List HeaderRequest) : (s.withQueue x).phase m = s.phase m := rfl
@[simp] theorem State.modArm_phase (f : ArmSeq → ArmSeq) : (s.modArm n f).phase m = s.phase m := rfl
@[simp] theorem State.modRatio_phase (f : Ratio → Ratio) : (s.modRatio n f).phase m = s.phase m := rfl
@[simp] theorem State.modResv_phase (f : Reservation → Reservation) : (s.modResv n f).phase m = s.phase m := rfl
@[simp] theorem State.modAlarm_phase (f : ArmAlarms → ArmAlarms) : (s.modAlarm n f).phase m = s.phase m := rfl
@[simp] theorem State.modInjector_phase (i : InjId) (f : Injector → Injector) : (s.modInjector i f).phase m = s.phase m := rfl

end

/-! ## `modActive` -/

section
variable {s : State} {n m : ArmId} {f : Load → Load}

theorem State.modActive_armList_ne (hf : ∀ l, (f l).arm = l.arm) (h : m ≠ n) :
    (s.modActive n f).armList m = s.armList m := by
  simp only [State.armList, State.modActive, State.withLoads_loads]
  rw [List.filter_map]
  have hpred : ((fun l : Load => l.arm == m) ∘ fun l => if (l.arm == n && l.isActive) = true then f l else l) =
      fun l => l.arm == m := by
    funext l
    simp only [Function.comp_apply, apply_ite Load.arm, hf, ite_self]
  rw [hpred]
  refine (List.map_congr_left fun l hl => ?_).trans (List.map_id _)
  have harm : l.arm = m := by simpa using (List.mem_filter.mp hl).2
  simp [harm, h]

/-- The arm's active record after a change that leaves it active. -/
theorem State.modActive_active_self (hf : ∀ l, (f l).arm = l.arm) (ha : ∀ l, l.isActive = true → (f l).isActive = true) :
    (s.modActive n f).active n = (s.active n).map f := by
  simp only [State.active, State.modActive, State.withLoads_loads]
  rw [find?_map_of_iff (g := fun l => if (l.arm == n && l.isActive) = true then f l else l) fun l _ => ?_]
  · cases h : s.loads.find? fun l => l.arm == n && l.isActive with
    | none => rfl
    | some l => rw [Option.map_some, Option.map_some, if_pos (List.find?_some h)]
  · split
    · rename_i h
      simp only [Bool.and_eq_true, beq_iff_eq] at h
      obtain ⟨harm, hactive⟩ := h
      simp [hf, harm, hactive, ha l hactive]
    · rfl

/-- The arm has no active record after a change that ends it. -/
theorem State.modActive_active_none (hf : ∀ l, (f l).isActive = false) : (s.modActive n f).active n = none := by
  simp only [State.active, State.modActive, State.withLoads_loads, List.find?_eq_none, List.mem_map]
  rintro _ ⟨l, -, rfl⟩
  split
  · simp [hf]
  · assumption

theorem State.modActive_load? (hf : ∀ l, (f l).number = l.number) (k : Nat) :
    (s.modActive n f).load? k = (s.load? k).map fun l => if l.arm == n && l.isActive then f l else l :=
  find?_map_of_iff fun l _ => by simp only [apply_ite Load.number, hf, ite_self]

/-- The active record by its number, the numbers being unlike. -/
theorem State.load?_of_active {l : Load} (hn : (s.loads.map (·.number)).Nodup) (h : s.active n = some l) :
    s.load? l.number = some l := find?_key hn (State.active_mem h)

end

/-! ## `modLoad` -/

section
variable {s : State} {k : Nat} {f : Load → Load}

theorem State.modLoad_load? (hf : ∀ l, (f l).number = l.number) (j : Nat) :
    (s.modLoad k f).load? j = if j = k then (s.load? j).map f else s.load? j := by
  have hmap := find?_map_of_iff (p := fun l : Load => l.number == j) (l := s.loads)
    (g := fun l => if (l.number == k) = true then f l else l) fun l _ => by
      simp only [apply_ite Load.number, hf, ite_self]
  refine Eq.trans hmap ?_
  rw [State.load?]
  cases h : s.loads.find? fun l => l.number == j with
  | none => simp
  | some l =>
    have hj : l.number = j := by simpa using List.find?_some h
    by_cases hk : j = k <;> simp [hj, hk]

theorem State.modLoad_armList (hf : ∀ l, (f l).arm = l.arm) (m : ArmId) :
    (s.modLoad k f).armList m = (s.armList m).map fun l => if l.number == k then f l else l := by
  simp only [State.armList, State.modLoad, State.withLoads_loads]
  rw [List.filter_map]
  congr 2
  funext l
  simp only [Function.comp_apply, apply_ite Load.arm, hf, ite_self]

/-- The active record after a change of the record of a number that leaves records as active as they are. -/
theorem State.modLoad_active (hf : ∀ l, (f l).arm = l.arm) (ha : ∀ l, (f l).isActive = l.isActive) (m : ArmId) :
    (s.modLoad k f).active m = (s.active m).map fun l => if l.number == k then f l else l :=
  find?_map_of_iff fun l _ => by
    simp only [apply_ite Load.arm, apply_ite Load.isActive, hf, ha, ite_self]

end

end Sys2Proof.Machine
end

section
/-! SUPPORT. What the phases, the arbiter and the injectors' issues leave: one relation, `Flows A`, for the operations
that move arms of the set `A` between phases. The operations that take an examination are stated for any relation the
examination may satisfy (`FlowRel`), so that one lemma serves both the examination itself and the operations that run
inside it with `id` (R136). -/

namespace Sys2Proof.Machine

/-! ## What stands in an entry, a record and a sequencer while the phases move -/

def AddEntry.core (e : AddEntry) : AddEntry := { e with due := 0, issued := 0 }

def Load.core (l : Load) : Load :=
  { l with phase := none, upgradePending := none, entries := l.entries.map AddEntry.core }

def ArmSeq.core (a : ArmSeq) : ArmSeq :=
  { a with gasTarget := 0, valve := .close, gasRun := none, ethRun := none, settle := .stopped }

theorem Load.core_entries (l : Load) {es : List AddEntry} (h : es.map AddEntry.core = l.entries.map AddEntry.core) :
    Load.core { l with entries := es } = l.core := by
  simp only [Load.core, h]

theorem Load.core_modEntry (l : Load) (i : InjId) {f : AddEntry → AddEntry} (hf : ∀ e, (f e).core = e.core) :
    (l.modEntry i f).core = l.core := by
  refine l.core_entries ?_
  rw [List.map_map]
  refine List.map_congr_left fun e _ => ?_
  simp only [Function.comp_apply, apply_ite AddEntry.core, hf, ite_self]

theorem Load.core_map_entries (l : Load) {f : AddEntry → AddEntry} (hf : ∀ e, (f e).core = e.core) :
    Load.core { l with entries := l.entries.map f } = l.core := by
  refine l.core_entries ?_
  rw [List.map_map]
  exact List.map_congr_left fun e _ => hf e

section
variable {l l' : Load} (h : l'.core = l.core)
include h

theorem Load.core_number : l'.number = l.number := show l'.core.number = l.core.number from congrArg Load.number h
theorem Load.core_arm : l'.arm = l.arm := show l'.core.arm = l.core.arm from congrArg Load.arm h
theorem Load.core_recipe : l'.recipe = l.recipe := show l'.core.recipe = l.core.recipe from congrArg Load.recipe h
theorem Load.core_state : l'.state = l.state := show l'.core.state = l.core.state from congrArg Load.state h
theorem Load.core_preset : l'.preset = l.preset := show l'.core.preset = l.core.preset from congrArg Load.preset h
theorem Load.core_abortTaken : l'.abortTaken = l.abortTaken := show l'.core.abortTaken = l.core.abortTaken from congrArg Load.abortTaken h
theorem Load.core_holdCount : l'.holdCount = l.holdCount := show l'.core.holdCount = l.core.holdCount from congrArg Load.holdCount h
theorem Load.core_lastCause : l'.lastCause = l.lastCause := show l'.core.lastCause = l.core.lastCause from congrArg Load.lastCause h
theorem Load.core_holdTimer : l'.holdTimer = l.holdTimer := show l'.core.holdTimer = l.core.holdTimer from congrArg Load.holdTimer h
theorem Load.core_gasGross : l'.gasGross = l.gasGross := show l'.core.gasGross = l.core.gasGross from congrArg Load.gasGross h
theorem Load.core_gasNet : l'.gasNet = l.gasNet := show l'.core.gasNet = l.core.gasNet from congrArg Load.gasNet h
theorem Load.core_ethGross : l'.ethGross = l.ethGross := show l'.core.ethGross = l.core.ethGross from congrArg Load.ethGross h
theorem Load.core_ethNet : l'.ethNet = l.ethNet := show l'.core.ethNet = l.core.ethNet from congrArg Load.ethNet h

end

/-! ## One arm left as it was -/

/-- The arm's list, its sequencer, ratio controller and reservation, and its requests are as they were. -/
structure SameAt (m : ArmId) (s t : State) : Prop where
  list : t.armList m = s.armList m
  arm : t.arm m = s.arm m
  ratio : t.ratio m = s.ratio m
  resv : t.resv m = s.resv m
  requests : t.queue.filter (·.arm == m) = s.queue.filter (·.arm == m)

theorem SameAt.refl (m : ArmId) (s : State) : SameAt m s s := ⟨rfl, rfl, rfl, rfl, rfl⟩

theorem SameAt.trans {m : ArmId} {s t u : State} (h : SameAt m s t) (k : SameAt m t u) : SameAt m s u :=
  ⟨k.list.trans h.list, k.arm.trans h.arm, k.ratio.trans h.ratio, k.resv.trans h.resv, k.requests.trans h.requests⟩

section
variable {m : ArmId} {s t : State} (h : SameAt m s t)
include h

theorem SameAt.active : t.active m = s.active m := State.active_of_armList h.list

theorem SameAt.phase : t.phase m = s.phase m := State.phase_of_active h.active

theorem SameAt.mem_queue {r : HeaderRequest} (hr : r.arm = m) : r ∈ t.queue ↔ r ∈ s.queue := by
  have hmem (q : List HeaderRequest) : r ∈ q.filter (·.arm == m) ↔ r ∈ q := by simp [hr]
  rw [← hmem, ← hmem s.queue, h.requests]

end

/-! ## The relation -/

structure Flows (A : ArmId → Prop) (s t : State) : Prop where
  keeps : Keeps s t
  meters : t.meters = s.meters
  alarms : t.alarms = s.alarms
  loads : t.loads.map Load.core = s.loads.map Load.core
  arms : ∀ m, (t.arm m).core = (s.arm m).core
  masks : ∀ i, (t.injector i).mask = (s.injector i).mask
  others : ∀ m, ¬ A m → SameAt m s t

section
variable {A B : ArmId → Prop} {s t u : State}

theorem Flows.refl (A : ArmId → Prop) (s : State) : Flows A s s :=
  ⟨.refl s, rfl, rfl, rfl, fun _ => rfl, fun _ => rfl, fun m _ => .refl m s⟩

theorem Flows.trans (h : Flows A s t) (k : Flows A t u) : Flows A s u :=
  ⟨h.keeps.trans k.keeps, k.meters.trans h.meters, k.alarms.trans h.alarms, k.loads.trans h.loads,
    fun m => (k.arms m).trans (h.arms m), fun i => (k.masks i).trans (h.masks i),
    fun m hm => (h.others m hm).trans (k.others m hm)⟩

theorem Flows.mono (hAB : ∀ m, A m → B m) (h : Flows A s t) : Flows B s t :=
  { h with others := fun m hm => h.others m fun ha => hm (hAB m ha) }

theorem Flows.foldl {α : Type} (op : State → α → State) (h : ∀ s a, Flows A s (op s a)) (s : State) (l : List α) :
    Flows A s (l.foldl op s) := by
  induction l generalizing s with
  | nil => exact .refl A s
  | cons a rest ih => exact (h s a).trans (ih (op s a))

theorem Flows.ite {c : Prop} [Decidable c] (h : Flows A s t) (k : Flows A s u) : Flows A s (if c then t else u) := by
  split
  · exact h
  · exact k

/-- The active record of an arm, but for what may move. -/
theorem Flows.active_map (h : Flows A s t) (n : ArmId) : (t.active n).map Load.core = (s.active n).map Load.core := by
  have hfind (u : State) : (u.active n).map Load.core =
      (u.loads.map Load.core).find? fun l => l.arm == n && l.isActive :=
    (find?_map_of_iff (g := Load.core) fun l _ => rfl).symm
  rw [hfind, hfind, h.loads]

theorem Flows.active_some (h : Flows A s t) {n : ArmId} {l : Load} (hl : s.active n = some l) :
    ∃ l', t.active n = some l' ∧ l'.core = l.core := by
  have hmap := h.active_map n
  rw [hl, Option.map_some] at hmap
  exact Option.map_eq_some_iff.mp hmap

theorem Flows.active_some_back (h : Flows A s t) {n : ArmId} {l' : Load} (hl : t.active n = some l') :
    ∃ l, s.active n = some l ∧ l'.core = l.core := by
  have hmap := h.active_map n
  rw [hl, Option.map_some] at hmap
  obtain ⟨l, hl, hcore⟩ := Option.map_eq_some_iff.mp hmap.symm
  exact ⟨l, hl, hcore.symm⟩

theorem Flows.load? (h : Flows A s t) (k : Nat) : (t.load? k).map Load.core = (s.load? k).map Load.core := by
  have hfind (u : State) : (u.load? k).map Load.core = (u.loads.map Load.core).find? fun l => l.number == k :=
    (find?_map_of_iff (g := Load.core) fun l _ => rfl).symm
  rw [hfind, hfind, h.loads]

/-- Every waiting request is of an arm in the set. -/
def Queued (A : ArmId → Prop) (s : State) : Prop := ∀ r ∈ s.queue, A r.arm

theorem Flows.queued (h : Flows A s t) (hs : Queued A s) : Queued A t := fun r hr => by
  by_contra hA
  exact hA (hs r (((h.others r.arm hA).mem_queue rfl).mp hr))

/-- As `Flows`, from a state whose waiting requests are of arms in the set. -/
def FlowsIn (A : ArmId → Prop) (s t : State) : Prop := Queued A s → Flows A s t

/-- A relation that chains and that the moves of arms in the set satisfy. -/
structure FlowRel (A : ArmId → Prop) (R : State → State → Prop) : Prop where
  trans : ∀ {s t u}, R s t → R t u → R s u
  of : ∀ {s t}, Flows A s t → R s t

theorem flows_flowRel (A : ArmId → Prop) : FlowRel A (Flows A) := ⟨Flows.trans, id⟩

theorem flowsIn_flowRel (A : ArmId → Prop) : FlowRel A (FlowsIn A) :=
  ⟨fun h k hs => (h hs).trans (k ((h hs).queued hs)), fun h _ => h⟩

end

/-! ## Updates of one arm, one injector, the record and the queue -/

section
variable (s : State) (n : ArmId)

theorem State.modArm_flows {f : ArmSeq → ArmSeq} (hf : ∀ a, (f a).core = a.core) : Flows (· = n) s (s.modArm n f) where
  keeps := s.modArm_keeps n f
  meters := rfl
  alarms := rfl
  loads := rfl
  arms m := by
    rw [State.modArm_arm]
    split
    · rename_i h
      rw [h, hf]
    · rfl
  masks _ := rfl
  others m hm := ⟨rfl, by rw [State.modArm_arm, if_neg hm], rfl, rfl, rfl⟩

theorem State.modRatio_flows (f : Ratio → Ratio) : Flows (· = n) s (s.modRatio n f) where
  keeps := s.modRatio_keeps n f
  meters := rfl
  alarms := rfl
  loads := rfl
  arms _ := rfl
  masks _ := rfl
  others m hm := ⟨rfl, rfl, by rw [State.modRatio_ratio, if_neg hm], rfl, rfl⟩

theorem State.modResv_flows (f : Reservation → Reservation) : Flows (· = n) s (s.modResv n f) where
  keeps := s.modResv_keeps n f
  meters := rfl
  alarms := rfl
  loads := rfl
  arms _ := rfl
  masks _ := rfl
  others m hm := ⟨rfl, rfl, rfl, by rw [State.modResv_resv, if_neg hm], rfl⟩

theorem State.modInjector_flows (A : ArmId → Prop) (i : InjId) {f : Injector → Injector} (hf : ∀ j, (f j).mask = j.mask) :
    Flows A s (s.modInjector i f) where
  keeps := s.modInjector_keeps i f
  meters := rfl
  alarms := rfl
  loads := rfl
  arms _ := rfl
  masks k := by
    rw [State.modInjector_injector]
    split
    · rename_i h
      rw [h, hf]
    · rfl
  others m _ := ⟨rfl, rfl, rfl, rfl, rfl⟩

theorem State.modActive_flows {f : Load → Load} (hf : ∀ l, (f l).core = l.core) : Flows (· = n) s (s.modActive n f) where
  keeps := s.modActive_keeps n f fun l => by
    rw [Load.key, Load.key, Load.core_number (hf l), Load.core_arm (hf l), Load.core_recipe (hf l)]
  meters := rfl
  alarms := rfl
  loads := by
    simp only [State.modActive, State.withLoads_loads, List.map_map]
    refine List.map_congr_left fun l _ => ?_
    simp only [Function.comp_apply, apply_ite Load.core, hf, ite_self]
  arms _ := rfl
  masks _ := rfl
  others m hm := ⟨State.modActive_armList_ne (fun l => Load.core_arm (hf l)) hm, rfl, rfl, rfl, rfl⟩

theorem State.withQueue_flows {q : List HeaderRequest}
    (h : ∀ m, m ≠ n → q.filter (·.arm == m) = s.queue.filter (·.arm == m)) : Flows (· = n) s (s.withQueue q) where
  keeps := s.withQueue_keeps q
  meters := rfl
  alarms := rfl
  loads := rfl
  arms _ := rfl
  masks _ := rfl
  others m hm := ⟨rfl, rfl, rfl, rfl, h m hm⟩

/-! ## The arbiter's updates -/

theorem State.enqueue_flows (r : HeaderRequest) : Flows (· = r.arm) s (s.enqueue r) :=
  s.withQueue_flows r.arm fun m hm => by
    have hne : ¬ r.arm = m := fun h => hm h.symm
    simp [hne]

theorem State.withdraw_flows : Flows (· = n) s (s.withdraw n) :=
  s.withQueue_flows n fun m hm => by
    rw [List.filter_filter]
    refine List.filter_congr fun r _ => ?_
    by_cases h : r.arm = m <;> simp [h, hm]

/-- The head leaves the queue. -/
theorem State.tail_flows {s : State} {r : HeaderRequest} {rest : List HeaderRequest} (h : s.queue = r :: rest) :
    Flows (· = r.arm) s (s.withQueue rest) :=
  s.withQueue_flows r.arm fun m hm => by
    have hne : ¬ r.arm = m := fun h => hm h.symm
    simp [h, hne]

theorem State.requestUpgrade_flows (f : Nat) : Flows (· = n) s (s.requestUpgrade n f).1 := by
  simp only [State.requestUpgrade]
  split <;> dsimp only
  · exact s.modResv_flows n _
  · exact s.enqueue_flows ⟨n, .upgrade, _⟩

theorem State.grantReservation_flows (r : HeaderRequest) : Flows (· = r.arm) s (s.grantReservation r) := by
  unfold State.grantReservation
  cases r.kind
  · exact s.modResv_flows _ _
  · exact s.modResv_flows _ _

/-! ## The injectors' issues -/

theorem State.issueStroke_flows (l : Load) (i : InjId) : Flows (· = n) s (s.issueStroke n l i) :=
  (s.modActive_flows n fun l => by exact l.core_modEntry i fun _ => rfl).trans
    (State.modInjector_flows _ _ i fun _ => by rfl)

theorem State.tryIssue_flows (i : InjId) : Flows (· = n) s (s.tryIssue n i) := by
  unfold State.tryIssue
  split
  · exact .refl _ s
  · split
    · exact .refl _ s
    · exact .ite (s.issueStroke_flows n _ i) (.refl _ s)

theorem State.issueArm_flows : Flows (· = n) s (s.issueArm n) := by
  unfold State.issueArm
  split
  · exact .refl _ s
  · exact Flows.foldl _ (fun s _ => s.tryIssue_flows n _) s _

theorem State.setUpEndStrokes_flows : Flows (· = n) s (s.setUpEndStrokes n) := by
  unfold State.setUpEndStrokes
  split
  · exact .refl _ s
  · exact (Flows.foldl _ (fun s _ => s.modInjector_flows _ _ fun _ => by rfl) s _).trans
      (State.modActive_flows _ n fun l => by exact l.core_map_entries fun _ => rfl)

/-! ## Targets, setpoint and phases -/

theorem State.setSetpoint_flows : Flows (· = n) s (s.setSetpoint n) := by
  unfold State.setSetpoint
  split
  · exact .refl _ s
  · exact s.modRatio_flows n _

theorem State.retarget_flows : Flows (· = n) s (s.retarget n) := s.modArm_flows n fun _ => by rfl

theorem State.decideValve_flows : Flows (· = n) s (s.decideValve n) := s.modArm_flows n fun _ => by rfl

theorem State.setPhase_flows (p : Phase) (u : Option Bool) : Flows (· = n) s (s.setPhase n p u) :=
  s.modActive_flows n fun _ => by rfl

theorem State.enterHeaderWait_flows : Flows (· = n) s (s.enterHeaderWait n) :=
  ((s.setPhase_flows n _ _).trans (State.modArm_flows _ n fun _ => by rfl)).trans (State.modRatio_flows _ n _)

theorem State.enterHigh_flows : Flows (· = n) s (s.enterHigh n) :=
  (s.setPhase_flows n _ _).trans (State.retarget_flows _ n)

theorem State.taperReservation_flows : Flows (· = n) s (s.taperReservation n) :=
  (s.modResv_flows n _).trans (State.modRatio_flows _ n _)

theorem State.lowStartTest_flows : Flows (· = n) s (s.lowStartTest n) := by
  unfold State.lowStartTest
  split
  · exact .refl _ s
  · rename_i l _
    split
    · have hrequest := s.requestUpgrade_flows n (s.fraction l)
      split <;> rename_i h <;> rw [h] at hrequest
      · exact hrequest.trans (State.enterHigh_flows _ n)
      · exact hrequest.trans (State.setPhase_flows _ n _ _)
    · exact .refl _ s

end

/-! ## The moves of an entry before its examination -/

/-- The gas target recomputed, and the valve decided with it when that is asked for (R94, R96). -/
def State.aim (s : State) (n : ArmId) (atOnce : Bool) : State :=
  if atOnce then (s.retarget n).decideValve n else s.retarget n

/-- TAPER entered, the reservation dropped from HIGH (R90), before the head is examined. -/
def State.toTaper (s : State) (n : ArmId) (atOnce : Bool) : State :=
  (if s.phase n == some .high then (s.setPhase n .taper none).taperReservation n else s.setPhase n .taper none).aim n atOnce

/-- SETTLE entered with everything closed (R92), before the end strokes and the release. -/
def State.toSettle (s : State) (n : ArmId) : State :=
  ((s.setPhase n .settle none).modArm n fun a =>
    { a with
      valve := .close
      gasTarget := 0
      gasRun := none
      ethRun := none
      settle := .running (s.now + 1000 * (s.armCfg n).settle) }).modRatio n fun _ =>
    { setpoint := 0, devRun := none, finishTimer := none }

/-- The end strokes of an entry to SETTLE with abort taken no (R156). -/
def State.toEndStrokes (s : State) (n : ArmId) : State :=
  if (s.active n).bind (·.abortTaken) = some false then ((s.toSettle n).setUpEndStrokes n).issueArm n else s.toSettle n

/-- FINISH entered with the gas closed (R91), before the ethanol is judged. -/
def State.toFinish (s : State) (n : ArmId) : State :=
  ((s.setPhase n .finish none).modArm n fun a =>
    { a with valve := .close, gasTarget := 0, gasRun := none, ethRun := none }).modRatio n fun r =>
    { r with devRun := none, finishTimer := some (s.now + 1000 * (s.armCfg n).finishTimeout) }

/-- LOW entered with the gas valve opened (R88), before the entry evaluation. -/
def State.toLow (s : State) (n : ArmId) : State :=
  (((s.setPhase n .low (some false)).modArm n fun a => { a with valve := .openFurther }).retarget n).issueArm n

section
variable (ex : State → State) (s : State) (n : ArmId)

theorem State.enterTaper_eq (atOnce : Bool) : s.enterTaper ex atOnce n =
    if s.phase n == some .high then ex (s.toTaper n atOnce) else (s.toTaper n atOnce).withdrawThen ex n := rfl

theorem State.enterSettle_eq : s.enterSettle ex n = (s.toEndStrokes n).releaseThen ex n := rfl

theorem State.enterFinish_eq (inSample : Bool) : s.enterFinish ex inSample n =
    if ((s.active n).map s.fraction).getD 0 = 0 || (!inSample && (s.toFinish n).closePasses n)
      then (s.toFinish n).enterSettle ex n else s.toFinish n := rfl

theorem State.enterLow_eq : s.enterLow ex n =
    if flowingPhase (((s.toLow n).compareTests ex false n).phase n)
      then ((s.toLow n).compareTests ex false n).setSetpoint n else (s.toLow n).compareTests ex false n := rfl

theorem State.toTaper_flows (atOnce : Bool) : Flows (· = n) s (s.toTaper n atOnce) := by
  have hphase := s.setPhase_flows n .taper none
  have hresv := Flows.ite (c := (s.phase n == some .high) = true)
    (hphase.trans (State.taperReservation_flows _ n)) hphase
  have htarget := hresv.trans (State.retarget_flows _ n)
  exact .ite (htarget.trans (State.decideValve_flows _ n)) htarget

theorem State.toSettle_flows : Flows (· = n) s (s.toSettle n) :=
  ((s.setPhase_flows n .settle none).trans (State.modArm_flows _ n fun _ => by rfl)).trans (State.modRatio_flows _ n _)

theorem State.toEndStrokes_flows : Flows (· = n) s (s.toEndStrokes n) := by
  have hclosed := s.toSettle_flows n
  exact .ite (hclosed.trans ((State.setUpEndStrokes_flows _ n).trans (State.issueArm_flows _ n))) hclosed

theorem State.toFinish_flows : Flows (· = n) s (s.toFinish n) :=
  ((s.setPhase_flows n .finish none).trans (State.modArm_flows _ n fun _ => by rfl)).trans (State.modRatio_flows _ n _)

theorem State.toLow_flows : Flows (· = n) s (s.toLow n) :=
  (((s.setPhase_flows n .low (some false)).trans (State.modArm_flows _ n fun _ => by rfl)).trans
    (State.retarget_flows _ n)).trans (State.issueArm_flows _ n)

end

/-! ## Operations with an examination -/

section
variable {A : ArmId → Prop} {R : State → State → Prop} (hR : FlowRel A R) {n : ArmId} (hn : A n)
include hR hn

/-- An operation on an arm of the set. -/
theorem FlowRel.at {s t : State} (h : Flows (· = n) s t) : R s t := hR.of (h.mono fun _ hm => by rw [hm]; exact hn)

variable {ex : State → State} (he : ∀ s, R s (ex s)) (s : State)
include he

theorem State.withdrawThen_flows : R s (s.withdrawThen ex n) := by
  have hwithdraw := hR.at hn (s.withdraw_flows n)
  unfold State.withdrawThen
  split
  · exact hR.trans hwithdraw (he _)
  · exact hwithdraw

theorem State.releaseThen_flows : R s (s.releaseThen ex n) := by
  have hrelease := hR.at hn ((s.withdraw_flows n).trans
    (State.modResv_flows _ n fun r => { r with level := .none, amount := 0 }))
  unfold State.releaseThen
  split
  · exact hR.trans hrelease (he _)
  · exact hrelease

theorem State.enterTaper_flows (atOnce : Bool) : R s (s.enterTaper ex atOnce n) := by
  have hmoved := hR.at hn (s.toTaper_flows n atOnce)
  rw [State.enterTaper_eq]
  split
  · exact hR.trans hmoved (he _)
  · exact hR.trans hmoved (State.withdrawThen_flows hR hn he _)

theorem State.enterSettle_flows : R s (s.enterSettle ex n) := by
  rw [State.enterSettle_eq]
  exact hR.trans (hR.at hn (s.toEndStrokes_flows n)) (State.releaseThen_flows hR hn he _)

theorem State.enterFinish_flows (inSample : Bool) : R s (s.enterFinish ex inSample n) := by
  have hclosed := hR.at hn (s.toFinish_flows n)
  rw [State.enterFinish_eq]
  split
  · exact hR.trans hclosed (State.enterSettle_flows hR hn he _)
  · exact hclosed

theorem State.taperTest_flows (inSample : Bool) : R s (s.taperTest ex inSample n) := by
  unfold State.taperTest
  split
  · exact hR.of (.refl _ s)
  · split
    · exact State.enterTaper_flows hR hn he s _
    · exact hR.of (.refl _ s)

theorem State.finishTest_flows (inSample : Bool) : R s (s.finishTest ex inSample n) := by
  unfold State.finishTest
  split
  · exact hR.of (.refl _ s)
  · split
    · dsimp only
      split
      · exact State.enterFinish_flows hR hn he s _
      · exact hR.trans (State.enterTaper_flows hR hn he s _) (State.enterFinish_flows hR hn he _ _)
    · exact hR.of (.refl _ s)

theorem State.compareTests_flows (inSample : Bool) : R s (s.compareTests ex inSample n) :=
  hR.trans (hR.trans (State.taperTest_flows hR hn he s _) (hR.at hn (State.lowStartTest_flows _ n)))
    (State.finishTest_flows hR hn he _ _)

theorem State.enterLow_flows : R s (s.enterLow ex n) := by
  have htests := hR.trans (hR.at hn (s.toLow_flows n)) (State.compareTests_flows hR hn he _ false)
  rw [State.enterLow_eq]
  split
  · exact hR.trans htests (hR.at hn (State.setSetpoint_flows _ n))
  · exact htests

end

/-! ## The examination -/

theorem State.grant_flows {s : State} {r : HeaderRequest} {rest : List HeaderRequest} (h : s.queue = r :: rest) :
    Flows (· = r.arm) s (s.grant r rest) := by
  have hgrant := (State.tail_flows h).trans (State.grantReservation_flows _ r)
  unfold State.grant
  split
  · exact hgrant.trans (State.enterLow_flows (flows_flowRel (· = r.arm)) rfl (fun s => .refl _ s) _)
  · exact hgrant.trans (State.enterHigh_flows _ _)

theorem State.examineUpTo_flows (A : ArmId → Prop) (k : Nat) (s : State) : FlowsIn A s (s.examineUpTo k) := by
  induction k generalizing s with
  | zero => exact fun _ => .refl A s
  | succ k ih =>
    intro hs
    unfold State.examineUpTo
    split
    · exact .refl A s
    · rename_i r rest hq
      split
      · have hr : A r.arm := hs r (by rw [hq]; exact List.mem_cons_self)
        have hgrant := (flows_flowRel A).at hr (State.grant_flows hq)
        exact hgrant.trans (ih _ (hgrant.queued hs))
      · exact .refl A s

theorem State.examine_flows (A : ArmId → Prop) (s : State) : FlowsIn A s s.examine := State.examineUpTo_flows A _ s

/-- An arm without a waiting request is as it was after an examination. -/
theorem State.examine_sameAt {s : State} {n : ArmId} (h : ∀ r ∈ s.queue, r.arm ≠ n) : SameAt n s s.examine :=
  (s.examine_flows (· ≠ n) h).others n (not_not.mpr rfl)

/-- The examination moves no arm out of reach: it is a move of the whole station. -/
theorem State.examine_flowsAll (s : State) : Flows (fun _ => True) s s.examine :=
  s.examine_flows _ fun _ _ => trivial

end Sys2Proof.Machine
end

section
/-! SUPPORT. The invariant of the flow, arm by arm. `ArmOk` is what one arm meets, `Others` what holds beside one arm,
`Inv` both; each is stated with the header's part (`H`) and the waiting head (`W`) as parameters, since the operations
of an examination run before its head waits again, and with the recipes `P` each arm is permitted to flow on. -/

namespace Sys2Proof.Machine

/-! ## Operations beside an arm -/

/-- An operation on arm `n` leaves the other arms and their alarms. -/
structure Aside (n : ArmId) (s t : State) : Prop where
  keeps : Keeps s t
  others : ∀ m, m ≠ n → SameAt m s t
  alarms : ∀ m, m ≠ n → t.alarm m = s.alarm m

section
variable {n : ArmId} {s t u : State}

theorem Aside.refl (n : ArmId) (s : State) : Aside n s s := ⟨.refl s, fun m _ => .refl m s, fun _ _ => rfl⟩

theorem Aside.trans (h : Aside n s t) (k : Aside n t u) : Aside n s u :=
  ⟨h.keeps.trans k.keeps, fun m hm => (h.others m hm).trans (k.others m hm),
    fun m hm => (k.alarms m hm).trans (h.alarms m hm)⟩

theorem Aside.ite {c : Prop} [Decidable c] (h : Aside n s t) (k : Aside n s u) : Aside n s (if c then t else u) := by
  split
  · exact h
  · exact k

theorem Flows.alarm {A : ArmId → Prop} (h : Flows A s t) (m : ArmId) : t.alarm m = s.alarm m := by
  rw [State.alarm, State.alarm, h.alarms]

theorem Flows.aside (h : Flows (· = n) s t) : Aside n s t := ⟨h.keeps, h.others, fun m _ => h.alarm m⟩

theorem State.modActive_aside (s : State) (n : ArmId) {f : Load → Load} (hf : ∀ l, (f l).key = l.key) :
    Aside n s (s.modActive n f) :=
  ⟨s.modActive_keeps n f hf,
    fun _ hm => ⟨State.modActive_armList_ne (fun l => congrArg (fun k => k.2.1) (hf l)) hm, rfl, rfl, rfl, rfl⟩,
    fun _ _ => rfl⟩

theorem State.modArm_aside (s : State) (n : ArmId) (f : ArmSeq → ArmSeq) : Aside n s (s.modArm n f) :=
  ⟨s.modArm_keeps n f, fun m hm => ⟨rfl, by rw [State.modArm_arm, if_neg hm], rfl, rfl, rfl⟩, fun _ _ => rfl⟩

theorem State.modAlarm_aside (s : State) (n : ArmId) (f : ArmAlarms → ArmAlarms) : Aside n s (s.modAlarm n f) :=
  ⟨s.modAlarm_keeps n f, fun _ _ => ⟨rfl, rfl, rfl, rfl, rfl⟩, fun m hm => by rw [State.modAlarm_alarm, if_neg hm]⟩

theorem State.modMeter_aside (s : State) (n : ArmId) (i : MeterId) (f : Meter → Meter) : Aside n s (s.modMeter i f) :=
  ⟨s.modMeter_keeps i f, fun _ _ => ⟨rfl, rfl, rfl, rfl, rfl⟩, fun _ _ => rfl⟩

theorem Aside.foldl {α : Type} (op : State → α → State) (h : ∀ s a, Aside n s (op s a)) (s : State) (l : List α) :
    Aside n s (l.foldl op s) := by
  induction l generalizing s with
  | nil => exact .refl n s
  | cons a rest ih => exact (h s a).trans (ih (op s a))

end

/-! ## Operations on the injectors alone -/

/-- Only the injectors are changed. -/
def OnlyInjectors (s t : State) : Prop := t = { s with injectors := t.injectors }

theorem OnlyInjectors.refl (s : State) : OnlyInjectors s s := rfl

theorem OnlyInjectors.trans {s t u : State} (h : OnlyInjectors s t) (k : OnlyInjectors t u) : OnlyInjectors s u := by
  rw [OnlyInjectors] at *
  rw [h] at k
  exact k

theorem OnlyInjectors.foldl {α : Type} (op : State → α → State) (h : ∀ s a, OnlyInjectors s (op s a)) (s : State)
    (l : List α) : OnlyInjectors s (l.foldl op s) := by
  induction l generalizing s with
  | nil => rfl
  | cons a rest ih => exact (h s a).trans (ih (op s a))

theorem State.modInjector_onlyInjectors (s : State) (i : InjId) (f : Injector → Injector) :
    OnlyInjectors s (s.modInjector i f) := rfl

theorem State.maskArm_onlyInjectors (s : State) (n : ArmId) (on : Bool) : OnlyInjectors s (s.maskArm n on) :=
  OnlyInjectors.foldl _ (fun s i => by
    split
    · exact s.modInjector_onlyInjectors i _
    · exact .refl s) s _

section
variable {s t : State} (h : OnlyInjectors s t)
include h

theorem OnlyInjectors.loads : t.loads = s.loads := by rw [h]
theorem OnlyInjectors.active (n : ArmId) : t.active n = s.active n := by rw [h]; rfl
theorem OnlyInjectors.phase (n : ArmId) : t.phase n = s.phase n := State.phase_of_active (h.active n)
theorem OnlyInjectors.arm (n : ArmId) : t.arm n = s.arm n := by rw [h]; rfl
theorem OnlyInjectors.ratio (n : ArmId) : t.ratio n = s.ratio n := by rw [h]; rfl
theorem OnlyInjectors.resv (n : ArmId) : t.resv n = s.resv n := by rw [h]; rfl
theorem OnlyInjectors.queue : t.queue = s.queue := by rw [h]
theorem OnlyInjectors.alarms : t.alarms = s.alarms := by rw [h]
theorem OnlyInjectors.reservations : t.reservations = s.reservations := by rw [h]

theorem OnlyInjectors.keeps : Keeps s t := by
  rw [h]
  exact ⟨rfl, rfl, rfl, rfl, rfl, rfl, rfl, rfl, rfl, rfl, rfl, rfl, rfl⟩

theorem OnlyInjectors.aside (n : ArmId) : Aside n s t := by
  rw [h]
  exact ⟨⟨rfl, rfl, rfl, rfl, rfl, rfl, rfl, rfl, rfl, rfl, rfl, rfl, rfl⟩, fun _ _ => ⟨rfl, rfl, rfl, rfl, rfl⟩,
    fun _ _ => rfl⟩

end

/-! ## Issues: entries and injectors alone -/

/-- A record but for the strokes due and issued of its entries. -/
def Load.still (l : Load) : Load := { l with entries := l.entries.map AddEntry.core }

/-- Only the injectors and the strokes due and issued of entries are changed. -/
structure Issues (s t : State) : Prop where
  rest : t = { s with loads := t.loads, injectors := t.injectors }
  loads : t.loads.map Load.still = s.loads.map Load.still

theorem Issues.refl (s : State) : Issues s s := ⟨rfl, rfl⟩

theorem Issues.trans {s t u : State} (h : Issues s t) (k : Issues t u) : Issues s u := by
  refine ⟨?_, k.loads.trans h.loads⟩
  have hk := k.rest
  rw [h.rest] at hk
  exact hk

theorem Issues.foldl {α : Type} (op : State → α → State) (h : ∀ s a, Issues s (op s a)) (s : State) (l : List α) :
    Issues s (l.foldl op s) := by
  induction l generalizing s with
  | nil => exact .refl s
  | cons a rest ih => exact (h s a).trans (ih (op s a))

theorem OnlyInjectors.issues {s t : State} (h : OnlyInjectors s t) : Issues s t := by
  rw [h]
  exact ⟨rfl, rfl⟩

theorem State.modActive_issues (s : State) (n : ArmId) {f : Load → Load} (hf : ∀ l, (f l).still = l.still) :
    Issues s (s.modActive n f) := by
  refine ⟨rfl, ?_⟩
  simp only [State.modActive, State.withLoads_loads, List.map_map]
  refine List.map_congr_left fun l _ => ?_
  simp only [Function.comp_apply, apply_ite Load.still, hf, ite_self]

theorem Load.still_entries (l : Load) {es : List AddEntry} (h : es.map AddEntry.core = l.entries.map AddEntry.core) :
    Load.still { l with entries := es } = l.still := by
  simp only [Load.still, h]

theorem Load.still_map_entries (l : Load) {f : AddEntry → AddEntry} (hf : ∀ e, (f e).core = e.core) :
    Load.still { l with entries := l.entries.map f } = l.still := by
  refine l.still_entries ?_
  rw [List.map_map]
  exact List.map_congr_left fun e _ => hf e

theorem Load.still_modEntry (l : Load) (i : InjId) {f : AddEntry → AddEntry} (hf : ∀ e, (f e).core = e.core) :
    (l.modEntry i f).still = l.still :=
  l.still_map_entries fun e => by
    split
    · exact hf e
    · rfl

section
variable (s : State) (n : ArmId)

theorem State.issueStroke_issues (l : Load) (i : InjId) : Issues s (s.issueStroke n l i) :=
  (s.modActive_issues n fun l => by exact l.still_modEntry i fun _ => rfl).trans
    (State.modInjector_onlyInjectors _ i _).issues

theorem State.tryIssue_issues (i : InjId) : Issues s (s.tryIssue n i) := by
  unfold State.tryIssue
  split
  · exact .refl s
  · split
    · exact .refl s
    · split
      · exact s.issueStroke_issues n _ i
      · exact .refl s

theorem State.issueArm_issues : Issues s (s.issueArm n) := by
  unfold State.issueArm
  split
  · exact .refl s
  · exact Issues.foldl _ (fun s _ => s.tryIssue_issues n _) s _

theorem State.setUpEndStrokes_issues : Issues s (s.setUpEndStrokes n) := by
  unfold State.setUpEndStrokes
  split
  · exact .refl s
  · exact (OnlyInjectors.foldl _ (fun s _ => s.modInjector_onlyInjectors _ _) s _).issues.trans
      (State.modActive_issues _ n fun l => by exact l.still_map_entries fun _ => rfl)

theorem State.toEndStrokes_issues : Issues (s.toSettle n) (s.toEndStrokes n) := by
  unfold State.toEndStrokes
  split
  · exact (State.setUpEndStrokes_issues _ n).trans (State.issueArm_issues _ n)
  · exact .refl _

end

section
variable {l l' : Load} (h : l'.still = l.still)
include h

theorem Load.core_of_still : l'.core = l.core := by
  have hcore (x : Load) : x.still.core = x.core :=
    x.core_entries ((List.map_map ..).trans (List.map_congr_left fun _ _ => rfl))
  rw [← hcore, ← hcore l, h]

end

section
variable {s t : State} (h : Issues s t)
include h

theorem Issues.arm (n : ArmId) : t.arm n = s.arm n := by rw [h.rest]; rfl
theorem Issues.ratio (n : ArmId) : t.ratio n = s.ratio n := by rw [h.rest]; rfl
theorem Issues.resv (n : ArmId) : t.resv n = s.resv n := by rw [h.rest]; rfl
theorem Issues.queue : t.queue = s.queue := by rw [h.rest]
theorem Issues.reservations : t.reservations = s.reservations := by rw [h.rest]
theorem Issues.alarms : t.alarms = s.alarms := by rw [h.rest]
theorem Issues.settings : t.settings = s.settings := by rw [h.rest]
theorem Issues.recipes : t.recipes = s.recipes := by rw [h.rest]

theorem Issues.active_map (n : ArmId) : (t.active n).map Load.still = (s.active n).map Load.still := by
  have hfind (u : State) : (u.active n).map Load.still =
      (u.loads.map Load.still).find? fun l => l.arm == n && l.isActive :=
    (find?_map_of_iff (g := Load.still) fun l _ => rfl).symm
  rw [hfind, hfind, h.loads]

theorem Issues.active_some {n : ArmId} {l : Load} (hl : s.active n = some l) :
    ∃ l', t.active n = some l' ∧ l'.still = l.still := by
  have hmap := h.active_map n
  rw [hl, Option.map_some] at hmap
  exact Option.map_eq_some_iff.mp hmap

theorem Issues.phase (n : ArmId) : t.phase n = s.phase n := by
  have hphase (u : State) : u.phase n = ((u.active n).map Load.still).bind Load.deliveringPhase := by
    rw [State.phase]
    cases u.active n <;> rfl
  rw [hphase, hphase, h.active_map]

end

/-! ## The sum of the amounts held (R130) -/

theorem sum_map_update {l : List ArmId} (hl : l.Nodup) {n : ArmId} (hn : n ∈ l) {f g : ArmId → Nat}
    (h : ∀ m, m ≠ n → g m = f m) : (l.map g).sum + f n = (l.map f).sum + g n := by
  induction l with
  | nil => cases hn
  | cons a rest ih =>
    obtain ⟨ha, hrest⟩ := List.nodup_cons.mp hl
    simp only [List.map_cons, List.sum_cons]
    by_cases hna : n = a
    · have hsame : rest.map g = rest.map f := List.map_congr_left fun m hm => h m fun he => ha (by rw [← hna, ← he]; exact hm)
      rw [hsame, hna]
      omega
    · have hmem : n ∈ rest := (List.mem_cons.mp hn).resolve_left hna
      have hih := ih hrest hmem
      have hg := h a fun he => hna he.symm
      omega

/-- The sum held after a change of one arm's amount. -/
theorem State.heldSum_update {s t : State} {n : ArmId} (h : ∀ m, m ≠ n → t.resv m = s.resv m) :
    t.heldSum + (s.resv n).amount = s.heldSum + (t.resv n).amount :=
  sum_map_update nodup_allArms (mem_allArms n) (f := fun m => (s.resv m).amount) (g := fun m => (t.resv m).amount)
    fun m hm => by rw [h m hm]

theorem State.heldSum_of_reservations {s t : State} (h : t.reservations = s.reservations) : t.heldSum = s.heldSum := by
  simp only [State.heldSum, State.resv, h]

end Sys2Proof.Machine
end

section
/-! SUPPORT. The flow's invariant and the examination (R130 to R138): the entries to phases, the compare tests and the
grants keep it, and an examination ends with a head that waits. -/

namespace Sys2Proof.Machine

/-! ## What an operation that keeps settings and recipes keeps -/

section
variable {s t : State} (h : Keeps s t)
include h

theorem Keeps.capacity : t.capacity = s.capacity := by rw [State.capacity, State.capacity, h.settings]
theorem Keeps.armCfg (n : ArmId) : t.armCfg n = s.armCfg n := by rw [State.armCfg, State.armCfg, h.settings]
theorem Keeps.injCfg (i : InjId) : t.injCfg i = s.injCfg i := by rw [State.injCfg, State.injCfg, h.settings]
theorem Keeps.classOf (k : AlarmKind) : t.classOf k = s.classOf k := by rw [State.classOf, State.classOf, h.settings]
theorem Keeps.recipe? (k : Nat) : t.recipe? k = s.recipe? k := by rw [State.recipe?, State.recipe?, h.recipes]
theorem Keeps.fraction (l : Load) : t.fraction l = s.fraction l := by rw [State.fraction, State.fraction, h.recipe?]
theorem Keeps.tolerance (l : Load) : t.tolerance l = s.tolerance l := by
  rw [State.tolerance, State.tolerance, h.recipe?]

theorem Keeps.latchedClass {n : ArmId} (ha : t.alarm n = s.alarm n) (c : AlarmClass) :
    t.latchedClass n c = s.latchedClass n c := by
  simp only [State.latchedClass, ha, State.classOf, h.settings]

end

/-! ## One arm -/

/-- An arm's reservation, setpoint and gas target (R94, R113, R131 to R138). -/
structure State.HeaderArm (s : State) (n : ArmId) : Prop where
  lowExact : (s.resv n).level = .low → (s.resv n).amount = (s.resv n).lowAmount
  highCovers : (s.resv n).level = .high → (s.resv n).lowAmount ≤ (s.resv n).amount
  noneHeld : (s.resv n).level = .none → (s.resv n).amount = 0
  held : (s.resv n).level ≠ .none ↔ blendingPhase (s.phase n) = true
  queuedLow : ∀ r ∈ s.queue, r.arm = n → r.kind = .low → r.amount = (s.resv n).lowAmount
  clamped : (s.ratio n).setpoint ≤ (s.resv n).amount
  target : (s.arm n).gasTarget = s.gasTargetFor n

/-- An arm's requests, permission to flow, valve and setpoint (R95, R111, R134, R166), and its part of the header. -/
structure State.ArmOk (s : State) (H : Prop) (P : ArmId → Nat → Prop) (n : ArmId) : Prop where
  requests : ∀ r ∈ s.queue, r.arm = n → s.requestFits r = true
  allowed : ∀ l, s.active n = some l → holdablePhase l.deliveringPhase = true →
    P n l.recipe ∧ s.latchedClass n .stop = false
  valve : (s.arm n).valve ≠ .close → flowingPhase (s.phase n) = true
  setpoint : 0 < (s.ratio n).setpoint → blendingPhase (s.phase n) = true
  header : H → s.HeaderArm n

section
variable {s t : State} {n : ArmId}

/-- The gas target is that of the record's phase and recipe and of the amount held. -/
theorem State.gasTargetFor_congr (hk : Keeps s t)
    (ha : (t.active n).map (fun l => (l.deliveringPhase, l.recipe)) = (s.active n).map fun l => (l.deliveringPhase, l.recipe))
    (hr : (t.resv n).amount = (s.resv n).amount) : t.gasTargetFor n = s.gasTargetFor n := by
  rw [State.gasTargetFor, State.gasTargetFor]
  cases hs : s.active n with
  | none =>
    cases ht : t.active n with
    | none => rfl
    | some l' => rw [hs, ht] at ha; cases ha
  | some l =>
    cases ht : t.active n with
    | none => rw [hs, ht] at ha; cases ha
    | some l' =>
      rw [hs, ht] at ha
      obtain ⟨hphase, hrecipe⟩ := Prod.mk.inj (Option.some.inj ha)
      have hf : t.fraction l' = s.fraction l := by
        rw [hk.fraction, State.fraction, State.fraction, hrecipe]
      simp only [hphase, hf, hr, hk.armCfg]

theorem State.gasTargetFor_closed (h : flowingPhase (s.phase n) = false) : s.gasTargetFor n = 0 := by
  rw [State.gasTargetFor]
  cases hs : s.active n with
  | none => rfl
  | some l =>
    rw [State.phase_eq hs] at h
    dsimp only
    split <;> rename_i hphase
    · rw [hphase] at h; cases h
    · rw [hphase] at h; cases h
    · rw [hphase] at h; cases h
    · rfl

theorem Issues.gasTargetFor (h : Issues s t) : t.gasTargetFor n = s.gasTargetFor n := by
  refine State.gasTargetFor_congr ?_ ?_ (by rw [h.resv])
  · refine ⟨?_, ?_, ?_, ?_, ?_, ?_, ?_, ?_, ?_, ?_, ?_, ?_, ?_⟩
    any_goals rw [h.rest]
    have hkeys (u : State) : u.loads.map Load.key = (u.loads.map Load.still).map Load.key := by
      rw [List.map_map]; rfl
    rw [hkeys, hkeys s, h.loads]
  · have hmap (u : State) : (u.active n).map (fun l => (l.deliveringPhase, l.recipe)) =
        ((u.active n).map Load.still).map fun l => (l.deliveringPhase, l.recipe) := by
      rw [Option.map_map]; rfl
    rw [hmap, hmap s, h.active_map]

variable {H : Prop} {P : ArmId → Nat → Prop}

theorem State.ArmOk.of_same (h : s.ArmOk H P n) (hk : Keeps s t) (ha : t.alarm n = s.alarm n) (hs : SameAt n s t) :
    t.ArmOk H P n where
  requests r hr hrn := by
    have hfits := h.requests r ((hs.mem_queue hrn).mp hr) hrn
    rw [State.requestFits, hrn] at hfits ⊢
    rw [hs.phase, hs.active]
    exact hfits
  allowed l hl hphase := by
    rw [hk.latchedClass ha]
    exact h.allowed l (hs.active ▸ hl) hphase
  valve hv := by
    rw [hs.phase]
    exact h.valve (by rw [← hs.arm]; exact hv)
  setpoint hp := by
    rw [hs.phase]
    exact h.setpoint (by rw [← hs.ratio]; exact hp)
  header hH := by
    have hh := h.header hH
    constructor
    · rw [hs.resv]; exact hh.lowExact
    · rw [hs.resv]; exact hh.highCovers
    · rw [hs.resv]; exact hh.noneHeld
    · rw [hs.resv, hs.phase]; exact hh.held
    · intro r hr hrn
      rw [hs.resv]
      exact hh.queuedLow r ((hs.mem_queue hrn).mp hr) hrn
    · rw [hs.resv, hs.ratio]; exact hh.clamped
    · rw [hs.arm, State.gasTargetFor_congr hk (by rw [hs.active]) (by rw [hs.resv])]
      exact hh.target

theorem State.holdable_of_flowing {p : Option Phase} (h : flowingPhase p = true) : holdablePhase p = true := by
  cases p with
  | none => cases h
  | some p =>
    cases p with
    | low | high | taper => rfl
    | headerWait | finish | settle => cases h

theorem State.blending_of_flowing {p : Option Phase} (h : flowingPhase p = true) : blendingPhase p = true := by
  cases p with
  | none => cases h
  | some p =>
    cases p with
    | low | high | taper => rfl
    | headerWait | finish | settle => cases h

/-- An arm at which nothing flows and no request waits. -/
theorem State.armOk_closed (hhold : holdablePhase (s.phase n) = false) (hblend : blendingPhase (s.phase n) = false)
    (hqueue : ∀ r ∈ s.queue, r.arm ≠ n) (hvalve : (s.arm n).valve = .close) (htarget : (s.arm n).gasTarget = 0)
    (hset : (s.ratio n).setpoint = 0) (hlevel : H → (s.resv n).level = .none ∧ (s.resv n).amount = 0) :
    s.ArmOk H P n where
  requests r hr hrn := absurd hrn (hqueue r hr)
  allowed l hl hphase := by
    rw [State.phase_eq hl] at hhold
    rw [hhold] at hphase
    cases hphase
  valve hv := absurd hvalve hv
  setpoint hp := absurd hset (by omega)
  header hH := by
    obtain ⟨hnone, hzero⟩ := hlevel hH
    refine ⟨?_, ?_, fun _ => hzero, ?_, fun r hr hrn => absurd hrn (hqueue r hr), by omega, ?_⟩
    · rw [hnone]; exact fun h => by cases h
    · rw [hnone]; exact fun h => by cases h
    · simp [hnone, hblend]
    · have hflow : flowingPhase (s.phase n) = false := by
        by_contra hf
        rw [State.blending_of_flowing (by simpa using hf)] at hblend
        cases hblend
      rw [htarget, State.gasTargetFor_closed hflow]

/-- An arm in LOW, HIGH, TAPER or FINISH without a waiting request. -/
theorem State.armOk_blending (hblend : blendingPhase (s.phase n) = true) (hqueue : ∀ r ∈ s.queue, r.arm ≠ n)
    (hallowed : ∀ l, s.active n = some l → holdablePhase l.deliveringPhase = true →
      P n l.recipe ∧ s.latchedClass n .stop = false)
    (hvalve : (s.arm n).valve ≠ .close → flowingPhase (s.phase n) = true)
    (hheader : H → (s.resv n).level ≠ .none ∧ ((s.resv n).level = .low → (s.resv n).amount = (s.resv n).lowAmount) ∧
      ((s.resv n).level = .high → (s.resv n).lowAmount ≤ (s.resv n).amount) ∧
      (s.ratio n).setpoint ≤ (s.resv n).amount ∧ (s.arm n).gasTarget = s.gasTargetFor n) :
    s.ArmOk H P n where
  requests r hr hrn := absurd hrn (hqueue r hr)
  allowed := hallowed
  valve := hvalve
  setpoint _ := hblend
  header hH := by
    obtain ⟨hlevel, hlow, hhigh, hclamp, htarget⟩ := hheader hH
    exact ⟨hlow, hhigh, fun h => absurd h hlevel, ⟨fun _ => hblend, fun _ => hlevel⟩,
      fun r hr hrn => absurd hrn (hqueue r hr), hclamp, htarget⟩

/-- The amount held covers the low amount while the record blends. -/
theorem State.HeaderArm.covers (h : s.HeaderArm n) (hblend : blendingPhase (s.phase n) = true) :
    (s.resv n).lowAmount ≤ (s.resv n).amount := by
  cases hlevel : (s.resv n).level with
  | none => exact absurd hlevel (h.held.mpr hblend)
  | low => exact (h.lowExact hlevel).ge
  | high => exact h.highCovers hlevel

end

/-! ## The station -/

/-- The head of the queue asks for more than the free capacity (R135). -/
def State.headWaits (s : State) : Prop := ∀ r ∈ s.queue.head?, 0 < s.capacity ∧ s.capacity < s.heldSum + r.amount

/-- What holds beside an arm in the middle of an operation on it. -/
structure State.Others (s : State) (H W : Prop) (P : ArmId → Nat → Prop) (n : ArmId) : Prop where
  oneRequest : (s.queue.map (·.arm)).Nodup
  arms : ∀ m, m ≠ n → s.ArmOk H P m
  within : H → 0 < s.capacity → s.heldSum ≤ s.capacity
  waits : W → s.headWaits

structure State.Inv (s : State) (H W : Prop) (P : ArmId → Nat → Prop) : Prop where
  oneRequest : (s.queue.map (·.arm)).Nodup
  arms : ∀ m, s.ArmOk H P m
  within : H → 0 < s.capacity → s.heldSum ≤ s.capacity
  waits : W → s.headWaits

section
variable {s t : State} {H W : Prop} {P : ArmId → Nat → Prop} {n : ArmId}

theorem State.Inv.others (h : s.Inv H W P) (n : ArmId) : s.Others H W P n :=
  ⟨h.oneRequest, fun m _ => h.arms m, h.within, h.waits⟩

theorem State.Others.inv (h : s.Others H W P n) (hn : s.ArmOk H P n) : s.Inv H W P :=
  ⟨h.oneRequest, fun m => if hm : m = n then hm ▸ hn else h.arms m hm, h.within, h.waits⟩

theorem State.ArmOk.permit {Q : ArmId → Nat → Prop} (h : s.ArmOk H P n) (hPQ : ∀ k, P n k → Q n k) : s.ArmOk H Q n :=
  ⟨h.requests, fun l hl hphase => (h.allowed l hl hphase).imp_left (hPQ _), h.valve, h.setpoint, h.header⟩

/-- What holds beside an arm does not ask what that arm is permitted. -/
theorem State.Others.permit {Q : ArmId → Nat → Prop} (h : s.Others H W P n) (hPQ : ∀ m, m ≠ n → ∀ k, P m k → Q m k) :
    s.Others H W Q n :=
  ⟨h.oneRequest, fun m hm => (h.arms m hm).permit (hPQ m hm), h.within, h.waits⟩

theorem State.Inv.permit {Q : ArmId → Nat → Prop} (h : s.Inv H W P) (hPQ : ∀ m k, P m k → Q m k) : s.Inv H W Q :=
  ⟨h.oneRequest, fun m => (h.arms m).permit (hPQ m), h.within, h.waits⟩

theorem Aside.heldSum (h : Aside n s t) : t.heldSum + (s.resv n).amount = s.heldSum + (t.resv n).amount :=
  State.heldSum_update fun m hm => (h.others m hm).resv

/-- An operation on the arm that takes requests from the queue and frees capacity, if anything. -/
theorem State.Others.move {V : Prop} (h : s.Others H W P n) (ha : Aside n s t) (hq : t.queue.Sublist s.queue)
    (hr : H → (t.resv n).amount ≤ (s.resv n).amount) (hw : V → t.headWaits) : t.Others H V P n where
  oneRequest := h.oneRequest.sublist (hq.map _)
  arms m hm := (h.arms m hm).of_same ha.keeps (ha.alarms m hm) (ha.others m hm)
  within hH hc := by
    have hsum := ha.heldSum
    have hwithin := h.within hH (ha.keeps.capacity ▸ hc)
    have hfreed := hr hH
    rw [ha.keeps.capacity]
    omega
  waits := hw

/-- An operation on the arm that leaves the queue and the amount held. -/
theorem State.Others.stay (h : s.Others H W P n) (ha : Aside n s t) (hq : t.queue = s.queue)
    (hr : (t.resv n).amount = (s.resv n).amount) : t.Others H W P n :=
  h.move ha (hq ▸ .refl _) (fun _ => hr.le) fun hW r hhead => by
    have hsum := ha.heldSum
    have hwaits := h.waits hW r (hq ▸ hhead)
    rw [ha.keeps.capacity]
    omega

/-- No request of the arm waits when none that waits would fit it. -/
theorem State.Inv.notQueued (h : s.Inv H W P) (hfits : ∀ r, r.arm = n → s.requestFits r = false) :
    ∀ r ∈ s.queue, r.arm ≠ n := fun r hr hrn => by
  have hfit := (h.arms n).requests r hr hrn
  rw [hfits r hrn] at hfit
  cases hfit

/-- Only a record in HEADER_WAIT, or in LOW with its upgrade pending, has a request waiting. -/
theorem State.requestFits_false (hwait : s.phase n ≠ some .headerWait)
    (hlow : ∀ l, s.active n = some l → l.deliveringPhase = some .low → l.upgradePending ≠ some true) (r : HeaderRequest)
    (hr : r.arm = n) : s.requestFits r = false := by
  rw [State.requestFits, hr]
  cases r.kind with
  | low => simpa using hwait
  | upgrade =>
    cases hs : s.active n with
    | none => simp
    | some l =>
      rw [State.phase_eq hs]
      by_cases hphase : l.deliveringPhase = some .low
      · simp [hlow l hs hphase]
      · simp [hphase]

/-! ## Withdrawal and release (R138, R139) -/

/-- The arm's request withdrawn and its reservation given up (R138), before the examination. -/
def State.released (s : State) (n : ArmId) : State :=
  (s.withdraw n).modResv n fun r => { r with level := .none, amount := 0 }

theorem State.releaseThen_eq (ex : State → State) (s : State) (n : ArmId) :
    s.releaseThen ex n = if 0 < (s.resv n).amount || s.atHead n then ex (s.released n) else s.released n := rfl

theorem State.mem_withdraw {r : HeaderRequest} : r ∈ (s.withdraw n).queue ↔ r ∈ s.queue ∧ r.arm ≠ n := by
  simp [State.withdraw]

theorem State.withdraw_notQueued : ∀ r ∈ (s.withdraw n).queue, r.arm ≠ n := fun _ hr => (State.mem_withdraw.mp hr).2

theorem State.withdraw_sublist : (s.withdraw n).queue.Sublist s.queue := List.filter_sublist

/-- A withdrawal of a request that is not waiting changes nothing. -/
theorem State.withdraw_eq_self (h : ∀ r ∈ s.queue, r.arm ≠ n) : s.withdraw n = s := by
  have hq : s.queue.filter (fun r => r.arm != n) = s.queue := List.filter_eq_self.mpr fun r hr => by simpa using h r hr
  rw [State.withdraw, hq]
  rfl

/-- The head stays when the withdrawn request is not there. -/
theorem State.withdraw_head (h : s.atHead n = false) : (s.withdraw n).queue.head? = s.queue.head? := by
  rw [State.withdraw, State.withQueue_queue]
  rw [State.atHead] at h
  cases hq : s.queue with
  | nil => rfl
  | cons r rest =>
    rw [hq] at h
    have hr : (r.arm != n) = true := by simpa using h
    rw [List.filter_cons, if_pos hr]
    rfl

theorem State.released_active (s : State) (n m : ArmId) : (s.released n).active m = s.active m := rfl
theorem State.released_phase (s : State) (n m : ArmId) : (s.released n).phase m = s.phase m := rfl
theorem State.released_arm (s : State) (n m : ArmId) : (s.released n).arm m = s.arm m := rfl
theorem State.released_ratio (s : State) (n m : ArmId) : (s.released n).ratio m = s.ratio m := rfl
theorem State.released_notQueued (s : State) (n : ArmId) : ∀ r ∈ (s.released n).queue, r.arm ≠ n :=
  fun _ hr => (State.mem_withdraw.mp hr).2

theorem State.released_resv (s : State) (n : ArmId) :
    (s.released n).resv n = { s.resv n with level := .none, amount := 0 } := by
  rw [State.released, State.modResv_resv_self]
  rfl

theorem State.released_flows (s : State) (n : ArmId) : Flows (· = n) s (s.released n) :=
  (s.withdraw_flows n).trans (State.modResv_flows _ n _)

/-- What the operations may be run with as the examination: the examination, and `id` inside one. -/
structure Examines (H W : Prop) (P : ArmId → Nat → Prop) (ex : State → State) : Prop where
  inv : ∀ s : State, s.Inv H False P → (ex s).Inv H W P
  same : ∀ (s : State) (n : ArmId), (∀ r ∈ s.queue, r.arm ≠ n) → SameAt n s (ex s)

theorem examines_id (H : Prop) (P : ArmId → Nat → Prop) : Examines H False P id := ⟨fun _ h => h, fun s n _ => .refl n s⟩

/-- A release before its examination. -/
theorem State.Others.released (h : s.Others H W P n) (hn : (s.released n).ArmOk H P n) : (s.released n).Inv H False P := by
  have hzero : ((s.released n).resv n).amount = 0 := by rw [State.released_resv]
  exact (h.move (s.released_flows n).aside State.withdraw_sublist (fun _ => by omega) False.elim).inv hn

variable {ex : State → State} (hex : Examines H W P ex)
include hex

theorem State.Others.withdrawThen (h : s.Others H W P n) (hn : (s.withdraw n).ArmOk H P n) :
    (s.withdrawThen ex n).Inv H W P := by
  have ha := (s.withdraw_flows n).aside
  rw [State.withdrawThen]
  split
  · exact hex.inv _ ((h.move ha State.withdraw_sublist (fun _ => le_rfl) False.elim).inv hn)
  · rename_i hhead
    refine (h.move ha State.withdraw_sublist (fun _ => le_rfl) fun hW r hr => ?_).inv hn
    rw [State.withdraw_head (by simpa using hhead)] at hr
    exact h.waits hW r hr

theorem State.Others.releaseThen (h : s.Others H W P n) (hn : (s.released n).ArmOk H P n) :
    (s.releaseThen ex n).Inv H W P := by
  have ha := (s.released_flows n).aside
  have hzero : ((s.released n).resv n).amount = 0 := by rw [State.released_resv]
  rw [State.releaseThen_eq]
  split
  · exact hex.inv _ (h.released hn)
  · rename_i hkept
    simp only [Bool.or_eq_true, decide_eq_true_eq, not_or, Bool.not_eq_true] at hkept
    obtain ⟨hamount, hhead⟩ := hkept
    refine (h.move ha State.withdraw_sublist (fun _ => by omega) fun hW r hr => ?_).inv hn
    have hwaits := h.waits hW r ((State.withdraw_head hhead).symm ▸ hr)
    have hsum := ha.heldSum
    rw [ha.keeps.capacity]
    omega

end

end Sys2Proof.Machine
end

section
/-! SUPPORT. The entries to phases and the compare tests: what they leave at their arm, and that they keep the flow's
invariant (R86 to R92). -/

namespace Sys2Proof.Machine

section
variable (s : State) (n : ArmId)

@[simp] theorem State.modArm_gasTargetFor (m : ArmId) (f : ArmSeq → ArmSeq) :
    (s.modArm m f).gasTargetFor n = s.gasTargetFor n := rfl

@[simp] theorem State.modRatio_gasTargetFor (m : ArmId) (f : Ratio → Ratio) :
    (s.modRatio m f).gasTargetFor n = s.gasTargetFor n := rfl

theorem State.setPhase_active (p : Phase) (u : Option Bool) :
    (s.setPhase n p u).active n = (s.active n).map fun l => { l with phase := some p, upgradePending := u } :=
  State.modActive_active_self (fun _ => by rfl) fun _ h => h

variable {s n}

/-- The arm's active record is DELIVERING. -/
def State.Delivers (s : State) (n : ArmId) : Prop := ∃ l, s.active n = some l ∧ l.state = .delivering

theorem State.delivers_of_phase (h : (s.phase n).isSome = true) : s.Delivers n := by
  obtain ⟨p, hp⟩ := Option.isSome_iff_exists.mp h
  obtain ⟨l, hl, hstate, -⟩ := State.phase_eq_some.mp hp
  exact ⟨l, hl, hstate⟩

theorem State.setPhase_phase (h : s.Delivers n) (p : Phase) (u : Option Bool) :
    (s.setPhase n p u).phase n = some p := by
  obtain ⟨l, hl, hstate⟩ := h
  rw [State.phase, State.setPhase_active, hl, Option.map_some, Option.bind_some, Load.deliveringPhase]
  exact if_pos hstate

/-- The phase of an arm whose record was given one. -/
theorem State.phase_of_setPhase {t : State} {p : Phase} {u : Option Bool}
    (ht : t.active n = (s.active n).map fun l => { l with phase := some p, upgradePending := u })
    (h : s.Delivers n) : t.phase n = some p :=
  (State.phase_of_active (ht.trans (s.setPhase_active n p u).symm)).trans (State.setPhase_phase h p u)

/-! ## TAPER -/

variable (s n)

theorem State.aim_queue (b : Bool) : (s.aim n b).queue = s.queue := by rw [State.aim]; split <;> rfl
theorem State.aim_active (b : Bool) (m : ArmId) : (s.aim n b).active m = s.active m := by rw [State.aim]; split <;> rfl
theorem State.aim_resv (b : Bool) : (s.aim n b).resv n = s.resv n := by rw [State.aim]; split <;> rfl
theorem State.aim_ratio (b : Bool) : (s.aim n b).ratio n = s.ratio n := by rw [State.aim]; split <;> rfl
theorem State.aim_gasTargetFor (b : Bool) : (s.aim n b).gasTargetFor n = s.gasTargetFor n := by
  rw [State.aim]; split <;> rfl

theorem State.aim_arm (b : Bool) : (s.aim n b).arm n = { s.arm n with
    gasTarget := s.gasTargetFor n
    valve := if b then valveFor (s.arm n).qGas (s.gasTargetFor n) (s.armCfg n).deadband else (s.arm n).valve } := by
  rw [State.aim]
  split
  · rw [State.decideValve, State.modArm_arm_self, State.retarget, State.modArm_arm_self]
    rfl
  · rw [State.retarget, State.modArm_arm_self]

theorem State.toTaper_queue (b : Bool) : (s.toTaper n b).queue = s.queue := by
  rw [State.toTaper, State.aim_queue]
  split <;> rfl

theorem State.toTaper_active (b : Bool) :
    (s.toTaper n b).active n = (s.active n).map fun l => { l with phase := some .taper, upgradePending := none } := by
  rw [← s.setPhase_active n .taper none, State.toTaper, State.aim_active]
  split <;> rfl

theorem State.toTaper_resv (b : Bool) : (s.toTaper n b).resv n =
    if s.phase n = some .high then { s.resv n with level := .low, amount := (s.resv n).lowAmount } else s.resv n := by
  rw [State.toTaper, State.aim_resv]
  by_cases h : s.phase n = some .high
  · simp [h, State.taperReservation, State.dropToLow, State.setPhase, State.modActive]
  · simp [h, State.setPhase, State.modActive]

theorem State.toTaper_ratio (b : Bool) : (s.toTaper n b).ratio n =
    if s.phase n = some .high then { s.ratio n with setpoint := min (s.ratio n).setpoint (s.resv n).lowAmount }
    else s.ratio n := by
  rw [State.toTaper, State.aim_ratio]
  by_cases h : s.phase n = some .high
  · simp [h, State.taperReservation, State.dropToLow, State.setPhase, State.modActive]
  · simp [h, State.setPhase, State.modActive]

/-- The target is recomputed, and the valve decided at once outside a sample (R94, R96). -/
theorem State.toTaper_arm (b : Bool) : (s.toTaper n b).arm n = { s.arm n with
    gasTarget := (s.toTaper n b).gasTargetFor n
    valve := if b then valveFor (s.arm n).qGas ((s.toTaper n b).gasTargetFor n) (s.armCfg n).deadband
      else (s.arm n).valve } := by
  rw [State.toTaper, State.aim_arm, State.aim_gasTargetFor]
  by_cases h : (s.phase n == some .high) = true
  · simp only [if_pos h]; rfl
  · simp only [if_neg h]; rfl

end

section
variable {s t : State} {n : ArmId} {H W : Prop} {P : ArmId → Nat → Prop} {ex : State → State}

/-- A record that holds its permission keeps it wherever it moves. -/
theorem State.ArmOk.allowed_of_flows {A : ArmId → Prop} (h : s.ArmOk H P n) (hf : Flows A s t)
    (hphase : holdablePhase (s.phase n) = true) {l : Load} (hl : t.active n = some l) :
    P n l.recipe ∧ t.latchedClass n .stop = false := by
  obtain ⟨k, hk, hcore⟩ := hf.active_some_back hl
  rw [State.phase_eq hk] at hphase
  rw [Load.core_recipe hcore, hf.keeps.latchedClass (hf.alarm n)]
  exact h.allowed k hk hphase

/-- A record in HIGH, TAPER or a later phase has no request waiting, and one in LOW none but a pending upgrade. -/
theorem State.Inv.notQueued_of_phase (h : s.Inv H W P) (hwait : s.phase n ≠ some .headerWait) (hlow : s.phase n ≠ some .low) :
    ∀ r ∈ s.queue, r.arm ≠ n :=
  h.notQueued (State.requestFits_false hwait fun _ hl hphase => absurd ((State.phase_eq hl).trans hphase) hlow)

/-- What an entry to TAPER leaves at its arm, once its request is withdrawn. -/
theorem State.Inv.taperArm (h : s.Inv H W P) (hphase : s.phase n = some .low ∨ s.phase n = some .high) (b : Bool) :
    ((s.toTaper n b).withdraw n).ArmOk H P n := by
  have hold : holdablePhase (s.phase n) = true := by rcases hphase with h | h <;> rw [h] <;> rfl
  have hblend : blendingPhase (s.phase n) = true := by rcases hphase with h | h <;> rw [h] <;> rfl
  have hsome : (s.phase n).isSome = true := by rcases hphase with h | h <;> rw [h] <;> rfl
  have hflows := (s.toTaper_flows n b).trans (State.withdraw_flows _ n)
  have htaper : ((s.toTaper n b).withdraw n).phase n = some .taper :=
    State.phase_of_setPhase (s := s) (u := none) (s.toTaper_active n b) (State.delivers_of_phase hsome)
  refine State.armOk_blending (by rw [htaper]; rfl) State.withdraw_notQueued
    (fun l hl _ => (h.arms n).allowed_of_flows hflows hold hl) (fun _ => by rw [htaper]; rfl) fun hH => ?_
  have hh := (h.arms n).header hH
  have hcovers := hh.covers hblend
  have hlevel := hh.held.mpr hblend
  have hresv : ((s.toTaper n b).withdraw n).resv n = _ := s.toTaper_resv n b
  have hratio : ((s.toTaper n b).withdraw n).ratio n = _ := s.toTaper_ratio n b
  have htarget : (((s.toTaper n b).withdraw n).arm n).gasTarget = ((s.toTaper n b).withdraw n).gasTargetFor n :=
    congrArg ArmSeq.gasTarget (s.toTaper_arm n b)
  rw [hresv, hratio]
  by_cases hhigh : s.phase n = some .high
  · simp only [if_pos hhigh]
    exact ⟨by decide, fun _ => trivial, fun _ => le_rfl, min_le_right _ _, htarget⟩
  · simp only [if_neg hhigh]
    exact ⟨hlevel, hh.lowExact, hh.highCovers, hh.clamped, htarget⟩

theorem State.Inv.enterTaper (h : s.Inv H W P) (hex : Examines H W P ex)
    (hphase : s.phase n = some .low ∨ s.phase n = some .high) (b : Bool) : (s.enterTaper ex b n).Inv H W P := by
  have ha := (s.toTaper_flows n b).aside
  have harm := h.taperArm hphase b
  rw [State.enterTaper_eq]
  split
  · rename_i hhigh
    have hnone : ∀ r ∈ (s.toTaper n b).queue, r.arm ≠ n := by
      rw [s.toTaper_queue n b]
      have hhigh : s.phase n = some .high := by simpa using hhigh
      exact h.notQueued_of_phase (by rw [hhigh]; decide) (by rw [hhigh]; decide)
    rw [State.withdraw_eq_self hnone] at harm
    refine hex.inv _ (((h.others n).move ha (by rw [s.toTaper_queue n b]) (fun hH => ?_) False.elim).inv harm)
    rw [s.toTaper_resv n b, if_pos (by simpa using hhigh)]
    exact ((h.arms n).header hH).covers (by rw [show s.phase n = some .high by simpa using hhigh]; rfl)
  · rename_i hhigh
    have hhigh : s.phase n ≠ some .high := by simpa using hhigh
    refine ((h.others n).stay ha (s.toTaper_queue n b) ?_).withdrawThen hex harm
    rw [s.toTaper_resv n b, if_neg hhigh]

/-- After an entry to TAPER the record is in TAPER. -/
theorem State.Inv.enterTaper_phase (h : s.Inv H W P) (hex : Examines H W P ex)
    (hphase : s.phase n = some .low ∨ s.phase n = some .high) (b : Bool) : (s.enterTaper ex b n).phase n = some .taper := by
  have hsome : (s.phase n).isSome = true := by rcases hphase with h | h <;> rw [h] <;> rfl
  have htaper : (s.toTaper n b).phase n = some .taper := State.phase_of_setPhase (s.toTaper_active n b) (State.delivers_of_phase hsome)
  rw [State.enterTaper_eq]
  split
  · rename_i hhigh
    have hhigh : s.phase n = some .high := by simpa using hhigh
    have hnone : ∀ r ∈ (s.toTaper n b).queue, r.arm ≠ n := by
      rw [s.toTaper_queue n b]
      exact h.notQueued_of_phase (by rw [hhigh]; decide) (by rw [hhigh]; decide)
    exact (hex.same _ n hnone).phase.trans htaper
  · rw [State.withdrawThen]
    split
    · exact (hex.same _ n State.withdraw_notQueued).phase.trans htaper
    · exact htaper

/-! ## SETTLE -/

theorem State.toSettle_active (s : State) (n : ArmId) :
    (s.toSettle n).active n = (s.active n).map fun l => { l with phase := some .settle, upgradePending := none } :=
  s.setPhase_active n .settle none

theorem State.toSettle_arm (s : State) (n : ArmId) : (s.toSettle n).arm n = { s.arm n with
    valve := .close, gasTarget := 0, gasRun := none, ethRun := none
    settle := .running (s.now + 1000 * (s.armCfg n).settle) } := by
  simp [State.toSettle, State.setPhase, State.modActive]

theorem State.toSettle_ratio (s : State) (n : ArmId) :
    (s.toSettle n).ratio n = { setpoint := 0, devRun := none, finishTimer := none } := by
  simp [State.toSettle]

theorem State.toEndStrokes_arm (s : State) (n : ArmId) : (s.toEndStrokes n).arm n = { s.arm n with
    valve := .close, gasTarget := 0, gasRun := none, ethRun := none
    settle := .running (s.now + 1000 * (s.armCfg n).settle) } :=
  ((s.toEndStrokes_issues n).arm n).trans (s.toSettle_arm n)

theorem State.toEndStrokes_ratio (s : State) (n : ArmId) :
    (s.toEndStrokes n).ratio n = { setpoint := 0, devRun := none, finishTimer := none } :=
  ((s.toEndStrokes_issues n).ratio n).trans (s.toSettle_ratio n)

theorem State.toEndStrokes_queue (s : State) (n : ArmId) : (s.toEndStrokes n).queue = s.queue :=
  (s.toEndStrokes_issues n).queue

theorem State.toEndStrokes_resv (s : State) (n m : ArmId) : (s.toEndStrokes n).resv m = s.resv m :=
  (s.toEndStrokes_issues n).resv m

/-- A record that is given SETTLE flows no more. -/
theorem State.toSettle_phase (s : State) (n : ArmId) :
    (s.toSettle n).phase n = none ∨ (s.toSettle n).phase n = some .settle := by
  rw [State.phase, State.toSettle_active]
  cases s.active n with
  | none => exact Or.inl rfl
  | some l =>
    rw [Option.map_some, Option.bind_some, Load.deliveringPhase]
    split
    · exact Or.inr rfl
    · exact Or.inl rfl

/-- What an entry to SETTLE leaves at its arm, once its reservation is given up. -/
theorem State.toEndStrokes_armOk (s : State) (n : ArmId) : ((s.toEndStrokes n).released n).ArmOk H P n := by
  have hphase : ((s.toEndStrokes n).released n).phase n = none ∨
      ((s.toEndStrokes n).released n).phase n = some .settle := by
    have hissues := (s.toEndStrokes_issues n).phase n
    rcases s.toSettle_phase n with hp | hp
    · exact Or.inl ((State.released_phase _ n n).trans (hissues.trans hp))
    · exact Or.inr ((State.released_phase _ n n).trans (hissues.trans hp))
  refine State.armOk_closed ?_ ?_ (State.released_notQueued _ n) ?_ ?_ ?_ fun _ => ?_
  · rcases hphase with hp | hp <;> rw [hp] <;> rfl
  · rcases hphase with hp | hp <;> rw [hp] <;> rfl
  · rw [State.released_arm, s.toEndStrokes_arm n]
  · rw [State.released_arm, s.toEndStrokes_arm n]
  · rw [State.released_ratio, s.toEndStrokes_ratio n]
  · rw [State.released_resv]
    exact ⟨rfl, rfl⟩

theorem State.Others.toEndStrokes (h : s.Others H W P n) : (s.toEndStrokes n).Others H W P n :=
  h.stay (s.toEndStrokes_flows n).aside (s.toEndStrokes_queue n) (by rw [s.toEndStrokes_resv n])

theorem State.Others.enterSettle (h : s.Others H W P n) (hex : Examines H W P ex) : (s.enterSettle ex n).Inv H W P := by
  rw [State.enterSettle_eq]
  exact h.toEndStrokes.releaseThen hex (s.toEndStrokes_armOk n)

/-! ## FINISH -/

theorem State.toFinish_active (s : State) (n : ArmId) :
    (s.toFinish n).active n = (s.active n).map fun l => { l with phase := some .finish, upgradePending := none } :=
  s.setPhase_active n .finish none

theorem State.toFinish_arm (s : State) (n : ArmId) : (s.toFinish n).arm n = { s.arm n with
    valve := .close, gasTarget := 0, gasRun := none, ethRun := none } := by
  simp [State.toFinish, State.setPhase, State.modActive]

theorem State.toFinish_ratio (s : State) (n : ArmId) : (s.toFinish n).ratio n = { s.ratio n with
    devRun := none, finishTimer := some (s.now + 1000 * (s.armCfg n).finishTimeout) } := by
  simp [State.toFinish, State.setPhase, State.modActive]

theorem State.Inv.toFinish (h : s.Inv H W P) (hphase : s.phase n = some .taper) : (s.toFinish n).Inv H W P := by
  have hflows := s.toFinish_flows n
  have hfinish : (s.toFinish n).phase n = some .finish :=
    State.phase_of_setPhase (s.toFinish_active n) (State.delivers_of_phase (by rw [hphase]; rfl))
  refine ((h.others n).stay hflows.aside rfl rfl).inv (State.armOk_blending (by rw [hfinish]; rfl)
    (h.notQueued_of_phase (by rw [hphase]; decide) (by rw [hphase]; decide))
    (fun l hl hp => ?_) (fun hv => absurd (congrArg ArmSeq.valve (s.toFinish_arm n)) hv) fun hH => ?_)
  · rw [← State.phase_eq hl, hfinish] at hp
    cases hp
  · have hh := (h.arms n).header hH
    refine ⟨hh.held.mpr (by rw [hphase]; rfl), hh.lowExact, hh.highCovers, ?_, ?_⟩
    · rw [s.toFinish_ratio n]
      exact hh.clamped
    · rw [s.toFinish_arm n, State.gasTargetFor_closed (by rw [hfinish]; rfl)]

theorem State.Inv.enterFinish (h : s.Inv H W P) (hex : Examines H W P ex) (hphase : s.phase n = some .taper) (b : Bool) :
    (s.enterFinish ex b n).Inv H W P := by
  have hfinish := h.toFinish hphase
  rw [State.enterFinish_eq]
  split
  · exact (hfinish.others n).enterSettle hex
  · exact hfinish

/-! ## The compare tests (R86) -/

theorem State.Inv.taperTest (h : s.Inv H W P) (hex : Examines H W P ex) (b : Bool) : (s.taperTest ex b n).Inv H W P := by
  rw [State.taperTest]
  split
  · exact h
  · rename_i l hl
    split
    · rename_i hdue
      rw [← State.phase_eq hl] at hdue
      exact h.enterTaper hex hdue.1 _
    · exact h

theorem State.Inv.finishTest (h : s.Inv H W P) (hex : Examines H W P ex) (b : Bool) : (s.finishTest ex b n).Inv H W P := by
  rw [State.finishTest]
  split
  · exact h
  · rename_i l hl
    split
    · rename_i hdue
      rw [← State.phase_eq hl] at hdue
      dsimp only
      split
      · rename_i htaper
        exact h.enterFinish hex ((State.phase_eq hl).trans htaper) b
      · rename_i htaper
        have hphase : s.phase n = some .low ∨ s.phase n = some .high := by
          have hflow := hdue.1
          have hne : s.phase n ≠ some .taper := by rwa [State.phase_eq hl]
          cases hp : s.phase n with
          | none => rw [hp] at hflow; cases hflow
          | some p =>
            rw [hp] at hflow hne
            cases p with
            | low => exact Or.inl rfl
            | high => exact Or.inr rfl
            | taper => exact absurd rfl hne
            | headerWait | finish | settle => cases hflow
        exact (h.enterTaper hex hphase _).enterFinish hex (h.enterTaper_phase hex hphase _) b
    · exact h

end

end Sys2Proof.Machine
end

section
/-! SUPPORT. The upgrade request, the entries to LOW and HIGH, and the grants keep the flow's invariant; an examination
ends with a head that waits (R87 to R89, R132 to R136). -/

namespace Sys2Proof.Machine

section
variable {s t : State} {n : ArmId} {H W V : Prop} {P : ArmId → Nat → Prop} {ex : State → State}

/-! ## Capacity raised -/

theorem State.fits_iff {a : Nat} : s.fits a = true ↔ s.heldSum + a ≤ s.capacity := by simp [State.fits]

theorem State.grantsAtOnce_iff {a : Nat} : s.grantsAtOnce a = true ↔ s.grantedAtOnce a := by
  rw [State.grantsAtOnce, State.grantedAtOnce]
  simp only [Bool.or_eq_true, Bool.and_eq_true, beq_iff_eq, List.isEmpty_iff, State.fits_iff, or_assoc]
  rfl

/-- An amount that fits, or that no capacity limits, joins what the arm holds. -/
theorem State.Others.raise (h : s.Others H W P n) (ha : Aside n s t) (hq : t.queue.Sublist s.queue) {a : Nat}
    (hr : H → (t.resv n).amount = (s.resv n).amount + a) (hfit : s.capacity = 0 ∨ a = 0 ∨ s.heldSum + a ≤ s.capacity)
    (hw : V → t.headWaits) : t.Others H V P n where
  oneRequest := h.oneRequest.sublist (hq.map _)
  arms m hm := (h.arms m hm).of_same ha.keeps (ha.alarms m hm) (ha.others m hm)
  within hH hc := by
    rw [ha.keeps.capacity] at hc ⊢
    have hsum := ha.heldSum
    have hraised := hr hH
    have hwithin := h.within hH hc
    omega
  waits := hw

/-- A request granted at once leaves the head of the queue waiting. -/
theorem State.Others.grantAtOnce (h : s.Others H W P n) (hWH : W → H) (ha : Aside n s t) (hq : t.queue = s.queue) {a : Nat}
    (hr : H → (t.resv n).amount = (s.resv n).amount + a) (hgrant : s.grantsAtOnce a = true) : t.Others H W P n := by
  rw [State.grantsAtOnce_iff] at hgrant
  refine h.raise ha (by rw [hq]) hr (hgrant.imp_right (Or.imp_right And.right)) fun hW r hhead => ?_
  rw [hq] at hhead
  have hwaits := h.waits hW r hhead
  have hsum := ha.heldSum
  have hraised := hr (hWH hW)
  rw [ha.keeps.capacity]
  rcases hgrant with hc | hzero | ⟨hempty, -⟩
  · exact absurd hwaits.1 (by rw [show s.capacity = 0 from hc]; decide)
  · omega
  · rw [hempty] at hhead
    cases hhead

/-- A request that is not granted at once joins the queue. -/
theorem State.Others.enqueue (h : s.Others H W P n) {r : HeaderRequest} (hr : r.arm = n) (hnone : ∀ q ∈ s.queue, q.arm ≠ n)
    (hgrant : s.grantsAtOnce r.amount = false) : (s.enqueue r).Others H W P n := by
  have ha : Aside n s (s.enqueue r) := by
    have hflows := s.enqueue_flows r
    rw [hr] at hflows
    exact hflows.aside
  refine ⟨?_, fun m hm => (h.arms m hm).of_same ha.keeps (ha.alarms m hm) (ha.others m hm), h.within, fun hW q hq => ?_⟩
  · rw [State.enqueue, State.withQueue_queue, List.map_append, List.nodup_append]
    refine ⟨h.oneRequest, List.nodup_singleton _, fun a hmem b hb => ?_⟩
    obtain ⟨q, hq, rfl⟩ := List.mem_map.mp hmem
    rw [List.map_singleton, List.mem_singleton] at hb
    rw [hb, hr]
    exact hnone q hq
  · rw [State.enqueue, State.withQueue_queue] at hq
    cases hqueue : s.queue with
    | nil =>
      rw [hqueue] at hq
      have hqr : r = q := Option.some.inj hq
      have hno : ¬ s.grantedAtOnce r.amount := by rw [← State.grantsAtOnce_iff, hgrant]; decide
      rw [State.grantedAtOnce, not_or, not_or, not_and_or] at hno
      obtain ⟨hcap, -, hfit⟩ := hno
      have hfull : ¬ s.heldSum + r.amount ≤ s.capacity := hfit.resolve_left (not_not.mpr hqueue)
      have hcap : s.capacity ≠ 0 := hcap
      rw [← hqr]
      exact ⟨Nat.pos_of_ne_zero hcap, not_le.mp hfull⟩
    | cons q' rest =>
      rw [hqueue] at hq
      have hhead : q' = q := Option.some.inj hq
      exact h.waits hW q (by rw [hqueue, hhead]; rfl)

/-! ## HIGH -/

theorem State.enterHigh_active (s : State) (n : ArmId) :
    (s.enterHigh n).active n = (s.active n).map fun l => { l with phase := some .high, upgradePending := none } :=
  s.setPhase_active n .high none

theorem State.enterHigh_arm (s : State) (n : ArmId) :
    (s.enterHigh n).arm n = { s.arm n with gasTarget := (s.enterHigh n).gasTargetFor n } := by
  rw [State.enterHigh, State.retarget, State.modArm_arm_self]
  rfl

/-- HIGH on the amount raised. -/
theorem State.highArm (hphase : s.phase n = some .low) (hnone : ∀ r ∈ s.queue, r.arm ≠ n)
    (hallowed : ∀ l, s.active n = some l → P n l.recipe ∧ s.latchedClass n .stop = false)
    (hheader : H → (s.resv n).level = .high ∧ (s.resv n).lowAmount ≤ (s.resv n).amount ∧
      (s.ratio n).setpoint ≤ (s.resv n).amount) : (s.enterHigh n).ArmOk H P n := by
  have hhigh : (s.enterHigh n).phase n = some .high :=
    State.phase_of_setPhase (s.enterHigh_active n) (State.delivers_of_phase (by rw [hphase]; rfl))
  have hflows := s.enterHigh_flows n
  refine State.armOk_blending (by rw [hhigh]; rfl) hnone (fun l hl _ => ?_) (fun _ => by rw [hhigh]; rfl) fun hH => ?_
  · obtain ⟨k, hk, hcore⟩ := hflows.active_some_back hl
    rw [Load.core_recipe hcore, hflows.keeps.latchedClass (hflows.alarm n)]
    exact hallowed k hk
  · obtain ⟨hlevel, hcovers, hclamped⟩ := hheader hH
    have hlevel' : ((s.enterHigh n).resv n).level = .high := hlevel
    exact ⟨by rw [hlevel']; decide, (by rw [hlevel']; exact fun hx => by cases hx), fun _ => hcovers, hclamped,
      congrArg ArmSeq.gasTarget (s.enterHigh_arm n)⟩

/-! ## The low-start test (R86, R133) -/

/-- What an upgrade asks for (R133). -/
def State.upgradeAsked (s : State) (n : ArmId) (f : Nat) : Nat := s.highAmountFor n f - (s.resv n).amount

/-- The reservation an upgrade granted at once sets. -/
def State.upgraded (s : State) (n : ArmId) (f : Nat) : State :=
  s.modResv n fun r => { r with level := .high, amount := r.amount + s.upgradeAsked n f }

/-- The low-start test is due. -/
def State.lowStartDue (s : State) (n : ArmId) (l : Load) : Prop :=
  l.deliveringPhase = some .low ∧ l.upgradePending = some false ∧ s.lowStartPoint n ≤ l.totalGross

theorem State.lowStartTest_none (h : s.active n = none) : s.lowStartTest n = s := by
  rw [State.lowStartTest, h]

theorem State.lowStartTest_idle {l : Load} (hl : s.active n = some l) (h : ¬ s.lowStartDue n l) : s.lowStartTest n = s := by
  rw [State.lowStartTest, hl]
  exact if_neg h

theorem State.lowStartTest_granted {l : Load} (hl : s.active n = some l) (h : s.lowStartDue n l)
    (hgrant : s.grantsAtOnce (s.upgradeAsked n (s.fraction l)) = true) :
    s.lowStartTest n = (s.upgraded n (s.fraction l)).enterHigh n := by
  have hrequest : s.requestUpgrade n (s.fraction l) = (s.upgraded n (s.fraction l), true) := by
    rw [State.requestUpgrade]
    exact if_pos hgrant
  rw [State.lowStartTest, hl]
  dsimp only
  rw [hrequest]
  exact if_pos h

theorem State.lowStartTest_queued {l : Load} (hl : s.active n = some l) (h : s.lowStartDue n l)
    (hgrant : s.grantsAtOnce (s.upgradeAsked n (s.fraction l)) = false) :
    s.lowStartTest n = (s.enqueue ⟨n, .upgrade, s.upgradeAsked n (s.fraction l)⟩).setPhase n .low (some true) := by
  have hrequest : s.requestUpgrade n (s.fraction l) =
      (s.enqueue ⟨n, .upgrade, s.upgradeAsked n (s.fraction l)⟩, false) := by
    rw [State.requestUpgrade]
    exact if_neg (ne_true_of_eq_false hgrant)
  rw [State.lowStartTest, hl]
  dsimp only
  rw [hrequest]
  exact if_pos h

theorem State.Inv.notQueued_of_lowStart (h : s.Inv H W P) {l : Load} (hl : s.active n = some l) (hdue : s.lowStartDue n l) :
    ∀ r ∈ s.queue, r.arm ≠ n := by
  obtain ⟨hphase, hpending, -⟩ := hdue
  refine h.notQueued (State.requestFits_false (by rw [State.phase_eq hl, hphase]; decide) fun k hk _ => ?_)
  rw [hl] at hk
  rw [← Option.some.inj hk, hpending]
  decide

theorem State.Inv.lowStartTest (h : s.Inv H W P) (hWH : W → H) : (s.lowStartTest n).Inv H W P := by
  cases hl : s.active n with
  | none => rwa [State.lowStartTest_none hl]
  | some l =>
    by_cases hdue : s.lowStartDue n l
    · have hphase : s.phase n = some .low := (State.phase_eq hl).trans hdue.1
      have hnone := h.notQueued_of_lowStart hl hdue
      have hold : holdablePhase (s.phase n) = true := by rw [hphase]; rfl
      have hblend : blendingPhase (s.phase n) = true := by rw [hphase]; rfl
      by_cases hgrant : s.grantsAtOnce (s.upgradeAsked n (s.fraction l)) = true
      · rw [State.lowStartTest_granted hl hdue hgrant]
        have hraise := s.modResv_flows n fun r =>
          { r with level := .high, amount := r.amount + s.upgradeAsked n (s.fraction l) }
        have hflows : Flows (· = n) s ((s.upgraded n (s.fraction l)).enterHigh n) :=
          hraise.trans (State.enterHigh_flows _ n)
        have hresv : (s.upgraded n (s.fraction l)).resv n =
            { s.resv n with level := .high, amount := (s.resv n).amount + s.upgradeAsked n (s.fraction l) } :=
          s.modResv_resv_self n _
        refine ((h.others n).grantAtOnce hWH hflows.aside rfl (fun _ => ?_) hgrant).inv
          (State.highArm hphase hnone (fun k hk => (h.arms n).allowed_of_flows hraise hold hk) fun hH => ?_)
        · exact congrArg Reservation.amount hresv
        · have hh := (h.arms n).header hH
          have hcovers := hh.covers hblend
          have hclamped := hh.clamped
          rw [hresv]
          exact ⟨rfl, Nat.le_add_right_of_le hcovers, Nat.le_add_right_of_le hclamped⟩
      · have hgrant : s.grantsAtOnce (s.upgradeAsked n (s.fraction l)) = false := by simpa using hgrant
        rw [State.lowStartTest_queued hl hdue hgrant]
        have hqueued := (h.others n).enqueue (r := ⟨n, .upgrade, s.upgradeAsked n (s.fraction l)⟩) rfl hnone hgrant
        have hset := State.setPhase_flows (s.enqueue ⟨n, .upgrade, s.upgradeAsked n (s.fraction l)⟩) n .low (some true)
        have hflows := (s.enqueue_flows ⟨n, .upgrade, s.upgradeAsked n (s.fraction l)⟩).trans hset
        refine (hqueued.stay hset.aside rfl rfl).inv ?_
        have hactive : (State.setPhase (s.enqueue ⟨n, .upgrade, s.upgradeAsked n (s.fraction l)⟩) n .low (some true)).active n =
            some { l with phase := some .low, upgradePending := some true } := by
          rw [State.setPhase_active, State.enqueue, State.withQueue_active, hl, Option.map_some]
        have hlow : (State.setPhase (s.enqueue ⟨n, .upgrade, s.upgradeAsked n (s.fraction l)⟩) n .low (some true)).phase n =
            some .low := State.setPhase_phase (State.delivers_of_phase (by rw [State.enqueue, State.withQueue_phase, hphase]; rfl)) _ _
        refine ⟨fun r hr hrn => ?_, fun k hk _ => (h.arms n).allowed_of_flows hflows hold hk,
          fun _ => by rw [hlow]; rfl, fun _ => by rw [hlow]; rfl, fun hH => ?_⟩
        · rcases List.mem_append.mp hr with hr | hr
          · exact absurd hrn (hnone r hr)
          · rw [List.mem_singleton.mp hr, State.requestFits]
            simp [hlow, hactive]
        · have hh := (h.arms n).header hH
          refine ⟨hh.lowExact, hh.highCovers, hh.noneHeld, ?_, fun r hr hrn hk => ?_, hh.clamped, ?_⟩
          · rw [hlow]
            exact ⟨fun _ => rfl, fun _ => hh.held.mpr hblend⟩
          · rcases List.mem_append.mp hr with hr | hr
            · exact absurd hrn (hnone r hr)
            · rw [List.mem_singleton.mp hr] at hk
              cases hk
          · refine hh.target.trans (State.gasTargetFor_congr hflows.keeps ?_ rfl).symm
            obtain ⟨hstate, hp⟩ := Load.delivering_of_phase hdue.1
            rw [hactive, hl, Option.map_some, Option.map_some, Load.deliveringPhase_delivering (l := { l with
              phase := some .low, upgradePending := some true }) hstate, Load.deliveringPhase_delivering hstate, hp]
    · rwa [State.lowStartTest_idle hl hdue]

theorem State.Inv.compareTests (h : s.Inv H W P) (hWH : W → H) (hex : Examines H W P ex) (b : Bool) :
    (s.compareTests ex b n).Inv H W P :=
  ((h.taperTest hex b).lowStartTest hWH).finishTest hex b

end

end Sys2Proof.Machine
end

section
/-! SUPPORT. The entry to LOW, the grants and the examination of the queue (R88, R135, R136). -/

namespace Sys2Proof.Machine

section
variable {s t : State} {n : ArmId} {H W : Prop} {P : ArmId → Nat → Prop} {ex : State → State}

/-! ## The setpoint -/

theorem State.setSetpoint_active (s : State) (n m : ArmId) : (s.setSetpoint n).active m = s.active m := by
  rw [State.setSetpoint]
  split <;> rfl

theorem State.setSetpoint_phase (s : State) (n m : ArmId) : (s.setSetpoint n).phase m = s.phase m :=
  State.phase_of_active (s.setSetpoint_active n m)

theorem State.setSetpoint_queue (s : State) (n : ArmId) : (s.setSetpoint n).queue = s.queue := by
  rw [State.setSetpoint]
  split <;> rfl

theorem State.setSetpoint_resv (s : State) (n m : ArmId) : (s.setSetpoint n).resv m = s.resv m := by
  rw [State.setSetpoint]
  split <;> rfl

theorem State.setSetpoint_arm (s : State) (n m : ArmId) : (s.setSetpoint n).arm m = s.arm m := by
  rw [State.setSetpoint]
  split <;> rfl

theorem State.setSetpoint_ratio {l : Load} (hl : s.active n = some l) : (s.setSetpoint n).ratio n = { s.ratio n with
    setpoint := setpointFor (s.arm n).qGas (s.fraction l) (s.deficit l) (s.armCfg n).catchUp (s.resv n).amount } := by
  rw [State.setSetpoint, hl]
  exact s.modRatio_ratio_self n _

/-- A change of the ratio controller that leaves the setpoint within the amount held of a blending record. -/
theorem State.ArmOk.modRatio (h : s.ArmOk H P n) {f : Ratio → Ratio}
    (hf : 0 < (f (s.ratio n)).setpoint → blendingPhase (s.phase n) = true)
    (hclamp : H → (f (s.ratio n)).setpoint ≤ (s.resv n).amount) : (s.modRatio n f).ArmOk H P n where
  requests := h.requests
  allowed := h.allowed
  valve := h.valve
  setpoint := by
    rw [State.modRatio_ratio_self]
    exact hf
  header hH := by
    have hh := h.header hH
    refine ⟨hh.lowExact, hh.highCovers, hh.noneHeld, hh.held, hh.queuedLow, ?_, hh.target⟩
    rw [State.modRatio_ratio_self]
    exact hclamp hH

theorem State.Inv.modRatio (h : s.Inv H W P) {f : Ratio → Ratio}
    (hf : 0 < (f (s.ratio n)).setpoint → blendingPhase (s.phase n) = true)
    (hclamp : H → (f (s.ratio n)).setpoint ≤ (s.resv n).amount) : (s.modRatio n f).Inv H W P :=
  ((h.others n).stay (s.modRatio_flows n f).aside rfl rfl).inv ((h.arms n).modRatio hf hclamp)

theorem State.Inv.setSetpoint (h : s.Inv H W P) (hblend : blendingPhase (s.phase n) = true) :
    (s.setSetpoint n).Inv H W P := by
  rw [State.setSetpoint]
  split
  · exact h
  · exact h.modRatio (fun _ => hblend) fun _ => min_le_left _ _

/-! ## LOW -/

theorem State.toLow_phase (h : s.Delivers n) : (s.toLow n).phase n = some .low :=
  ((State.issueArm_issues _ n).phase n).trans (State.setPhase_phase h .low (some false))

theorem State.toLow_queue (s : State) (n : ArmId) : (s.toLow n).queue = s.queue := (State.issueArm_issues _ n).queue

theorem State.toLow_resv (s : State) (n m : ArmId) : (s.toLow n).resv m = s.resv m := (State.issueArm_issues _ n).resv m

theorem State.toLow_ratio (s : State) (n m : ArmId) : (s.toLow n).ratio m = s.ratio m :=
  (State.issueArm_issues _ n).ratio m

theorem State.toLow_arm (s : State) (n : ArmId) :
    (s.toLow n).arm n = { s.arm n with valve := .openFurther, gasTarget := (s.toLow n).gasTargetFor n } := by
  refine ((State.issueArm_issues _ n).arm n).trans ?_
  rw [State.retarget, State.modArm_arm_self, State.modArm_arm_self,
    show (s.toLow n).gasTargetFor n = _ from (State.issueArm_issues _ n).gasTargetFor]
  rfl

/-- LOW on the low amount. -/
theorem State.lowArm (hphase : s.Delivers n) (hnone : ∀ r ∈ s.queue, r.arm ≠ n)
    (hallowed : ∀ l, s.active n = some l → P n l.recipe ∧ s.latchedClass n .stop = false)
    (hheader : H → (s.resv n).level = .low ∧ (s.resv n).amount = (s.resv n).lowAmount ∧
      (s.ratio n).setpoint ≤ (s.resv n).amount) : (s.toLow n).ArmOk H P n := by
  have hlow := State.toLow_phase hphase
  have hflows := s.toLow_flows n
  refine State.armOk_blending (by rw [hlow]; rfl) (by rw [s.toLow_queue n]; exact hnone) (fun l hl _ => ?_)
    (fun _ => by rw [hlow]; rfl) fun hH => ?_
  · obtain ⟨k, hk, hcore⟩ := hflows.active_some_back hl
    rw [Load.core_recipe hcore, hflows.keeps.latchedClass (hflows.alarm n)]
    exact hallowed k hk
  · obtain ⟨hlevel, hexact, hclamped⟩ := hheader hH
    rw [s.toLow_resv n, s.toLow_ratio n, hlevel]
    exact ⟨by decide, fun _ => hexact, fun _ => hexact.ge, hclamped, congrArg ArmSeq.gasTarget (s.toLow_arm n)⟩

theorem State.Others.enterLow (h : s.Others H W P n) (hWH : W → H) (hex : Examines H W P ex) (harm : (s.toLow n).ArmOk H P n) :
    (s.enterLow ex n).Inv H W P := by
  have htests := ((h.stay (s.toLow_flows n).aside (s.toLow_queue n) (by rw [s.toLow_resv n])).inv harm).compareTests
    (n := n) hWH hex false
  rw [State.enterLow_eq]
  split
  · rename_i hflow
    exact htests.setSetpoint (State.blending_of_flowing hflow)
  · exact htests

/-! ## Grants (R136) -/

theorem State.grantReservation_queue (s : State) (r : HeaderRequest) : (s.grantReservation r).queue = s.queue := by
  rw [State.grantReservation]
  cases r.kind <;> rfl

theorem State.grantReservation_active (s : State) (r : HeaderRequest) (m : ArmId) :
    (s.grantReservation r).active m = s.active m := by
  rw [State.grantReservation]
  cases r.kind <;> rfl

theorem State.grantReservation_ratio (s : State) (r : HeaderRequest) (m : ArmId) :
    (s.grantReservation r).ratio m = s.ratio m := by
  rw [State.grantReservation]
  cases r.kind <;> rfl

theorem State.grantReservation_resv (s : State) (r : HeaderRequest) : (s.grantReservation r).resv r.arm =
    match r.kind with
    | .low => { s.resv r.arm with level := .low, amount := r.amount }
    | .upgrade => { s.resv r.arm with level := .high, amount := (s.resv r.arm).amount + r.amount } := by
  rw [State.grantReservation]
  cases r.kind <;> exact s.modResv_resv_self r.arm _

theorem State.grant_low {r : HeaderRequest} (hkind : r.kind = .low) (rest : List HeaderRequest) :
    s.grant r rest = ((s.withQueue rest).grantReservation r).enterLow id r.arm := by
  rw [State.grant, hkind]

theorem State.grant_upgrade {r : HeaderRequest} (hkind : r.kind = .upgrade) (rest : List HeaderRequest) :
    s.grant r rest = ((s.withQueue rest).grantReservation r).enterHigh r.arm := by
  rw [State.grant, hkind]

/-- A request in the queue belongs to a record in HEADER_WAIT or in LOW with its upgrade pending. -/
theorem State.requestFits_phase {r : HeaderRequest} (hfit : s.requestFits r = true) :
    s.phase r.arm = some (match r.kind with | .low => .headerWait | .upgrade => .low) := by
  rw [State.requestFits] at hfit
  cases hkind : r.kind with
  | low => simpa [hkind] using hfit
  | upgrade =>
    rw [hkind] at hfit
    simp only [Bool.and_eq_true, beq_iff_eq] at hfit
    exact hfit.1

section
variable {r : HeaderRequest} {rest : List HeaderRequest} (h : s.Inv H False P) (hq : s.queue = r :: rest)
include h hq

theorem State.Inv.head_fits : s.requestFits r = true :=
  (h.arms r.arm).requests r (by rw [hq]; exact List.mem_cons_self) rfl

theorem State.Inv.rest_notQueued : ∀ q ∈ rest, q.arm ≠ r.arm := by
  have hnodup := h.oneRequest
  rw [hq, List.map_cons, List.nodup_cons] at hnodup
  exact fun q hmem harm => hnodup.1 (List.mem_map.mpr ⟨q, hmem, harm⟩)

theorem State.Inv.grant (hfit : s.capacity = 0 ∨ s.fits r.amount = true) : (s.grant r rest).Inv H False P := by
  have hhead := h.head_fits hq
  have hphase := State.requestFits_phase hhead
  have hrest := h.rest_notQueued hq
  have hbase := (State.tail_flows hq).trans (State.grantReservation_flows _ r)
  have hqueue : ((s.withQueue rest).grantReservation r).queue = rest := State.grantReservation_queue _ r
  have hactive : ((s.withQueue rest).grantReservation r).active r.arm = s.active r.arm :=
    State.grantReservation_active _ r r.arm
  have hratio : ((s.withQueue rest).grantReservation r).ratio r.arm = s.ratio r.arm :=
    State.grantReservation_ratio _ r r.arm
  have hresv := State.grantReservation_resv (s.withQueue rest) r
  have hold : holdablePhase (s.phase r.arm) = true := by
    rw [hphase]
    cases r.kind <;> rfl
  have hallowed : ∀ l, ((s.withQueue rest).grantReservation r).active r.arm = some l →
      P r.arm l.recipe ∧ ((s.withQueue rest).grantReservation r).latchedClass r.arm .stop = false :=
    fun l hl => (h.arms r.arm).allowed_of_flows hbase hold hl
  have hamount : H → (((s.withQueue rest).grantReservation r).resv r.arm).amount = (s.resv r.arm).amount + r.amount := by
    intro hH
    have hh := (h.arms r.arm).header hH
    rw [hresv]
    cases hkind : r.kind with
    | low =>
      have hnone : (s.resv r.arm).level = .none := by
        by_contra hlevel
        have hblend := hh.held.mp hlevel
        rw [hphase, hkind] at hblend
        cases hblend
      simp [hh.noneHeld hnone]
    | upgrade => rfl
  have hothers : ((s.withQueue rest).grantReservation r).Others H False P r.arm :=
    (h.others r.arm).raise hbase.aside (by rw [hqueue, hq]; exact List.sublist_cons_self r rest) hamount
      (hfit.imp_right fun hf => Or.inr (State.fits_iff.mp hf)) False.elim
  have hphase' : ((s.withQueue rest).grantReservation r).phase r.arm = s.phase r.arm := State.phase_of_active hactive
  cases hkind : r.kind with
  | low =>
    rw [State.grant_low hkind]
    refine hothers.enterLow False.elim (examines_id H P) (State.lowArm (State.delivers_of_phase (by rw [hphase', hphase]; rfl))
      (by rw [hqueue]; exact hrest) hallowed fun hH => ?_)
    have hh := (h.arms r.arm).header hH
    have hset : ¬ 0 < (s.ratio r.arm).setpoint := fun hp => by
      have hblend := (h.arms r.arm).setpoint hp
      rw [hphase, hkind] at hblend
      cases hblend
    rw [hresv, hratio, hkind]
    exact ⟨rfl, hh.queuedLow r (by rw [hq]; exact List.mem_cons_self) rfl hkind, by omega⟩
  | upgrade =>
    rw [State.grant_upgrade hkind]
    have hflows := State.enterHigh_flows ((s.withQueue rest).grantReservation r) r.arm
    refine (hothers.stay hflows.aside rfl rfl).inv (State.highArm (by rw [hphase', hphase, hkind])
      (by rw [hqueue]; exact hrest) hallowed fun hH => ?_)
    have hh := (h.arms r.arm).header hH
    have hcovers := hh.covers (by rw [hphase, hkind]; rfl)
    have hclamped := hh.clamped
    rw [hresv, hratio, hkind]
    exact ⟨rfl, Nat.le_add_right_of_le hcovers, Nat.le_add_right_of_le hclamped⟩

end

/-! ## What a grant adds to the queue (R136) -/

/-- The queue of the arms but one, with at most an upgrade request of that arm behind. -/
def JoinedBy (n : ArmId) (q q' : List HeaderRequest) : Prop :=
  q' = q ∨ ∃ r : HeaderRequest, q' = q ++ [r] ∧ r.arm = n ∧ r.kind = .upgrade

theorem State.withdrawThen_id (s : State) (n : ArmId) : s.withdrawThen id n = s.withdraw n := by
  rw [State.withdrawThen, id, ite_self]

theorem State.releaseThen_id (s : State) (n : ArmId) : s.releaseThen id n = s.released n := by
  rw [State.releaseThen_eq, id, ite_self]

section
variable {q : List HeaderRequest} (hq : ∀ r ∈ q, r.arm ≠ n)
include hq

/-- A withdrawal takes back what the arm itself had joined. -/
theorem JoinedBy.withdraw (h : JoinedBy n q s.queue) : (s.withdraw n).queue = q := by
  have hself : q.filter (fun r => r.arm != n) = q := List.filter_eq_self.mpr fun r hr => by simpa using hq r hr
  rw [State.withdraw, State.withQueue_queue]
  rcases h with h | ⟨r, h, hr, -⟩
  · rw [h, hself]
  · rw [h, List.filter_append, hself]
    simp [hr]

theorem JoinedBy.enterTaper (h : JoinedBy n q s.queue) (b : Bool) : JoinedBy n q (s.enterTaper id b n).queue := by
  rw [State.enterTaper_eq]
  have ht : JoinedBy n q (s.toTaper n b).queue := by rwa [s.toTaper_queue n b]
  split
  · exact ht
  · rw [State.withdrawThen_id]
    exact Or.inl (ht.withdraw hq)

theorem JoinedBy.enterFinish (h : JoinedBy n q s.queue) (b : Bool) : JoinedBy n q (s.enterFinish id b n).queue := by
  have hf : JoinedBy n q (s.toFinish n).queue := h
  rw [State.enterFinish_eq]
  split
  · rw [State.enterSettle_eq, State.releaseThen_id]
    refine Or.inl (JoinedBy.withdraw (s := (s.toFinish n).toEndStrokes n) hq ?_)
    rwa [State.toEndStrokes_queue]
  · exact hf

theorem JoinedBy.taperTest (h : s.queue = q) (b : Bool) : (s.taperTest id b n).queue = q := by
  rw [State.taperTest]
  split
  · exact h
  · split
    · rw [State.enterTaper_eq]
      have ht : (s.toTaper n (!b)).queue = q := by rw [s.toTaper_queue, h]
      split
      · exact ht
      · rw [State.withdrawThen_id]
        exact JoinedBy.withdraw hq (Or.inl ht)
    · exact h

omit hq in
theorem JoinedBy.lowStartTest (h : s.queue = q) : JoinedBy n q (s.lowStartTest n).queue := by
  cases hl : s.active n with
  | none => rw [State.lowStartTest_none hl]; exact Or.inl h
  | some l =>
    by_cases hdue : s.lowStartDue n l
    · by_cases hgrant : s.grantsAtOnce (s.upgradeAsked n (s.fraction l)) = true
      · rw [State.lowStartTest_granted hl hdue hgrant]
        exact Or.inl h
      · rw [State.lowStartTest_queued hl hdue (by simpa using hgrant)]
        exact Or.inr ⟨_, by rw [← h]; rfl, rfl, rfl⟩
    · rw [State.lowStartTest_idle hl hdue]
      exact Or.inl h

theorem JoinedBy.finishTest (h : JoinedBy n q s.queue) (b : Bool) : JoinedBy n q (s.finishTest id b n).queue := by
  rw [State.finishTest]
  split
  · exact h
  · split
    · dsimp only
      split
      · exact h.enterFinish hq b
      · exact (h.enterTaper hq _).enterFinish hq b
    · exact h

/-- An entry to LOW without an examination leaves the queue, but for an upgrade request behind it. -/
theorem JoinedBy.enterLow (h : s.queue = q) : JoinedBy n q (s.enterLow id n).queue := by
  have htests : JoinedBy n q ((s.toLow n).compareTests id false n).queue :=
    JoinedBy.finishTest hq (JoinedBy.lowStartTest (JoinedBy.taperTest hq ((s.toLow_queue n).trans h) false)) false
  rw [State.enterLow_eq]
  split
  · rwa [State.setSetpoint_queue]
  · exact htests

end

/-! ## The examination (R135) -/

/-- How many grants an examination may still make. -/
def HeaderRequest.weight (r : HeaderRequest) : Nat :=
  match r.kind with
  | .low => 2
  | .upgrade => 1

def queueWeight (q : List HeaderRequest) : Nat := (q.map HeaderRequest.weight).sum

theorem queueWeight_le (q : List HeaderRequest) : queueWeight q ≤ 2 * q.length := by
  induction q with
  | nil => decide
  | cons r rest ih =>
    have hr : r.weight ≤ 2 := by
      rw [HeaderRequest.weight]
      split <;> decide
    rw [queueWeight, List.map_cons, List.sum_cons, List.length_cons]
    have hrest : (rest.map HeaderRequest.weight).sum ≤ 2 * rest.length := ih
    omega

theorem JoinedBy.weight_le {q q' : List HeaderRequest} (h : JoinedBy n q q') : queueWeight q' ≤ queueWeight q + 1 := by
  rcases h with rfl | ⟨r, rfl, -, hkind⟩
  · omega
  · simp [queueWeight, HeaderRequest.weight, hkind]

/-- A grant uses up its request. -/
theorem State.Inv.grant_weight (h : s.Inv H False P) {r : HeaderRequest} {rest : List HeaderRequest} (hq : s.queue = r :: rest) :
    queueWeight (s.grant r rest).queue < queueWeight s.queue := by
  have hrest := h.rest_notQueued hq
  have hsum : queueWeight s.queue = r.weight + queueWeight rest := by rw [hq]; rfl
  have hqueue : ((s.withQueue rest).grantReservation r).queue = rest := State.grantReservation_queue _ r
  cases hkind : r.kind with
  | low =>
    rw [State.grant_low hkind]
    have hjoined := (JoinedBy.enterLow hrest hqueue).weight_le
    have hweight : r.weight = 2 := by rw [HeaderRequest.weight, hkind]
    omega
  | upgrade =>
    rw [State.grant_upgrade hkind]
    have hsame : (((s.withQueue rest).grantReservation r).enterHigh r.arm).queue = rest := hqueue
    have hweight : r.weight = 1 := by rw [HeaderRequest.weight, hkind]
    rw [hsame]
    omega

theorem State.Inv.examineUpTo (h : s.Inv H False P) (k : Nat) :
    (s.examineUpTo k).Inv H False P ∧ (queueWeight s.queue ≤ k → (s.examineUpTo k).headWaits) := by
  induction k generalizing s with
  | zero =>
    refine ⟨h, fun hk r hr => ?_⟩
    have hnil : s.queue = [] := by
      cases hq : s.queue with
      | nil => rfl
      | cons q rest =>
        rw [hq, queueWeight, List.map_cons, List.sum_cons] at hk
        have hq : 0 < q.weight := by
          rw [HeaderRequest.weight]
          split <;> decide
        omega
    rw [State.examineUpTo, hnil] at hr
    cases hr
  | succ k ih =>
    rw [State.examineUpTo]
    split
    · rename_i hq
      refine ⟨h, fun _ r hr => ?_⟩
      rw [hq] at hr
      cases hr
    · rename_i r rest hq
      split
      · rename_i hfit
        have hgrant := h.grant hq (by simpa using hfit)
        refine (ih hgrant).imp_right fun hwaits hk => hwaits ?_
        have hweight := h.grant_weight hq
        omega
      · rename_i hfit
        refine ⟨h, fun _ q hhead => ?_⟩
        rw [hq] at hhead
        rw [← Option.some.inj hhead]
        simp only [Bool.or_eq_true, beq_iff_eq, not_or, State.fits_iff, not_le] at hfit
        exact ⟨Nat.pos_of_ne_zero hfit.1, hfit.2⟩

/-- The examination keeps the invariant, and leaves a head that waits. -/
theorem examines_examine (H W : Prop) (P : ArmId → Nat → Prop) : Examines H W P State.examine where
  inv s h := by
    obtain ⟨hinv, hwaits⟩ := h.examineUpTo (2 * s.queue.length)
    exact ⟨hinv.oneRequest, hinv.arms, hinv.within, fun _ => hwaits (queueWeight_le _)⟩
  same _ _ h := State.examine_sameAt h

end

end Sys2Proof.Machine
end

section
/-! SUPPORT. Holds, cuts and detections: what they leave at their arm, and that they keep the flow's invariant (R15,
R99, R169). -/

namespace Sys2Proof.Machine

/-! ## The moves of a hold before its release -/

/-- A record as a hold makes it (R15). -/
def Load.heldBy (l : Load) (c : HoldCause) (due : Option Nat) : Load :=
  { l.takeHold c with state := .held, phase := none, upgradePending := none, abortTaken := none, holdTimer := due }

/-- A record in FINISH as a hold cause cuts it (R15). -/
def Load.cutBy (l : Load) (c : HoldCause) : Load := { l.takeHold c with flags := { l.flags with finishCut := true } }

/-- HELD entered with everything closed and masked (R15, R99), before the release. -/
def State.toHeld (s : State) (n : ArmId) (c : HoldCause) : State :=
  (((s.modActive n fun l => l.heldBy c s.holdDue).modArm n fun a =>
    { a with valve := .close, gasTarget := 0, gasRun := none, ethRun := none, holdDrain := 0 }).modRatio n fun r =>
    { r with setpoint := 0, devRun := none }).maskArm n true

/-- The record in FINISH cut, before its entry to SETTLE. -/
def State.toCut (s : State) (n : ArmId) (c : HoldCause) : State := s.modActive n (·.cutBy c)

section
variable (s : State) (n : ArmId) (c : HoldCause)

theorem State.hold_eq : s.hold n c = (s.toHeld n c).releaseThen State.examine n := rfl

theorem State.cutFinish_eq : s.cutFinish n c = (s.toCut n c).enterSettle State.examine n := rfl

theorem State.toHeld_aside : Aside n s (s.toHeld n c) :=
  (((s.modActive_aside n fun _ => by rfl).trans (State.modArm_aside _ n _)).trans
    (State.modRatio_flows _ n _).aside).trans ((State.maskArm_onlyInjectors _ n true).aside n)

theorem State.toCut_aside : Aside n s (s.toCut n c) := s.modActive_aside n fun _ => by rfl

theorem State.toHeld_active : (s.toHeld n c).active n = (s.active n).map (·.heldBy c s.holdDue) :=
  ((State.maskArm_onlyInjectors _ n true).active n).trans
    (State.modActive_active_self (fun _ => by rfl) fun _ _ => by rfl)

theorem State.toCut_active : (s.toCut n c).active n = (s.active n).map (·.cutBy c) :=
  State.modActive_active_self (fun _ => by rfl) fun _ h => h

theorem State.toHeld_arm : (s.toHeld n c).arm n = { s.arm n with
    valve := .close, gasTarget := 0, gasRun := none, ethRun := none, holdDrain := 0 } := by
  rw [State.toHeld, (State.maskArm_onlyInjectors _ n true).arm]
  simp [State.modActive]

theorem State.toHeld_ratio : (s.toHeld n c).ratio n = { s.ratio n with setpoint := 0, devRun := none } := by
  rw [State.toHeld, (State.maskArm_onlyInjectors _ n true).ratio]
  simp [State.modActive]

theorem State.toHeld_resv (m : ArmId) : (s.toHeld n c).resv m = s.resv m :=
  (State.maskArm_onlyInjectors _ n true).resv m

theorem State.toHeld_queue : (s.toHeld n c).queue = s.queue := (State.maskArm_onlyInjectors _ n true).queue

theorem State.toHeld_phase : (s.toHeld n c).phase n = none := by
  rw [State.phase, State.toHeld_active]
  cases s.active n <;> rfl

end

/-! ## The invariant -/

section
variable {s t : State} {n : ArmId} {H W : Prop} {P Q : ArmId → Nat → Prop} {c : HoldCause}

/-- What a hold leaves at its arm, once its reservation is given up. -/
theorem State.toHeld_armOk (s : State) (n : ArmId) (c : HoldCause) : ((s.toHeld n c).released n).ArmOk H P n := by
  have hphase : ((s.toHeld n c).released n).phase n = none :=
    (State.released_phase _ n n).trans (s.toHeld_phase n c)
  refine State.armOk_closed (by rw [hphase]; rfl) (by rw [hphase]; rfl) (State.released_notQueued _ n) ?_ ?_ ?_ fun _ => ?_
  · rw [State.released_arm, s.toHeld_arm n c]
  · rw [State.released_arm, s.toHeld_arm n c]
  · rw [State.released_ratio, s.toHeld_ratio n c]
  · rw [State.released_resv]
    exact ⟨rfl, rfl⟩

theorem State.Others.toHeld (h : s.Others H W P n) (c : HoldCause) : (s.toHeld n c).Others H W P n :=
  h.stay (s.toHeld_aside n c) (s.toHeld_queue n c) (by rw [s.toHeld_resv n c])

theorem State.Others.hold (h : s.Others H W P n) : (s.hold n c).Inv H W P := by
  rw [State.hold_eq]
  exact (h.toHeld c).releaseThen (examines_examine H W P) (s.toHeld_armOk n c)

theorem State.Others.cutFinish (h : s.Others H W P n) : (s.cutFinish n c).Inv H W P := by
  rw [State.cutFinish_eq]
  exact (h.stay (s.toCut_aside n c) rfl rfl).enterSettle (examines_examine H W P)

/-- A hold cause by the phase it finds (R15). -/
theorem State.holdCause_holdable (h : holdablePhase (s.phase n) = true) : s.holdCause n c = s.hold n c := by
  rw [State.holdCause]
  cases hp : s.phase n with
  | none => rw [hp] at h; cases h
  | some p =>
    rw [hp] at h
    cases p with
    | headerWait | low | high | taper => rfl
    | finish | settle => cases h

theorem State.holdCause_finish (h : s.phase n = some .finish) : s.holdCause n c = s.cutFinish n c := by
  rw [State.holdCause, h]

theorem State.holdCause_none (hold : holdablePhase (s.phase n) = false) (hfinish : s.phase n ≠ some .finish) :
    s.holdCause n c = s := by
  rw [State.holdCause]
  cases hp : s.phase n with
  | none => rfl
  | some p =>
    rw [hp] at hold hfinish
    cases p with
    | headerWait | low | high | taper => cases hold
    | finish => exact absurd rfl hfinish
    | settle => rfl

/-- A hold cause makes of an arm, wherever it stands, one that meets the invariant. -/
theorem State.Others.holdCause (h : s.Others H W P n) (hn : holdablePhase (s.phase n) = false → s.ArmOk H P n) :
    (s.holdCause n c).Inv H W P := by
  by_cases hold : holdablePhase (s.phase n) = true
  · rw [State.holdCause_holdable hold]
    exact h.hold
  · by_cases hfinish : s.phase n = some .finish
    · rw [State.holdCause_finish hfinish]
      exact h.cutFinish
    · rw [State.holdCause_none (by simpa using hold) hfinish]
      exact h.inv (hn (by simpa using hold))

/-- An arm whose record may not be held needs no permission. -/
theorem State.ArmOk.permit_of_phase (h : s.ArmOk H P n) (hold : holdablePhase (s.phase n) = false) : s.ArmOk H Q n :=
  ⟨h.requests, fun l hl hphase => absurd hphase (by rw [← State.phase_eq hl, hold]; decide), h.valve, h.setpoint, h.header⟩

/-- Permissions but for one arm. -/
def exceptArm (P : ArmId → Nat → Prop) (n : ArmId) : ArmId → Nat → Prop := fun m k => P m k ∧ m ≠ n

/-- After a hold cause the arm flows on no recipe any more. -/
theorem State.Inv.holdCause (h : s.Inv H W P) : (s.holdCause n c).Inv H W (exceptArm P n) :=
  ((h.others n).permit fun _ hm _ hk => ⟨hk, hm⟩).holdCause fun hold => (h.arms n).permit_of_phase hold

theorem State.Inv.holdCause' (h : s.Inv H W P) : (s.holdCause n c).Inv H W P := h.holdCause.permit fun _ _ => And.left

/-! ## Latching and detections (R169) -/

theorem mem_insertOnce {α : Type} [DecidableEq α] {a b : α} {l : List α} : b ∈ insertOnce a l ↔ b ∈ l ∨ b = a := by
  rw [insertOnce]
  split
  · rename_i h
    exact ⟨Or.inl, fun hb => hb.elim id fun hb => hb ▸ h⟩
  · simp

theorem State.latch_latchedClass (s : State) (n : ArmId) (k : AlarmKind) (c : AlarmClass) :
    (s.latch n k).latchedClass n c = true ↔ s.latchedClass n c = true ∨ s.classOf k = c := by
  rw [State.latchedClass_iff, State.latchedClass_iff]
  have hmem (j : AlarmKind) : j ∈ ((s.latch n k).alarm n).latched ↔ j ∈ (s.alarm n).latched ∨ j = k := by
    rw [State.latch, State.modAlarm_alarm_self]
    exact mem_insertOnce
  have hclass (j : AlarmKind) : (s.latch n k).classOf j = s.classOf j := rfl
  simp only [hmem, hclass]
  constructor
  · rintro ⟨j, hj | rfl, hc⟩
    · exact Or.inl ⟨j, hj, hc⟩
    · exact Or.inr hc
  · rintro (⟨j, hj, hc⟩ | hc)
    · exact ⟨j, Or.inl hj, hc⟩
    · exact ⟨k, Or.inr rfl, hc⟩

/-- A change of an arm's alarms that gives it no STOP alarm it may not have. -/
theorem State.ArmOk.modAlarm (h : s.ArmOk H P n) {f : ArmAlarms → ArmAlarms}
    (hf : holdablePhase (s.phase n) = true → s.latchedClass n .stop = false →
      (s.modAlarm n f).latchedClass n .stop = false) : (s.modAlarm n f).ArmOk H P n :=
  ⟨h.requests, fun l hl hphase => by
    obtain ⟨hP, hlatched⟩ := h.allowed l hl hphase
    exact ⟨hP, hf (by rw [State.phase_eq (s := s) hl]; exact hphase) hlatched⟩,
    h.valve, h.setpoint, fun hH => ⟨(h.header hH).lowExact, (h.header hH).highCovers, (h.header hH).noneHeld,
      (h.header hH).held, (h.header hH).queuedLow, (h.header hH).clamped, (h.header hH).target⟩⟩

theorem State.Inv.detect (h : s.Inv H W P) (k : AlarmKind) : (s.detect n k).Inv H W P := by
  have hothers : (s.latch n k).Others H W P n := (h.others n).stay (s.modAlarm_aside n _) rfl rfl
  rw [State.detect]
  split
  · exact h
  · rename_i hclass
    refine hothers.inv ((h.arms n).modAlarm fun _ hlatched => ?_)
    have hiff := s.latch_latchedClass n k .stop
    rw [hlatched, hclass] at hiff
    exact Bool.eq_false_iff.mpr fun hx => by simpa using hiff.mp hx
  · exact hothers.holdCause fun hold => (h.arms n).modAlarm fun hphase => by
      rw [show holdablePhase (s.phase n) = false from hold] at hphase
      cases hphase

theorem State.Inv.detectIf (h : s.Inv H W P) (b : Bool) (k : AlarmKind) : (s.detectIf b n k).Inv H W P := by
  rw [State.detectIf]
  split
  · exact h.detect k
  · exact h

end

end Sys2Proof.Machine
end

section
/-! SUPPORT. The load table and the recipe table (R1, R7, R31, R33) under the operations that keep every record's place,
and under promotion, an end, staging and retirement. -/

namespace Sys2Proof.Machine

/-! ## Lists by their ranks (R7) -/

/-- The places of an arm's records, in the order of its list. -/
def State.ranks (s : State) (n : ArmId) : List Nat := (s.armList n).map (·.state.rank)

theorem LoadState.rank_le (x : LoadState) : x.rank ≤ 2 := by cases x <;> decide

theorem Load.isActive_iff_rank (l : Load) : l.isActive = true ↔ l.state.rank = 1 := by
  rw [Load.isActive]
  cases l.state <;> decide

theorem Load.staged_iff_rank (l : Load) : l.state = .staged ↔ l.state.rank = 2 := by cases l.state <;> decide

theorem count_ranks (ls : List Load) (k : Nat) (p : Load → Bool) (hp : ∀ l, p l = true ↔ l.state.rank = k) :
    (ls.filter p).length = (ls.map (·.state.rank)).count k := by
  rw [List.count, List.countP_map, List.countP_eq_length_filter]
  congr 2
  funext l
  rw [Bool.eq_iff_iff, hp]
  simp

/-- The lists' order and bounds, on the ranks alone. -/
structure RanksOk (r : List Nat) : Prop where
  oneActive : r.count 1 ≤ 1
  threeStaged : r.count 2 ≤ 3
  order : r.Pairwise (· ≤ ·)

theorem State.stagedCount_eq (s : State) (n : ArmId) : s.stagedCount n = (s.ranks n).count 2 := by
  rw [State.ranks, ← count_ranks _ 2 (fun l => l.state == .staged) fun l => by simp [l.staged_iff_rank], State.armList,
    List.filter_filter, State.stagedCount]
  congr 2
  funext l
  rw [Bool.and_comm]

theorem State.listsOk_iff (s : State) : s.ListsOk ↔ ∀ n, RanksOk (s.ranks n) := by
  have hactive (n : ArmId) := count_ranks (s.armList n) 1 Load.isActive Load.isActive_iff_rank
  have horder (n : ArmId) : (s.ranks n).Pairwise (· ≤ ·) ↔ (s.armList n).Pairwise fun a b => a.state.rank ≤ b.state.rank :=
    List.pairwise_map
  constructor
  · intro h n
    exact ⟨(hactive n).symm.le.trans (h.oneActive n), (s.stagedCount_eq n).symm.le.trans (h.threeStaged n),
      (horder n).mpr (h.order n)⟩
  · intro h
    exact ⟨fun n => (hactive n).le.trans (h n).oneActive, fun n => (s.stagedCount_eq n).le.trans (h n).threeStaged,
      fun n => (horder n).mp (h n).order⟩

theorem RanksOk.sublist {r r' : List Nat} (h : RanksOk r) (hs : r'.Sublist r) : RanksOk r' :=
  ⟨(hs.count_le 1).trans h.oneActive, (hs.count_le 2).trans h.threeStaged, h.order.sublist hs⟩

/-! ## Places kept -/

/-- What a record keeps while its place in its list stays. -/
def Load.place (l : Load) : (Nat × ArmId × Nat) × Nat := (l.key, l.state.rank)

/-- Every record stands where it stood. -/
structure Placed (s t : State) : Prop where
  places : t.loads.map Load.place = s.loads.map Load.place

section
variable {s t u : State} {n : ArmId}

theorem Placed.refl (s : State) : Placed s s := ⟨rfl⟩

theorem Placed.trans (h : Placed s t) (k : Placed t u) : Placed s u := ⟨k.places.trans h.places⟩

theorem Placed.of_loads (h : t.loads = s.loads) : Placed s t := ⟨by rw [h]⟩

theorem Placed.foldl {α : Type} (op : State → α → State) (h : ∀ s a, Placed s (op s a)) (s : State) (l : List α) :
    Placed s (l.foldl op s) := by
  induction l generalizing s with
  | nil => exact .refl s
  | cons a rest ih => exact (h s a).trans (ih (op s a))

theorem Placed.ite {c : Prop} [Decidable c] (h : Placed s t) (k : Placed s u) : Placed s (if c then t else u) := by
  split
  · exact h
  · exact k

theorem Placed.ranks (h : Placed s t) (n : ArmId) : t.ranks n = s.ranks n := by
  have hplace (u : State) : u.ranks n = ((u.loads.map Load.place).filter fun x => x.1.2.1 == n).map (·.2) := by
    rw [List.filter_map, List.map_map]
    rfl
  rw [hplace, hplace, h.places]

theorem Placed.lists (h : Placed s t) (hs : s.ListsOk) : t.ListsOk := by
  rw [State.listsOk_iff] at *
  intro n
  rw [h.ranks]
  exact hs n

theorem Placed.loads_nil (h : Placed s t) (hs : s.loads = []) : t.loads = [] := by
  have hplaces := h.places
  rw [hs, List.map_nil] at hplaces
  exact List.map_eq_nil_iff.mp hplaces

theorem Flows.placed {A : ArmId → Prop} (h : Flows A s t) : Placed s t := by
  have hplace (u : State) : u.loads.map Load.place = (u.loads.map Load.core).map Load.place := by
    rw [List.map_map]
    rfl
  exact ⟨by rw [hplace, hplace s, h.loads]⟩

theorem State.modActive_placed (s : State) (n : ArmId) {f : Load → Load} (hf : ∀ l, (f l).key = l.key)
    (ha : ∀ l, l.isActive = true → (f l).isActive = true) : Placed s (s.modActive n f) := by
  refine ⟨?_⟩
  rw [State.modActive, State.withLoads_loads, List.map_map]
  refine List.map_congr_left fun l _ => ?_
  simp only [Function.comp_apply]
  split
  · rename_i h
    simp only [Bool.and_eq_true] at h
    have hrank := (Load.isActive_iff_rank _).mp (ha l h.2)
    rw [Load.place, Load.place, hf, hrank, (Load.isActive_iff_rank l).mp h.2]
  · rfl

theorem State.modLoad_placed (s : State) (k : Nat) {f : Load → Load} (hf : ∀ l, (f l).place = l.place) :
    Placed s (s.modLoad k f) := by
  refine ⟨?_⟩
  rw [State.modLoad, State.withLoads_loads, List.map_map]
  refine List.map_congr_left fun l _ => ?_
  simp only [Function.comp_apply, apply_ite Load.place, hf, ite_self]

/-! ## The tables (R1, R31, R33) -/

theorem namedBy_keys (s : State) (k : Nat) : s.namedBy k = (s.loads.map Load.key).countP fun x => x.2.2 == k := by
  rw [List.countP_map, State.namedBy, List.countP_eq_length_filter]
  rfl

/-- The tables stand when the recipes do and every record keeps its number, arm and recipe. -/
theorem State.TablesOk.of_keys (h : s.TablesOk) (hkeys : t.loads.map Load.key = s.loads.map Load.key)
    (hrecipes : t.recipes = s.recipes) : t.TablesOk := by
  have hnumber (u : State) : u.loads.map (·.number) = (u.loads.map Load.key).map (·.1) := by
    rw [List.map_map]
    rfl
  refine ⟨?_, ?_, ?_, ?_, ?_, ?_, ?_⟩
  · have hlength := congrArg List.length hkeys
    rw [List.length_map, List.length_map] at hlength
    rw [hlength]
    exact h.loadsFit
  · rw [hnumber, hkeys, ← hnumber]
    exact h.loadNumbers
  · rw [hrecipes]
    exact h.recipesFit
  · rw [hrecipes]
    exact h.recipeNumbers
  · intro r hr
    rw [hrecipes] at hr
    rw [namedBy_keys, hkeys, ← namedBy_keys]
    exact h.counts r hr
  · intro l hl
    have hkey : l.key ∈ s.loads.map Load.key := hkeys ▸ List.mem_map_of_mem hl
    obtain ⟨k, hk, hkl⟩ := List.mem_map.mp hkey
    have hrecipe : k.recipe = l.recipe := congrArg (fun x => x.2.2) hkl
    rw [State.recipe?, hrecipes, ← hrecipe]
    exact h.named k hk
  · intro r hr
    rw [hrecipes] at hr
    exact h.retiring r hr

theorem Keeps.tables (h : Keeps s t) (hs : s.TablesOk) : t.TablesOk := hs.of_keys h.keys h.recipes

/-! ## One active record (R7) -/

/-- An active record of the table is its arm's active record. -/
theorem State.ListsOk.active_of_mem (h : s.ListsOk) {l : Load} (hl : l ∈ s.loads) (ha : l.isActive = true) :
    s.active l.arm = some l := by
  have hone := h.oneActive l.arm
  have hmem : l ∈ (s.armList l.arm).filter Load.isActive :=
    List.mem_filter.mpr ⟨List.mem_filter.mpr ⟨hl, by simp⟩, ha⟩
  rw [State.active_eq_find, ← List.head?_filter]
  cases hlist : (s.armList l.arm).filter Load.isActive with
  | nil => rw [hlist] at hmem; cases hmem
  | cons x rest =>
    rw [hlist, List.length_cons] at hone
    have hrest : rest = [] := List.length_eq_zero_iff.mp (by omega)
    rw [hlist, hrest, List.mem_singleton] at hmem
    rw [hmem]
    rfl

/-! ## Promotion (R8) -/

theorem State.oldestStaged_spec {l : Load} (h : s.oldestStaged n = some l) : l ∈ s.loads ∧ l.arm = n ∧ l.state = .staged := by
  have hl := List.find?_some h
  simp only [Bool.and_eq_true, beq_iff_eq] at hl
  exact ⟨List.mem_of_find?_eq_some h, hl⟩

/-- A record promoted (R8). -/
def Load.readied (l : Load) : Load := { l with state := .ready }

/-- The arm's oldest STAGED record made READY. -/
def State.readied (s : State) (l : Load) : State := s.modLoad l.number Load.readied

theorem State.promote_eq (s : State) (n : ArmId) : s.promote n =
    if (s.active n).isNone && (s.arm n).mode == .available then
      match s.oldestStaged n with
      | some l => s.readied l
      | none => s
    else s := rfl

/-- A promotion happens, or nothing does. -/
theorem State.promote_cases (s : State) (n : ArmId) : s.promote n = s ∨
    ∃ l, s.active n = none ∧ (s.arm n).mode = .available ∧ s.oldestStaged n = some l ∧ s.promote n = s.readied l := by
  rw [State.promote_eq]
  split
  · rename_i h
    simp only [Bool.and_eq_true, Option.isNone_iff_eq_none, beq_iff_eq] at h
    cases hl : s.oldestStaged n with
    | none => exact Or.inl rfl
    | some l => exact Or.inr ⟨l, h.1, h.2, rfl, rfl⟩
  · exact Or.inl rfl

/-- The numbers being unlike, a promotion changes one record, and the first STAGED one of its arm's list. -/
theorem State.readied_armList (hn : (s.loads.map (·.number)).Nodup) {l : Load} (hl : s.oldestStaged n = some l) :
    ∃ before after, s.armList n = before ++ l :: after ∧ (∀ k ∈ before, k.state ≠ .staged) ∧
      (s.readied l).armList n = before ++ l.readied :: after := by
  have hfind : (s.armList n).find? (fun k => k.state == .staged) = some l := by
    rw [State.armList, List.find?_filter, ← hl, State.oldestStaged]
    congr 1
    funext k
    rw [Bool.decide_and, Bool.decide_eq_true, Bool.decide_eq_true]
  obtain ⟨-, before, after, hlist, hbefore⟩ := List.find?_eq_some_iff_append.mp hfind
  refine ⟨before, after, hlist, fun k hk => by simpa using hbefore k hk, ?_⟩
  have hnumbers : ((s.armList n).map (·.number)).Nodup := hn.sublist (List.filter_sublist.map _)
  rw [hlist, List.map_append, List.map_cons, List.nodup_append, List.nodup_cons] at hnumbers
  obtain ⟨-, ⟨hafter, -⟩, hapart⟩ := hnumbers
  have hkeep {ks : List Load} (hks : ∀ k ∈ ks, k.number ≠ l.number) :
      ks.map (fun k => if k.number == l.number then k.readied else k) = ks := by
    refine (List.map_congr_left fun k hk => ?_).trans (List.map_id ks)
    simp [hks k hk]
  rw [State.readied, State.modLoad_armList (fun _ => by rfl), hlist, List.map_append, List.map_cons,
    hkeep fun k hk => hapart _ (List.mem_map_of_mem hk) _ List.mem_cons_self,
    hkeep fun k hk hkl => hafter (List.mem_map.mpr ⟨k, hk, hkl⟩)]
  simp

theorem State.readied_armList_ne (hn : (s.loads.map (·.number)).Nodup) {l : Load} (hl : s.oldestStaged n = some l)
    {m : ArmId} (hm : m ≠ n) : (s.readied l).armList m = s.armList m := by
  obtain ⟨hmem, harm, -⟩ := State.oldestStaged_spec hl
  rw [State.readied, State.modLoad_armList fun _ => by rfl]
  refine (List.map_congr_left fun k hk => ?_).trans (List.map_id _)
  obtain ⟨hk, hkm⟩ := List.mem_filter.mp hk
  have hne : k.number ≠ l.number := fun h => hm (by
    rw [← harm, ← List.inj_on_of_nodup_map hn hk hmem h]
    exact (beq_iff_eq.mp hkm).symm)
  simp [hne]

/-- The promoted record is active. -/
theorem State.readied_active (hn : (s.loads.map (·.number)).Nodup) (hnone : s.active n = none) {l : Load}
    (hl : s.oldestStaged n = some l) : (s.readied l).active n = some l.readied := by
  obtain ⟨before, after, hlist, -, hnew⟩ := State.readied_armList hn hl
  rw [State.active_eq_find, hlist, List.find?_append, Option.or_eq_none_iff] at hnone
  rw [State.active_eq_find, hnew, List.find?_append, hnone.1]
  rfl

theorem State.readied_ranks (hn : (s.loads.map (·.number)).Nodup) (hlists : s.ListsOk) (hnone : s.active n = none) {l : Load}
    (hl : s.oldestStaged n = some l) : (s.readied l).ListsOk := by
  rw [State.listsOk_iff] at *
  intro m
  by_cases hm : m = n
  · subst hm
    obtain ⟨before, after, hlist, hbefore, hnew⟩ := State.readied_armList hn hl
    have hstaged : l.state.rank = 2 := (Load.staged_iff_rank l).mp (State.oldestStaged_spec hl).2.2
    have hok := hlists m
    rw [State.ranks, hlist, List.map_append, List.map_cons, hstaged] at hok
    have hready : l.readied.state.rank = 1 := rfl
    rw [State.ranks, hnew, List.map_append, List.map_cons, hready]
    have hlow : ∀ a ∈ before.map (·.state.rank), a = 0 := by
      intro a ha
      obtain ⟨k, hk, rfl⟩ := List.mem_map.mp ha
      have hnot : k.state.rank ≠ 2 := fun h => hbefore k hk ((Load.staged_iff_rank k).mpr h)
      have hinactive : k.state.rank ≠ 1 := fun h => by
        rw [State.active_eq_find, List.find?_eq_none] at hnone
        exact hnone k (by rw [hlist]; exact List.mem_append_left _ hk) ((Load.isActive_iff_rank k).mpr h)
      have hle := LoadState.rank_le k.state
      omega
    have horder := hok.order
    rw [List.pairwise_append, List.pairwise_cons] at horder
    obtain ⟨hbeforeOrder, ⟨hhigh, hafterOrder⟩, -⟩ := horder
    have hcount {ks : List Nat} {x : Nat} (hks : ∀ a ∈ ks, a ≠ x) : ks.count x = 0 :=
      List.count_eq_zero.mpr fun hx => hks x hx rfl
    have h1 := hcount (x := 1) fun a ha => by rw [hlow a ha]; decide
    have h2 := hcount (ks := after.map (·.state.rank)) (x := 1) fun a ha => by have := hhigh a ha; omega
    have h3 := hok.threeStaged
    rw [List.count_append, List.count_cons_self] at h3
    refine ⟨?_, ?_, ?_⟩
    · rw [List.count_append, h1, List.count_cons, h2]
      decide
    · rw [List.count_append, List.count_cons_of_ne (by decide)]
      omega
    · rw [List.pairwise_append, List.pairwise_cons]
      refine ⟨hbeforeOrder, ⟨fun a ha => le_trans (by decide) (hhigh a ha), hafterOrder⟩, fun a ha b _ => ?_⟩
      rw [hlow a ha]
      exact Nat.zero_le b
  · rw [State.ranks, State.readied_armList_ne hn hl hm]
    exact hlists m

theorem State.promote_lists (hn : (s.loads.map (·.number)).Nodup) (h : s.ListsOk) (n : ArmId) : (s.promote n).ListsOk := by
  rcases s.promote_cases n with hsame | ⟨l, hnone, -, hl, hready⟩
  · rwa [hsame]
  · rw [hready]
    exact State.readied_ranks hn h hnone hl

end

end Sys2Proof.Machine
end

section
/-! SUPPORT. The flow's invariant through the other operations of an arm: those that leave what it reads, START and
RESUME, the end of a record, ABORT, an amendment and the stages of a sample. -/

namespace Sys2Proof.Machine

/-! ## What the invariant reads -/

/-- What the invariant reads of a DELIVERING record: its phase, its upgrade and its recipe. -/
def Load.stance (l : Load) : Option (Option Phase × Option Bool × Nat) :=
  if l.state = .delivering then some (l.phase, l.upgradePending, l.recipe) else none

def State.stance (s : State) (n : ArmId) : Option (Option Phase × Option Bool × Nat) := (s.active n).bind Load.stance

/-- The fraction of a recipe by its number (R42). -/
def State.fractionOf (s : State) (k : Nat) : Nat := ((s.recipe? k).map (·.fraction)).getD 0

/-- Nothing the flow's invariant reads is changed, but that a valve may close, alarms may go, and the settings of arms
without a DELIVERING record, and of an idle header, may be others. -/
structure Unmoved (s t : State) : Prop where
  stances : ∀ n, t.stance n = s.stance n
  fractions : ∀ n x, s.stance n = some x → t.fractionOf x.2.2 = s.fractionOf x.2.2
  rates : ∀ n, (s.stance n).isSome = true →
    (t.armCfg n).lowRate = (s.armCfg n).lowRate ∧ (t.armCfg n).highRate = (s.armCfg n).highRate
  latched : ∀ n, (s.stance n).isSome = true → s.latchedClass n .stop = false → t.latchedClass n .stop = false
  targets : ∀ n, (t.arm n).gasTarget = (s.arm n).gasTarget
  valves : ∀ n, (t.arm n).valve = .close ∨ (t.arm n).valve = (s.arm n).valve
  setpoints : ∀ n, (t.ratio n).setpoint = (s.ratio n).setpoint
  reservations : t.reservations = s.reservations
  queue : t.queue = s.queue
  capacity : t.capacity = s.capacity ∨ (s.queue = [] ∧ ∀ n, (s.resv n).level = .none)

section
variable {s t u : State} {n : ArmId} {H W : Prop} {P : ArmId → Nat → Prop}

theorem State.phase_stance (s : State) (n : ArmId) : s.phase n = (s.stance n).bind (·.1) := by
  rw [State.phase, State.stance, Option.bind_assoc]
  congr 1
  funext l
  rw [Load.deliveringPhase, Load.stance]
  split <;> rfl

theorem State.stance_active {l : Load} (hl : s.active n = some l) : s.stance n = l.stance := by
  rw [State.stance, hl, Option.bind_some]

theorem Load.stance_of_phase {l : Load} (h : (l.deliveringPhase).isSome = true) :
    l.stance = some (l.deliveringPhase, l.upgradePending, l.recipe) := by
  obtain ⟨p, hp⟩ := Option.isSome_iff_exists.mp h
  obtain ⟨hstate, hphase⟩ := Load.delivering_of_phase hp
  rw [Load.stance, if_pos hstate, hp, hphase]

/-- An arm whose record is in a phase has its stance. -/
theorem State.stance_isSome (h : (s.phase n).isSome = true) : (s.stance n).isSome = true := by
  rw [State.phase_stance] at h
  cases hs : s.stance n with
  | none => rw [hs] at h; cases h
  | some x => rfl

theorem State.requestFits_stance (s : State) (r : HeaderRequest) : s.requestFits r = match r.kind with
    | .low => (s.stance r.arm).any fun x => x.1 == some .headerWait
    | .upgrade => (s.stance r.arm).any fun x => x.1 == some .low && x.2.1 == some true := by
  rw [State.requestFits]
  cases hs : s.active r.arm with
  | none =>
    rw [State.phase_none hs, State.stance, hs]
    cases r.kind <;> rfl
  | some l =>
    rw [State.phase_eq hs, State.stance_active hs]
    by_cases h : l.state = .delivering
    · rw [Load.deliveringPhase_delivering h, Load.stance, if_pos h]
      cases r.kind <;> rfl
    · rw [Load.deliveringPhase_none h, Load.stance, if_neg h]
      cases r.kind <;> rfl

theorem State.gasTargetFor_stance (s : State) (n : ArmId) : s.gasTargetFor n = match s.stance n with
    | none => 0
    | some x =>
      let f := s.fractionOf x.2.2
      let throttled := fun rate => if 0 < f then min rate (throttleLimit (s.resv n).amount f) else rate
      match x.1 with
      | some .low | some .taper => throttled (s.armCfg n).lowRate
      | some .high => throttled (s.armCfg n).highRate
      | _ => 0 := by
  rw [State.gasTargetFor]
  cases hs : s.active n with
  | none => rw [State.stance, hs]; rfl
  | some l =>
    rw [State.stance_active hs, Load.stance]
    dsimp only
    by_cases h : l.state = .delivering
    · rw [Load.deliveringPhase_delivering h, if_pos h]
      rfl
    · rw [Load.deliveringPhase_none h, if_neg h]

theorem Unmoved.refl (s : State) : Unmoved s s :=
  ⟨fun _ => rfl, fun _ _ _ => rfl, fun _ _ => ⟨rfl, rfl⟩, fun _ _ h => h, fun _ => rfl, fun _ => Or.inr rfl, fun _ => rfl,
    rfl, rfl, Or.inl rfl⟩

theorem Unmoved.resv (h : Unmoved s t) (n : ArmId) : t.resv n = s.resv n := by
  rw [State.resv, State.resv, h.reservations]

theorem Unmoved.trans (h : Unmoved s t) (k : Unmoved t u) : Unmoved s u where
  stances n := (k.stances n).trans (h.stances n)
  fractions n x hx := (k.fractions n x ((h.stances n).trans hx)).trans (h.fractions n x hx)
  rates n hx := by
    obtain ⟨hlow, hhigh⟩ := h.rates n hx
    obtain ⟨klow, khigh⟩ := k.rates n (by rwa [h.stances])
    exact ⟨klow.trans hlow, khigh.trans hhigh⟩
  latched n hx hs := k.latched n (by rwa [h.stances]) (h.latched n hx hs)
  targets n := (k.targets n).trans (h.targets n)
  valves n := by
    rcases k.valves n with hclose | hsame
    · exact Or.inl hclose
    · rw [hsame]
      exact h.valves n
  setpoints n := (k.setpoints n).trans (h.setpoints n)
  reservations := k.reservations.trans h.reservations
  queue := k.queue.trans h.queue
  capacity := by
    rcases h.capacity with hc | hidle
    · refine k.capacity.imp (fun kc => kc.trans hc) fun ⟨kq, kl⟩ => ⟨h.queue.symm.trans kq, fun n => ?_⟩
      rw [← h.resv]
      exact kl n
    · exact Or.inr hidle

theorem Unmoved.foldl {α : Type} (op : State → α → State) (h : ∀ s a, Unmoved s (op s a)) (s : State) (l : List α) :
    Unmoved s (l.foldl op s) := by
  induction l generalizing s with
  | nil => exact .refl s
  | cons a rest ih => exact (h s a).trans (ih (op s a))

theorem Unmoved.ite {c : Prop} [Decidable c] (h : Unmoved s t) (k : Unmoved s u) : Unmoved s (if c then t else u) := by
  split
  · exact h
  · exact k

theorem Unmoved.phase (h : Unmoved s t) (n : ArmId) : t.phase n = s.phase n := by
  rw [State.phase_stance, State.phase_stance, h.stances]

theorem Unmoved.requestFits (h : Unmoved s t) (r : HeaderRequest) : t.requestFits r = s.requestFits r := by
  rw [State.requestFits_stance, State.requestFits_stance, h.stances]

theorem Unmoved.gasTargetFor (h : Unmoved s t) (n : ArmId) : t.gasTargetFor n = s.gasTargetFor n := by
  rw [State.gasTargetFor_stance, State.gasTargetFor_stance, h.stances, h.resv]
  cases hs : s.stance n with
  | none => rfl
  | some x =>
    obtain ⟨hlow, hhigh⟩ := h.rates n (by rw [hs]; rfl)
    simp only [h.fractions n x hs, hlow, hhigh]

/-- The stance of a record in a phase names its recipe. -/
theorem Unmoved.active_back (h : Unmoved s t) {l : Load} (hl : t.active n = some l)
    (hphase : (l.deliveringPhase).isSome = true) :
    ∃ k, s.active n = some k ∧ k.deliveringPhase = l.deliveringPhase ∧ k.recipe = l.recipe := by
  have hs := h.stances n
  rw [State.stance_active hl, Load.stance_of_phase hphase] at hs
  cases hk : s.active n with
  | none => rw [State.stance, hk] at hs; cases hs
  | some k =>
    rw [State.stance_active hk, Load.stance] at hs
    by_cases hstate : k.state = .delivering
    · rw [if_pos hstate] at hs
      obtain ⟨hp, hrest⟩ := Prod.mk.inj (Option.some.inj hs)
      exact ⟨k, rfl, (Load.deliveringPhase_delivering hstate).trans hp.symm, (Prod.mk.inj hrest).2.symm⟩
    · rw [if_neg hstate] at hs
      cases hs

theorem isSome_of_holdable {p : Option Phase} (h : holdablePhase p = true) : p.isSome = true := by
  cases p with
  | none => cases h
  | some p => rfl

theorem State.ArmOk.unmoved (h : s.ArmOk H P n) (hu : Unmoved s t) : t.ArmOk H P n where
  requests r hr hrn := by
    rw [hu.requestFits]
    exact h.requests r (hu.queue ▸ hr) hrn
  allowed l hl hphase := by
    obtain ⟨k, hk, hkphase, hrecipe⟩ := hu.active_back hl (isSome_of_holdable hphase)
    rw [← hkphase] at hphase
    rw [← hrecipe]
    refine (h.allowed k hk hphase).imp_right (hu.latched n (State.stance_isSome ?_))
    rw [State.phase_eq hk]
    exact isSome_of_holdable hphase
  valve hv := by
    rw [hu.phase]
    refine h.valve fun hs => hv ?_
    rcases hu.valves n with hclose | hsame
    · exact hclose
    · rw [hsame, hs]
  setpoint hp := by
    rw [hu.phase]
    exact h.setpoint (by rw [← hu.setpoints n]; exact hp)
  header hH := by
    have hh := h.header hH
    constructor
    · rw [hu.resv]; exact hh.lowExact
    · rw [hu.resv]; exact hh.highCovers
    · rw [hu.resv]; exact hh.noneHeld
    · rw [hu.resv, hu.phase]; exact hh.held
    · rw [hu.resv, hu.queue]; exact hh.queuedLow
    · rw [hu.resv, hu.setpoints]; exact hh.clamped
    · rw [hu.targets, hu.gasTargetFor]; exact hh.target

theorem State.Inv.unmoved (h : s.Inv H W P) (hu : Unmoved s t) : t.Inv H W P := by
  have hsum := State.heldSum_of_reservations hu.reservations
  refine ⟨by rw [hu.queue]; exact h.oneRequest, fun n => (h.arms n).unmoved hu, fun hH hc => ?_, fun hW r hr => ?_⟩
  · rw [hsum]
    rcases hu.capacity with hsame | ⟨-, hnone⟩
    · rw [hsame] at hc ⊢
      exact h.within hH hc
    · have hzero : s.heldSum = 0 := by
        rw [State.heldSum, List.sum_eq_zero_iff]
        intro x hx
        obtain ⟨n, -, rfl⟩ := List.mem_map.mp hx
        exact ((h.arms n).header hH).noneHeld (hnone n)
      omega
  · rw [hu.queue] at hr
    rcases hu.capacity with hsame | ⟨hempty, -⟩
    · rw [hsum, hsame]
      exact h.waits hW r hr
    · rw [hempty] at hr
      cases hr

/-! ## Updates that leave what the invariant reads -/

/-- Nothing the invariant reads is touched. -/
theorem Unmoved.of_kept (hloads : t.loads = s.loads) (hrecipes : t.recipes = s.recipes) (hsettings : t.settings = s.settings)
    (halarms : t.alarms = s.alarms) (harms : t.arms = s.arms) (hratios : t.ratios = s.ratios)
    (hreservations : t.reservations = s.reservations) (hqueue : t.queue = s.queue) : Unmoved s t where
  stances n := by rw [State.stance, State.stance, State.active, State.active, hloads]
  fractions _ _ _ := by rw [State.fractionOf, State.fractionOf, State.recipe?, State.recipe?, hrecipes]
  rates _ _ := by rw [State.armCfg, State.armCfg, hsettings]; exact ⟨rfl, rfl⟩
  latched n _ hs := by simpa only [State.latchedClass, State.alarm, halarms, State.classOf, hsettings] using hs
  targets n := by rw [State.arm, State.arm, harms]
  valves n := by rw [State.arm, State.arm, harms]; exact Or.inr rfl
  setpoints n := by rw [State.ratio, State.ratio, hratios]
  reservations := hreservations
  queue := hqueue
  capacity := Or.inl (by rw [State.capacity, State.capacity, hsettings])

theorem State.withNow_unmoved (s : State) (x : Nat) : Unmoved s (s.withNow x) :=
  .of_kept rfl rfl rfl rfl rfl rfl rfl rfl

theorem State.withLink_unmoved (s : State) (x : Link) : Unmoved s (s.withLink x) :=
  .of_kept rfl rfl rfl rfl rfl rfl rfl rfl

theorem State.withStore_unmoved (s : State) (x : Store) : Unmoved s (s.withStore x) :=
  .of_kept rfl rfl rfl rfl rfl rfl rfl rfl

theorem State.withPending_unmoved (s : State) (x : List Instr) : Unmoved s (s.withPending x) :=
  .of_kept rfl rfl rfl rfl rfl rfl rfl rfl

theorem State.withMemory_unmoved (s : State) (x : Memory) : Unmoved s (s.withMemory x) :=
  .of_kept rfl rfl rfl rfl rfl rfl rfl rfl

theorem State.withPort_unmoved (s : State) (x : TempPort) : Unmoved s (s.withPort x) :=
  .of_kept rfl rfl rfl rfl rfl rfl rfl rfl

theorem State.withLevels_unmoved (s : State) (x : PermLevels) : Unmoved s (s.withLevels x) :=
  .of_kept rfl rfl rfl rfl rfl rfl rfl rfl

theorem State.withButtons_unmoved (s : State) (x : ButtonLevels) : Unmoved s (s.withButtons x) :=
  .of_kept rfl rfl rfl rfl rfl rfl rfl rfl

theorem State.withStationAlarms_unmoved (s : State) (x : List StationAlarm) : Unmoved s (s.withStationAlarms x) :=
  .of_kept rfl rfl rfl rfl rfl rfl rfl rfl

theorem State.modMeter_unmoved (s : State) (m : MeterId) (f : Meter → Meter) : Unmoved s (s.modMeter m f) :=
  .of_kept rfl rfl rfl rfl rfl rfl rfl rfl

theorem State.setMeter_unmoved (s : State) (m : MeterId) (x : Meter) : Unmoved s (s.setMeter m x) :=
  .of_kept rfl rfl rfl rfl rfl rfl rfl rfl

theorem State.modChannel_unmoved (s : State) (m : MeterId) (f : TempChannel → TempChannel) : Unmoved s (s.modChannel m f) :=
  .of_kept rfl rfl rfl rfl rfl rfl rfl rfl

theorem State.modInjector_unmoved (s : State) (i : InjId) (f : Injector → Injector) : Unmoved s (s.modInjector i f) :=
  .of_kept rfl rfl rfl rfl rfl rfl rfl rfl

theorem State.modArm_unmoved (s : State) (n : ArmId) {f : ArmSeq → ArmSeq}
    (ht : (f (s.arm n)).gasTarget = (s.arm n).gasTarget)
    (hv : (f (s.arm n)).valve = .close ∨ (f (s.arm n)).valve = (s.arm n).valve) : Unmoved s (s.modArm n f) := by
  refine { Unmoved.refl s with targets := fun m => ?_, valves := fun m => ?_ }
  · rw [State.modArm_arm]
    split
    · rename_i h
      rw [h, ht]
    · rfl
  · rw [State.modArm_arm]
    split
    · rename_i h
      rw [h]
      exact hv
    · exact Or.inr rfl

theorem State.modRatio_unmoved (s : State) (n : ArmId) {f : Ratio → Ratio} (hf : ∀ r, (f r).setpoint = r.setpoint) :
    Unmoved s (s.modRatio n f) := by
  refine { Unmoved.refl s with setpoints := fun m => ?_ }
  rw [State.modRatio_ratio]
  split
  · rename_i h
    rw [h]
    exact hf _
  · rfl

/-- A change of an arm's alarms that latches none. -/
theorem State.modAlarm_unmoved (s : State) (n : ArmId) {f : ArmAlarms → ArmAlarms}
    (hf : ∀ a, (f a).latched.Sublist a.latched) : Unmoved s (s.modAlarm n f) := by
  refine { Unmoved.refl s with latched := fun m _ hs => ?_ }
  rw [Bool.eq_false_iff, ne_eq, State.latchedClass_iff] at *
  rintro ⟨k, hk, hc⟩
  refine hs ⟨k, ?_, hc⟩
  rw [State.modAlarm_alarm] at hk
  split at hk
  · rename_i h
    rw [h]
    exact (hf _).subset hk
  · exact hk

theorem Load.isActive_congr {k l : Load} (h : k.state = l.state) : k.isActive = l.isActive := by
  rw [Load.isActive, Load.isActive, h]

/-- Records changed one by one, every stance kept. -/
theorem State.withLoads_unmoved (s : State) {g : Load → Load} (ha : ∀ l, (g l).arm = l.arm)
    (hi : ∀ l, (g l).isActive = l.isActive) (hf : ∀ l, (g l).stance = l.stance) :
    Unmoved s (s.withLoads (s.loads.map g)) := by
  refine { Unmoved.refl s with stances := fun m => ?_ }
  have hactive : (s.withLoads (s.loads.map g)).active m = (s.active m).map g :=
    find?_map_of_iff fun l _ => by rw [ha, hi]
  rw [State.stance, State.stance, hactive, Option.bind_map]
  congr 1
  funext l
  exact hf l

theorem State.modActive_unmoved (s : State) (n : ArmId) {f : Load → Load} (ha : ∀ l, (f l).arm = l.arm)
    (hs : ∀ l, (f l).state = l.state) (hf : ∀ l, (f l).stance = l.stance) : Unmoved s (s.modActive n f) :=
  s.withLoads_unmoved (fun l => by simp only [apply_ite Load.arm, ha, ite_self])
    (fun l => by simp only [apply_ite Load.isActive, Load.isActive_congr (hs l), ite_self])
    fun l => by simp only [apply_ite Load.stance, hf, ite_self]

theorem State.modLoad_unmoved (s : State) (k : Nat) {f : Load → Load} (ha : ∀ l, (f l).arm = l.arm)
    (hs : ∀ l, (f l).state = l.state) (hf : ∀ l, (f l).stance = l.stance) : Unmoved s (s.modLoad k f) :=
  s.withLoads_unmoved (fun l => by simp only [apply_ite Load.arm, ha, ite_self])
    (fun l => by simp only [apply_ite Load.isActive, Load.isActive_congr (hs l), ite_self])
    fun l => by simp only [apply_ite Load.stance, hf, ite_self]

theorem Issues.unmoved (h : Issues s t) : Unmoved s t := by
  have hstances (n : ArmId) : t.stance n = s.stance n := by
    have hstill (u : State) : u.stance n = ((u.active n).map Load.still).bind Load.stance := by
      rw [State.stance, Option.bind_map]
      rfl
    rw [hstill, hstill s, h.active_map]
  have hclass (n : ArmId) : t.latchedClass n .stop = s.latchedClass n .stop := by
    simp only [State.latchedClass, State.alarm, h.alarms, State.classOf, h.settings]
  exact {
    stances := hstances
    fractions := fun _ _ _ => by rw [State.fractionOf, State.fractionOf, State.recipe?, State.recipe?, h.recipes]
    rates := fun _ _ => by rw [State.armCfg, State.armCfg, h.settings]; exact ⟨rfl, rfl⟩
    latched := fun n _ hs => by rwa [hclass]
    targets := fun n => by rw [h.arm]
    valves := fun n => by rw [h.arm]; exact Or.inr rfl
    setpoints := fun n => by rw [h.ratio]
    reservations := h.reservations
    queue := h.queue
    capacity := Or.inl (by rw [State.capacity, State.capacity, h.settings]) }

theorem OnlyInjectors.unmoved (h : OnlyInjectors s t) : Unmoved s t := h.issues.unmoved

end

end Sys2Proof.Machine
end

section
/-! SUPPORT. START and RESUME, promotion, the end of a record, ABORT and amendments keep the flow's invariant (R8, R16,
R19, R25, R98 to R102). -/

namespace Sys2Proof.Machine

section
variable {s t : State} {n : ArmId} {H W : Prop} {P : ArmId → Nat → Prop}

/-! ## The LOW request of START and RESUME (R98, R132) -/

/-- The amount the arm's active record asks for at LOW. -/
def State.lowAsked (s : State) (n : ArmId) : Nat := s.lowAmountFor n (((s.active n).map s.fraction).getD 0)

/-- The low amount set at the LOW request. -/
def State.lowSet (s : State) (n : ArmId) : State := s.modResv n fun r => { r with lowAmount := s.lowAsked n }

/-- The reservation a LOW request granted at once sets. -/
def State.lowGranted (s : State) (n : ArmId) : State :=
  (s.lowSet n).modResv n fun r => { r with level := .low, amount := s.lowAsked n }

/-- The LOW request queued, before the entry to HEADER_WAIT. -/
def State.lowQueued (s : State) (n : ArmId) : State := (s.lowSet n).enqueue ⟨n, .low, s.lowAsked n⟩

theorem State.lowSet_resv (s : State) (n : ArmId) : (s.lowSet n).resv n = { s.resv n with lowAmount := s.lowAsked n } :=
  s.modResv_resv_self n _

theorem State.lowGranted_resv (s : State) (n : ArmId) :
    (s.lowGranted n).resv n = { level := .low, amount := s.lowAsked n, lowAmount := s.lowAsked n } := by
  rw [State.lowGranted, State.modResv_resv_self, State.lowSet_resv]

theorem State.lowSet_flows (s : State) (n : ArmId) : Flows (· = n) s (s.lowSet n) := s.modResv_flows n _

theorem State.lowGranted_flows (s : State) (n : ArmId) : Flows (· = n) s (s.lowGranted n) :=
  (s.lowSet_flows n).trans (State.modResv_flows _ n _)

theorem State.lowQueued_flows (s : State) (n : ArmId) : Flows (· = n) s (s.lowQueued n) :=
  (s.lowSet_flows n).trans (State.enqueue_flows _ ⟨n, .low, s.lowAsked n⟩)

theorem State.lowSet_heldSum (s : State) (n : ArmId) : (s.lowSet n).heldSum = s.heldSum := by
  have hsum := (s.lowSet_flows n).aside.heldSum
  rw [State.lowSet_resv] at hsum
  dsimp only at hsum
  omega

/-- The low amount set changes nothing a grant is judged by. -/
theorem State.lowSet_grantsAtOnce (s : State) (n : ArmId) (a : Nat) : (s.lowSet n).grantsAtOnce a = s.grantsAtOnce a := by
  rw [State.grantsAtOnce, State.grantsAtOnce, State.fits, State.fits, State.lowSet_heldSum]
  rfl

theorem State.requestLow_granted (h : s.grantsAtOnce (s.lowAsked n) = true) :
    s.requestLow n (((s.active n).map s.fraction).getD 0) = (s.lowGranted n, true) := by
  rw [← s.lowSet_grantsAtOnce n] at h
  rw [State.requestLow]
  exact if_pos h

theorem State.requestLow_queued (h : s.grantsAtOnce (s.lowAsked n) = false) :
    s.requestLow n (((s.active n).map s.fraction).getD 0) = (s.lowQueued n, false) := by
  rw [← s.lowSet_grantsAtOnce n] at h
  rw [State.requestLow]
  exact if_neg (ne_true_of_eq_false h)

theorem State.askHeader_granted (h : s.grantsAtOnce (s.lowAsked n) = true) :
    s.askHeader n = (s.lowGranted n).enterLow State.examine n := by
  rw [State.askHeader, State.requestLow_granted h]

theorem State.askHeader_queued (h : s.grantsAtOnce (s.lowAsked n) = false) :
    s.askHeader n = (s.lowQueued n).enterHeaderWait n := by
  rw [State.askHeader, State.requestLow_queued h]

/-! ## HEADER_WAIT -/

theorem State.enterHeaderWait_active (s : State) (n : ArmId) : (s.enterHeaderWait n).active n =
    (s.active n).map fun l => { l with phase := some .headerWait, upgradePending := none } :=
  s.setPhase_active n .headerWait none

theorem State.enterHeaderWait_arm (s : State) (n : ArmId) :
    (s.enterHeaderWait n).arm n = { s.arm n with valve := .close, gasTarget := 0 } := by
  simp [State.enterHeaderWait, State.setPhase, State.modActive]

theorem State.enterHeaderWait_ratio (s : State) (n : ArmId) :
    (s.enterHeaderWait n).ratio n = { s.ratio n with setpoint := 0 } := by
  simp [State.enterHeaderWait, State.setPhase, State.modActive]

/-- HEADER_WAIT behind a queued LOW request of the low amount. -/
theorem State.headerWaitArm (hd : s.Delivers n)
    (hqueue : ∀ r ∈ s.queue, r.arm = n → r.kind = .low ∧ r.amount = (s.resv n).lowAmount)
    (hallowed : ∀ l, s.active n = some l → P n l.recipe ∧ s.latchedClass n .stop = false)
    (hlevel : H → (s.resv n).level = .none ∧ (s.resv n).amount = 0) : (s.enterHeaderWait n).ArmOk H P n := by
  have hphase : (s.enterHeaderWait n).phase n = some .headerWait := State.phase_of_setPhase (s.enterHeaderWait_active n) hd
  have hflows := s.enterHeaderWait_flows n
  refine ⟨fun r hr hrn => ?_, fun l hl _ => ?_, fun hv => ?_, fun hp => ?_, fun hH => ?_⟩
  · rw [State.requestFits, (hqueue r hr hrn).1, hrn, hphase]
    rfl
  · obtain ⟨k, hk, hcore⟩ := hflows.active_some_back hl
    rw [Load.core_recipe hcore, hflows.keeps.latchedClass (hflows.alarm n)]
    exact hallowed k hk
  · rw [s.enterHeaderWait_arm n] at hv
    exact absurd rfl hv
  · rw [s.enterHeaderWait_ratio n] at hp
    exact absurd hp (Nat.lt_irrefl 0)
  · obtain ⟨hnone, hzero⟩ := hlevel hH
    have hresv : (s.enterHeaderWait n).resv n = s.resv n := rfl
    refine ⟨?_, ?_, fun _ => hzero, ?_, fun r hr hrn _ => (hqueue r hr hrn).2, ?_, ?_⟩
    · rw [hresv, hnone]; exact fun h => by cases h
    · rw [hresv, hnone]; exact fun h => by cases h
    · rw [hresv, hnone, hphase]
      exact ⟨fun h => absurd rfl h, fun h => by cases h⟩
    · rw [s.enterHeaderWait_ratio n]
      exact Nat.zero_le _
    · rw [s.enterHeaderWait_arm n, State.gasTargetFor_closed (by rw [hphase]; rfl)]

theorem State.Others.askHeader (h : s.Others H W P n) (hWH : W → H) (hd : s.Delivers n)
    (hqueue : ∀ r ∈ s.queue, r.arm ≠ n)
    (hallowed : ∀ l, s.active n = some l → P n l.recipe ∧ s.latchedClass n .stop = false)
    (hset : (s.ratio n).setpoint = 0) (hlevel : H → (s.resv n).level = .none ∧ (s.resv n).amount = 0) :
    (s.askHeader n).Inv H W P := by
  by_cases hgrant : s.grantsAtOnce (s.lowAsked n) = true
  · rw [State.askHeader_granted hgrant]
    refine (h.grantAtOnce hWH (s.lowGranted_flows n).aside rfl (fun hH => ?_) hgrant).enterLow hWH
      (examines_examine H W P) (State.lowArm hd hqueue hallowed fun hH => ?_)
    · rw [s.lowGranted_resv n, (hlevel hH).2, Nat.zero_add]
    · rw [s.lowGranted_resv n]
      exact ⟨rfl, rfl, hset.le.trans (Nat.zero_le _)⟩
  · have hgrant : s.grantsAtOnce (s.lowAsked n) = false := by simpa using hgrant
    rw [State.askHeader_queued hgrant]
    have hlow : (s.lowSet n).Others H W P n :=
      h.stay (s.lowSet_flows n).aside rfl (by rw [State.lowSet_resv])
    rw [← s.lowSet_grantsAtOnce n] at hgrant
    have hqueued : (s.lowQueued n).Others H W P n :=
      hlow.enqueue (r := ⟨n, .low, s.lowAsked n⟩) rfl hqueue hgrant
    refine (hqueued.stay (State.enterHeaderWait_flows _ n).aside rfl rfl).inv
      (State.headerWaitArm hd (fun r hr hrn => ?_) hallowed fun hH => ?_)
    · rcases List.mem_append.mp hr with hr | hr
      · exact absurd hrn (hqueue r hr)
      · rw [List.mem_singleton.mp hr]
        exact ⟨rfl, congrArg Reservation.lowAmount (s.lowSet_resv n).symm⟩
    · rw [show (s.lowQueued n).resv n = _ from s.lowSet_resv n]
      exact hlevel hH

/-! ## START and RESUME -/

/-- A record as a START makes it DELIVERING, before it has a phase. -/
def Load.started (l : Load) : Load := { l with state := .delivering, abortTaken := some false }

/-- A record as a RESUME makes it DELIVERING, before it has a phase. -/
def Load.resumed (l : Load) : Load := { l with state := .delivering, abortTaken := some false, holdTimer := none }

/-- The arm and its meters at a START, before its LOW request (R50, R98). -/
def State.toStart (s : State) (n : ArmId) : State :=
  ((((((s.modActive n Load.started).modMeter (gasMeter n) Meter.clearForStart).modMeter (ethMeter n)
    Meter.clearForStart).modArm n fun a =>
      { a with holdDrain := 0, qGas := 0, qEth := 0, gasRun := none, ethRun := none, stalled := none }).modRatio n fun r =>
      { r with devRun := none }).restartClock n).maskArm n false

/-- The arm at a RESUME, before its LOW request (R100). -/
def State.toResume (s : State) (n : ArmId) : State :=
  ((((s.modActive n Load.resumed).modArm n fun a =>
      { a with qGas := 0, qEth := 0, gasRun := none, ethRun := none }).modRatio n fun r =>
      { r with devRun := none }).restartClock n).maskArm n false

theorem State.start_eq (s : State) (n : ArmId) : s.start n = (s.toStart n).askHeader n := rfl

theorem State.resume_eq (s : State) (n : ArmId) : s.resume n = (s.toResume n).askHeader n := rfl

theorem State.restartClock_aside (s : State) (n : ArmId) : Aside n s (s.restartClock n) := s.modArm_aside n _

theorem State.toStart_aside (s : State) (n : ArmId) : Aside n s (s.toStart n) :=
  (((((((s.modActive_aside n fun _ => by rfl).trans (State.modMeter_aside _ n _ _)).trans
    (State.modMeter_aside _ n _ _)).trans (State.modArm_aside _ n _)).trans
    (State.modRatio_flows _ n _).aside).trans (State.restartClock_aside _ n)).trans
    ((State.maskArm_onlyInjectors _ n false).aside n))

theorem State.toResume_aside (s : State) (n : ArmId) : Aside n s (s.toResume n) :=
  ((((s.modActive_aside n fun _ => by rfl).trans (State.modArm_aside _ n _)).trans
    (State.modRatio_flows _ n _).aside).trans (State.restartClock_aside _ n)).trans
    ((State.maskArm_onlyInjectors _ n false).aside n)

theorem State.toStart_active (s : State) (n : ArmId) : (s.toStart n).active n = (s.active n).map Load.started :=
  ((State.maskArm_onlyInjectors _ n false).active n).trans
    (State.modActive_active_self (fun _ => by rfl) fun _ _ => by rfl)

theorem State.toResume_active (s : State) (n : ArmId) : (s.toResume n).active n = (s.active n).map Load.resumed :=
  ((State.maskArm_onlyInjectors _ n false).active n).trans
    (State.modActive_active_self (fun _ => by rfl) fun _ _ => by rfl)

theorem State.toStart_ratio (s : State) (n : ArmId) : (s.toStart n).ratio n = { s.ratio n with devRun := none } := by
  rw [State.toStart, (State.maskArm_onlyInjectors _ n false).ratio]
  simp [State.restartClock, State.modActive]

theorem State.toResume_ratio (s : State) (n : ArmId) : (s.toResume n).ratio n = { s.ratio n with devRun := none } := by
  rw [State.toResume, (State.maskArm_onlyInjectors _ n false).ratio]
  simp [State.restartClock, State.modActive]

theorem State.toStart_resv (s : State) (n m : ArmId) : (s.toStart n).resv m = s.resv m :=
  (State.maskArm_onlyInjectors _ n false).resv m

theorem State.toResume_resv (s : State) (n m : ArmId) : (s.toResume n).resv m = s.resv m :=
  (State.maskArm_onlyInjectors _ n false).resv m

theorem State.toStart_queue (s : State) (n : ArmId) : (s.toStart n).queue = s.queue :=
  (State.maskArm_onlyInjectors _ n false).queue

theorem State.toResume_queue (s : State) (n : ArmId) : (s.toResume n).queue = s.queue :=
  (State.maskArm_onlyInjectors _ n false).queue

theorem OnlyInjectors.latchedClass (h : OnlyInjectors s t) (m : ArmId) (c : AlarmClass) :
    t.latchedClass m c = s.latchedClass m c := by
  rw [h]
  rfl

theorem State.toStart_latchedClass (s : State) (n m : ArmId) (c : AlarmClass) :
    (s.toStart n).latchedClass m c = s.latchedClass m c := by
  rw [State.toStart, (State.maskArm_onlyInjectors _ n false).latchedClass]
  rfl

theorem State.toResume_latchedClass (s : State) (n m : ArmId) (c : AlarmClass) :
    (s.toResume n).latchedClass m c = s.latchedClass m c := by
  rw [State.toResume, (State.maskArm_onlyInjectors _ n false).latchedClass]
  rfl

/-- An arm without a phase holds nothing. -/
theorem State.ArmOk.idle (h : s.ArmOk H P n) (hphase : s.phase n = none) :
    (∀ r ∈ s.queue, r.arm ≠ n) ∧ (s.ratio n).setpoint = 0 ∧ (H → (s.resv n).level = .none ∧ (s.resv n).amount = 0) := by
  refine ⟨fun r hr hrn => ?_, ?_, fun hH => ?_⟩
  · have hfit := State.requestFits_phase (h.requests r hr hrn)
    rw [hrn, hphase] at hfit
    cases hfit
  · by_contra hset
    have hblend := h.setpoint (Nat.pos_of_ne_zero hset)
    rw [hphase] at hblend
    cases hblend
  · have hh := h.header hH
    have hnone : (s.resv n).level = .none := by
      by_contra hlevel
      have hblend := hh.held.mp hlevel
      rw [hphase] at hblend
      cases hblend
    exact ⟨hnone, hh.noneHeld hnone⟩

/-- A START or a RESUME of a record that has no phase, from the state it makes before its LOW request. -/
theorem State.Inv.askFrom (h : s.Inv H W P) (hWH : W → H) (hphase : s.phase n = none) {l : Load} (hallowed : P n l.recipe)
    (ha : Aside n s t) (hactive : t.active n = some l) (hstate : l.state = .delivering) (hqueue : t.queue = s.queue)
    (hresv : t.resv n = s.resv n) (hratio : (t.ratio n).setpoint = (s.ratio n).setpoint)
    (hlatched : t.latchedClass n .stop = false) : (t.askHeader n).Inv H W P := by
  obtain ⟨hnone, hset, hlevel⟩ := (h.arms n).idle hphase
  refine ((h.others n).stay ha hqueue (by rw [hresv])).askHeader hWH ⟨l, hactive, hstate⟩ (by rwa [hqueue]) (fun k hk => ?_)
    (hratio.trans hset) (by rwa [hresv])
  rw [hactive] at hk
  rw [← Option.some.inj hk]
  exact ⟨hallowed, hlatched⟩

theorem State.Inv.start (h : s.Inv H W P) (hWH : W → H) {l : Load} (hl : s.active n = some l) (hready : l.state = .ready)
    (hallowed : P n l.recipe) (hlatched : s.latchedClass n .stop = false) : (s.start n).Inv H W P := by
  have hphase : s.phase n = none := by rw [State.phase_eq hl, Load.deliveringPhase_none (by rw [hready]; decide)]
  rw [State.start_eq]
  exact h.askFrom (t := s.toStart n) hWH hphase (l := l.started) hallowed (s.toStart_aside n) (by rw [s.toStart_active n, hl]; rfl) rfl
    (s.toStart_queue n) (s.toStart_resv n n) (by rw [s.toStart_ratio n]) (by rwa [s.toStart_latchedClass])

theorem State.Inv.resume (h : s.Inv H W P) (hWH : W → H) {l : Load} (hl : s.active n = some l) (hheld : l.state = .held)
    (hallowed : P n l.recipe) (hlatched : s.latchedClass n .stop = false) : (s.resume n).Inv H W P := by
  have hphase : s.phase n = none := by rw [State.phase_eq hl, Load.deliveringPhase_none (by rw [hheld]; decide)]
  rw [State.resume_eq]
  exact h.askFrom (t := s.toResume n) hWH hphase (l := l.resumed) hallowed (s.toResume_aside n) (by rw [s.toResume_active n, hl]; rfl) rfl
    (s.toResume_queue n) (s.toResume_resv n n) (by rw [s.toResume_ratio n]) (by rwa [s.toResume_latchedClass])

/-! ## Promotion (R8) -/

theorem State.promote_unmoved (hn : (s.loads.map (·.number)).Nodup) (n : ArmId) : Unmoved s (s.promote n) := by
  rcases s.promote_cases n with hsame | ⟨l, hnone, -, hl, hready⟩
  · rw [hsame]
    exact .refl s
  · rw [hready]
    refine { Unmoved.refl s with stances := fun m => ?_ }
    by_cases hm : m = n
    · rw [hm, State.stance, State.readied_active hn hnone hl, State.stance, hnone]
      rfl
    · rw [State.stance, State.stance, State.active_of_armList (State.readied_armList_ne hn hl hm)]

/-! ## The end of a record (R25 to R27) -/

/-- The arm's record ended and everything closed (R25, R105), before the detections and the promotion. -/
def State.toEnded (s : State) (n : ArmId) (l : Load) (r : EndReason) : State :=
  (((s.modActive n fun l => l.completed r (s.fraction l) (s.tolerance l) (s.armCfg n).overrunLimit).maskArm n true).modArm n
    fun a => { a with
      settle := .stopped
      valve := .close
      gasTarget := 0
      history := if l.teaches r then a.history.teach l.overrunError else a.history }).modRatio n fun q =>
    { q with setpoint := 0 }

/-- The detections of an end (R107, R122). -/
def State.endDetections (s : State) (n : ArmId) (l : Load) (r : EndReason) : State :=
  ((s.toEnded n l r).detectIf (l.offRatio (s.fraction l) (s.tolerance l)) n .offRatio).detectIf
    (l.overrunTooHigh r (s.armCfg n).overrunLimit) n .overrunHigh

theorem State.endRecord_none (h : s.active n = none) (r : EndReason) : s.endRecord n r = s := by
  rw [State.endRecord, h]

theorem State.endRecord_eq {l : Load} (h : s.active n = some l) (r : EndReason) :
    s.endRecord n r = (s.endDetections n l r).promote n := by
  rw [State.endRecord, h]
  rfl

theorem State.toEnded_aside (s : State) (n : ArmId) (l : Load) (r : EndReason) : Aside n s (s.toEnded n l r) :=
  (((s.modActive_aside n fun _ => by rfl).trans ((State.maskArm_onlyInjectors _ n true).aside n)).trans
    (State.modArm_aside _ n _)).trans (State.modRatio_flows _ n _).aside

theorem State.toEnded_active (s : State) (n : ArmId) (l : Load) (r : EndReason) : (s.toEnded n l r).active n = none := by
  rw [State.toEnded, State.modRatio_active, State.modArm_active, (State.maskArm_onlyInjectors _ n true).active]
  exact State.modActive_active_none fun _ => by rfl

theorem State.toEnded_queue (s : State) (n : ArmId) (l : Load) (r : EndReason) : (s.toEnded n l r).queue = s.queue := by
  rw [State.toEnded, State.modRatio_queue, State.modArm_queue, (State.maskArm_onlyInjectors _ n true).queue]
  rfl

theorem State.toEnded_resv (s : State) (n : ArmId) (l : Load) (r : EndReason) (m : ArmId) :
    (s.toEnded n l r).resv m = s.resv m := by
  rw [State.toEnded, State.modRatio_resv, State.modArm_resv, (State.maskArm_onlyInjectors _ n true).resv]
  rfl

theorem State.toEnded_arm (s : State) (n : ArmId) (l : Load) (r : EndReason) : (s.toEnded n l r).arm n = { s.arm n with
    settle := .stopped
    valve := .close
    gasTarget := 0
    history := if l.teaches r then (s.arm n).history.teach l.overrunError else (s.arm n).history } := by
  rw [State.toEnded, State.modRatio_arm, State.modArm_arm_self, (State.maskArm_onlyInjectors _ n true).arm]
  rfl

theorem State.toEnded_ratio (s : State) (n : ArmId) (l : Load) (r : EndReason) :
    (s.toEnded n l r).ratio n = { s.ratio n with setpoint := 0 } := by
  rw [State.toEnded, State.modRatio_ratio_self, State.modArm_ratio, (State.maskArm_onlyInjectors _ n true).ratio]
  rfl

theorem State.Inv.toEnded (h : s.Inv H W P) (hblend : blendingPhase (s.phase n) = false)
    (hqueue : ∀ r ∈ s.queue, r.arm ≠ n) (l : Load) (r : EndReason) : (s.toEnded n l r).Inv H W P := by
  have hphase : (s.toEnded n l r).phase n = none := State.phase_none (s.toEnded_active n l r)
  refine ((h.others n).stay (s.toEnded_aside n l r) (s.toEnded_queue n l r) (by rw [s.toEnded_resv n l r])).inv
    (State.armOk_closed (by rw [hphase]; rfl) (by rw [hphase]; rfl) (by rwa [s.toEnded_queue n l r]) ?_ ?_ ?_ fun hH => ?_)
  · rw [s.toEnded_arm n l r]
  · rw [s.toEnded_arm n l r]
  · rw [s.toEnded_ratio n l r]
  · have hh := (h.arms n).header hH
    have hnone : (s.resv n).level = .none := by
      by_contra hlevel
      rw [hh.held.mp hlevel] at hblend
      cases hblend
    rw [s.toEnded_resv n l r]
    exact ⟨hnone, hh.noneHeld hnone⟩

theorem State.Inv.endDetections (h : s.Inv H W P) (hblend : blendingPhase (s.phase n) = false)
    (hqueue : ∀ r ∈ s.queue, r.arm ≠ n) (l : Load) (r : EndReason) : (s.endDetections n l r).Inv H W P :=
  ((h.toEnded hblend hqueue l r).detectIf _ _).detectIf _ _

theorem State.endDetections_keeps (s : State) (n : ArmId) (l : Load) (r : EndReason) : Keeps s (s.endDetections n l r) :=
  ((s.toEnded_aside n l r).keeps.trans (State.detectIf_keeps _ _ n _)).trans (State.detectIf_keeps _ _ n _)

theorem Keeps.numbers (h : Keeps s t) (hn : (s.loads.map (·.number)).Nodup) : (t.loads.map (·.number)).Nodup := by
  have hnumber (u : State) : u.loads.map (·.number) = (u.loads.map Load.key).map (·.1) := by
    rw [List.map_map]
    rfl
  rwa [hnumber, h.keys, ← hnumber]

theorem State.Inv.endRecord (h : s.Inv H W P) (hn : (s.loads.map (·.number)).Nodup)
    (hblend : blendingPhase (s.phase n) = false) (hqueue : ∀ r ∈ s.queue, r.arm ≠ n) (r : EndReason) :
    (s.endRecord n r).Inv H W P := by
  cases hl : s.active n with
  | none => rwa [State.endRecord_none hl]
  | some l =>
    rw [State.endRecord_eq hl]
    exact (h.endDetections hblend hqueue l r).unmoved
      (State.promote_unmoved ((s.endDetections_keeps n l r).numbers hn) n)

/-- An arm without a phase, or in SETTLE, has no request waiting. -/
theorem State.Inv.notQueued_of_notHoldable (h : s.Inv H W P) (hold : holdablePhase (s.phase n) = false) :
    ∀ r ∈ s.queue, r.arm ≠ n :=
  h.notQueued_of_phase (fun hp => by rw [hp] at hold; cases hold) fun hp => by rw [hp] at hold; cases hold

theorem State.Inv.endSettleIfOver (h : s.Inv H W P) (hn : (s.loads.map (·.number)).Nodup) :
    (s.endSettleIfOver n).Inv H W P := by
  rw [State.endSettleIfOver]
  split
  · rename_i hover
    have hphase : s.phase n = some .settle := by
      rw [State.settleOver] at hover
      cases hl : s.active n with
      | none => rw [hl] at hover; cases hover
      | some l =>
        rw [hl] at hover
        simp only [Bool.and_eq_true, decide_eq_true_eq] at hover
        exact (State.phase_eq hl).trans hover.1.1
    exact h.endRecord hn (by rw [hphase]; rfl) (h.notQueued_of_notHoldable (by rw [hphase]; rfl)) _
  · exact h

/-! ## ABORT (R19, R101) -/

theorem State.setAbort_unmoved (s : State) (n : ArmId) : Unmoved s (s.setAbort n) :=
  s.modActive_unmoved n (fun _ => by rfl) (fun _ => by rfl) fun _ => by rfl

theorem State.Inv.enterSettle (h : s.Inv H W P) : (s.enterSettle State.examine n).Inv H W P :=
  (h.others n).enterSettle (examines_examine H W P)

/-- A record in HEADER_WAIT gives its request up. -/
theorem State.Inv.release (h : s.Inv H W P) (hphase : s.phase n = some .headerWait) :
    (s.releaseThen State.examine n).Inv H W P := by
  have harm := h.arms n
  have hphase' : (s.released n).phase n = some .headerWait := (s.released_phase n n).trans hphase
  refine (h.others n).releaseThen (examines_examine H W P) ⟨fun r hr hrn => ?_, fun l hl hp => ?_, fun hv => ?_,
    fun hp => ?_, fun hH => ?_⟩
  · exact absurd hrn (s.released_notQueued n r hr)
  · exact harm.allowed l hl hp
  · exact harm.valve hv
  · exact harm.setpoint hp
  · have hh := harm.header hH
    have hnone : (s.released n).resv n = { s.resv n with level := .none, amount := 0 } := s.released_resv n
    have hset : ¬ 0 < ((s.released n).ratio n).setpoint := fun hp => by
      have hblend := harm.setpoint hp
      rw [hphase] at hblend
      cases hblend
    refine ⟨?_, ?_, ?_, ?_, fun r hr hrn => absurd hrn (s.released_notQueued n r hr), by omega, ?_⟩
    · rw [hnone]; exact fun h => by cases h
    · rw [hnone]; exact fun h => by cases h
    · rw [hnone]; exact fun _ => rfl
    · rw [hnone, hphase']
      exact ⟨fun h => absurd rfl h, fun h => by cases h⟩
    · rw [State.gasTargetFor_closed (by rw [hphase']; rfl), State.released_arm, hh.target,
        State.gasTargetFor_closed (by rw [hphase]; rfl)]

/-- After a release the arm is as it was but for its reservation and its request. -/
theorem State.releaseThen_same (ex : State → State) (hex : Examines H W P ex) (s : State) (n : ArmId) :
    SameAt n (s.released n) (s.releaseThen ex n) := by
  rw [State.releaseThen_eq]
  split
  · exact hex.same _ n (s.released_notQueued n)
  · exact .refl n _

theorem State.releaseThen_phase (s : State) (n : ArmId) : (s.releaseThen State.examine n).phase n = s.phase n :=
  (State.releaseThen_same _ (examines_examine True True fun _ _ => True) s n).phase.trans (s.released_phase n n)

theorem State.releaseThen_notQueued (s : State) (n : ArmId) : ∀ r ∈ (s.releaseThen State.examine n).queue, r.arm ≠ n :=
  fun r hr hrn => s.released_notQueued n r
    (((State.releaseThen_same _ (examines_examine True True fun _ _ => True) s n).mem_queue hrn).mp hr) hrn

theorem State.Inv.abort (h : s.Inv H W P) (hn : (s.loads.map (·.number)).Nodup) : (s.abort n).Inv H W P := by
  rw [State.abort]
  cases hphase : s.phase n with
  | none => exact h.endRecord hn (by rw [hphase]; rfl) (h.notQueued_of_notHoldable (by rw [hphase]; rfl)) _
  | some p =>
    cases p with
    | headerWait =>
      exact (h.release hphase).endRecord ((State.releaseThen_keeps State.examine_keeps s n).numbers hn)
        (by rw [State.releaseThen_phase, hphase]; rfl) (s.releaseThen_notQueued n) _
    | low | high | taper | finish => exact (h.unmoved (s.setAbort_unmoved n)).enterSettle
    | settle => exact h.unmoved (s.setAbort_unmoved n)

/-! ## Amendments (R102) -/

/-- A record amended back from TAPER to LOW with its reservation. -/
theorem State.Inv.untaper (h : s.Inv H W P) (hphase : s.phase n = some .taper) :
    ((s.setPhase n .low (some false)).retarget n).Inv H W P := by
  have hflows := (s.setPhase_flows n .low (some false)).trans (State.retarget_flows _ n)
  have hlow : ((s.setPhase n .low (some false)).retarget n).phase n = some .low :=
    State.setPhase_phase (State.delivers_of_phase (by rw [hphase]; rfl)) _ _
  have hnone := h.notQueued_of_phase (n := n) (by rw [hphase]; decide) (by rw [hphase]; decide)
  refine ((h.others n).stay hflows.aside rfl rfl).inv (State.armOk_blending (by rw [hlow]; rfl) hnone
    (fun l hl _ => (h.arms n).allowed_of_flows hflows (by rw [hphase]; rfl) hl) (fun _ => by rw [hlow]; rfl) fun hH => ?_)
  have hh := (h.arms n).header hH
  refine ⟨hh.held.mpr (by rw [hphase]; rfl), hh.lowExact, hh.highCovers, hh.clamped, ?_⟩
  rw [State.retarget, State.modArm_arm_self, State.modArm_gasTargetFor]

theorem State.Inv.amended (h : s.Inv H W P) (hWH : W → H) : (s.amended n).Inv H W P := by
  have hex := examines_examine H W P
  rw [State.amended]
  cases hl : s.active n with
  | none => exact h
  | some l =>
    dsimp only
    cases hphase : l.deliveringPhase with
    | none => exact h
    | some p =>
      cases p with
      | low | high => exact h.compareTests hWH hex false
      | taper =>
        dsimp only
        split
        · exact ((h.untaper ((State.phase_eq hl).trans hphase)).lowStartTest hWH).finishTest hex false
        · exact h.finishTest hex false
      | headerWait | finish | settle => exact h

end

end Sys2Proof.Machine
end

section
/-! SUPPORT. The lists and the tables through every operation on an arm (R1, R7, R31, R33): all but the end of a record,
a promotion, a staging and a retirement keep every record's place. -/

namespace Sys2Proof.Machine

section
variable {s t u : State} {n : ArmId}

/-! ## Moves of the whole station -/

/-- The examination as one of the relations the operations may run with. -/
def Roams : State → State → Prop := Flows fun _ => True

theorem roams_flowRel : FlowRel (fun _ => True) Roams := flows_flowRel _

theorem State.releaseThen_roams (s : State) (n : ArmId) : Roams s (s.releaseThen State.examine n) :=
  State.releaseThen_flows roams_flowRel trivial State.examine_flowsAll s

theorem State.enterSettle_roams (s : State) (n : ArmId) : Roams s (s.enterSettle State.examine n) :=
  State.enterSettle_flows roams_flowRel trivial State.examine_flowsAll s

theorem State.compareTests_roams (b : Bool) (s : State) (n : ArmId) : Roams s (s.compareTests State.examine b n) :=
  State.compareTests_flows roams_flowRel trivial State.examine_flowsAll s b

theorem State.finishTest_roams (b : Bool) (s : State) (n : ArmId) : Roams s (s.finishTest State.examine b n) :=
  State.finishTest_flows roams_flowRel trivial State.examine_flowsAll s b

theorem State.enterLow_roams (s : State) (n : ArmId) : Roams s (s.enterLow State.examine n) :=
  State.enterLow_flows roams_flowRel trivial State.examine_flowsAll s

theorem Flows.roams {A : ArmId → Prop} (h : Flows A s t) : Roams s t := h.mono fun _ _ => trivial

theorem State.askHeader_roams (s : State) (n : ArmId) : Roams s (s.askHeader n) := by
  by_cases hgrant : s.grantsAtOnce (s.lowAsked n) = true
  · rw [State.askHeader_granted hgrant]
    exact (s.lowGranted_flows n).roams.trans (State.enterLow_roams _ n)
  · rw [State.askHeader_queued (by simpa using hgrant)]
    exact ((s.lowQueued_flows n).trans (State.enterHeaderWait_flows _ n)).roams

theorem State.amended_roams (s : State) (n : ArmId) : Roams s (s.amended n) := by
  rw [State.amended]
  split
  · exact .refl _ s
  · split
    · exact s.compareTests_roams false n
    · exact s.compareTests_roams false n
    · split
      · exact ((s.setPhase_flows n _ _).trans ((State.retarget_flows _ n).trans (State.lowStartTest_flows _ n))).roams.trans
          (State.finishTest_roams false _ n)
      · exact s.finishTest_roams false n
    · exact .refl _ s

/-! ## Records in their places -/

theorem OnlyInjectors.placed (h : OnlyInjectors s t) : Placed s t := .of_loads h.loads

theorem Roams.placed (h : Roams s t) : Placed s t := Flows.placed h

theorem Placed.maskArm (h : Placed s t) (on : Bool) : Placed s (t.maskArm n on) :=
  h.trans (OnlyInjectors.placed (t.maskArm_onlyInjectors n on))

theorem State.toHeld_placed (s : State) (n : ArmId) (c : HoldCause) : Placed s (s.toHeld n c) := by
  have hheld := s.modActive_placed n (f := fun l => l.heldBy c s.holdDue) (fun _ => rfl) fun _ _ => rfl
  rw [State.toHeld]
  refine Placed.maskArm (hheld.trans (.of_loads ?_)) true
  rfl

theorem State.toCut_placed (s : State) (n : ArmId) (c : HoldCause) : Placed s (s.toCut n c) :=
  s.modActive_placed n (f := (·.cutBy c)) (fun _ => rfl) fun _ h => h

theorem State.toStart_placed (s : State) (n : ArmId) : Placed s (s.toStart n) := by
  have hstart := s.modActive_placed n (f := Load.started) (fun _ => rfl) fun _ _ => rfl
  rw [State.toStart]
  refine Placed.maskArm (hstart.trans (.of_loads ?_)) false
  rfl

theorem State.toResume_placed (s : State) (n : ArmId) : Placed s (s.toResume n) := by
  have hresume := s.modActive_placed n (f := Load.resumed) (fun _ => rfl) fun _ _ => rfl
  rw [State.toResume]
  refine Placed.maskArm (hresume.trans (.of_loads ?_)) false
  rfl

theorem State.holdCause_placed (s : State) (n : ArmId) (c : HoldCause) : Placed s (s.holdCause n c) := by
  have hhold : Placed s (s.hold n c) := by
    rw [State.hold_eq]
    exact (s.toHeld_placed n c).trans (State.releaseThen_roams _ n).placed
  have hcut : Placed s (s.cutFinish n c) := by
    rw [State.cutFinish_eq]
    exact (s.toCut_placed n c).trans (State.enterSettle_roams _ n).placed
  rw [State.holdCause]
  split
  · exact hhold
  · exact hhold
  · exact hhold
  · exact hhold
  · exact hcut
  · exact .refl s
  · exact .refl s

theorem State.holdAll_placed (s : State) (c : HoldCause) : Placed s (s.holdAll c) :=
  Placed.foldl _ (fun s n => s.holdCause_placed n c) s _

theorem State.detect_placed (s : State) (n : ArmId) (k : AlarmKind) : Placed s (s.detect n k) := by
  have hlatch : Placed s (s.latch n k) := .of_loads rfl
  rw [State.detect]
  split
  · exact .refl s
  · exact hlatch
  · exact hlatch.trans (State.holdCause_placed _ n .alarm)

theorem State.detectIf_placed (s : State) (b : Bool) (n : ArmId) (k : AlarmKind) : Placed s (s.detectIf b n k) := by
  rw [State.detectIf]
  exact .ite (s.detect_placed n k) (.refl s)

theorem State.start_placed (s : State) (n : ArmId) : Placed s (s.start n) := by
  rw [State.start_eq]
  exact (s.toStart_placed n).trans (State.askHeader_roams _ n).placed

theorem State.resume_placed (s : State) (n : ArmId) : Placed s (s.resume n) := by
  rw [State.resume_eq]
  exact (s.toResume_placed n).trans (State.askHeader_roams _ n).placed

theorem State.loseAt_placed (s : State) (p : Permissive) (n : ArmId) : Placed s (s.loseAt p n) := by
  have hheld := s.holdCause_placed n .permissive
  have hlatched := hheld.trans (State.detect_placed _ n .permitLoss)
  rw [State.loseAt]
  split
  · exact hlatched.trans (.of_loads rfl)
  · exact .refl s

theorem State.loseAll_placed (s : State) (p : Permissive) : Placed s (s.loseAll p) :=
  Placed.foldl _ (fun s n => s.loseAt_placed p n) s _

theorem Load.markTempHeld_state (l : Load) (b : Bool) : (l.markTempHeld b).state = l.state := by
  rw [Load.markTempHeld]
  split <;> rfl

theorem State.placeVolume_placed (s : State) (n : ArmId) (v : ArmSample) (d : VolumeGoes) : Placed s (s.placeVolume n v d) := by
  have hadd : Placed s (s.addToRecord n v) := s.modActive_placed n
    (fun l => by exact Load.markTempHeld_key (l.addSample v.gas v.eth v.gasTemp v.ethTemp) v.held)
    fun l h => by
      rw [Load.isActive_congr (Load.markTempHeld_state (l.addSample v.gas v.eth v.gasTemp v.ethTemp) v.held)]
      exact h
  cases d with
  | toRecord => exact hadd
  | toHeldRecord => exact hadd.trans (.of_loads rfl)
  | toUnassigned => exact .of_loads rfl

theorem State.detectLeaks_placed (s : State) (n : ArmId) (v : ArmSample) (d : VolumeGoes) :
    Placed s (s.detectLeaks n v d) := by
  cases d with
  | toRecord => exact .refl s
  | toHeldRecord => exact s.detectIf_placed _ n _
  | toUnassigned => exact (s.detectIf_placed _ n _).trans (State.detectIf_placed _ _ n _)

/-- The sample's volume in its place, before the detections of stage 1. -/
def State.volumed (s : State) (n : ArmId) : State :=
  (s.takeSample n (s.sampleArm n)).placeVolume n (s.sampleArm n) (s.volumeGoes n)

theorem State.stage1_eq (s : State) (n : ArmId) :
    s.stage1 n = ((s.volumed n).detectStale n).detectLeaks n (s.sampleArm n) (s.volumeGoes n) := rfl

/-- The gas run and the ethanol run after the no-flow supervision, each with its detection (R104). -/
def State.gasRunJudged (s : State) (n : ArmId) (valve : Valve) : Option Nat × Bool :=
  judgeRun (valve != .close && (s.arm n).qGas == 0) (s.arm n).gasRun s.now (1000 * (s.armCfg n).noFlow)

def State.ethRunJudged (s : State) (n : ArmId) (setpoint : Nat) : Option Nat × Bool :=
  judgeRun (decide (0 < setpoint) && (s.arm n).qEth == 0) (s.arm n).ethRun s.now (1000 * (s.armCfg n).noFlow)

/-- The runs judged, before the detection of stage 2. -/
def State.runsJudged (s : State) (n : ArmId) (valve : Valve) (setpoint : Nat) : State :=
  let g := s.gasRunJudged n valve
  let e := s.ethRunJudged n setpoint
  s.modArm n fun a => { a with
    gasRun := g.1, ethRun := e.1, stalled := if g.2 || e.2 then stalledMeter g.2 e.2 else a.stalled }

theorem State.stage2_eq (s : State) (n : ArmId) (valve : Valve) (setpoint : Nat) : s.stage2 n valve setpoint =
    if flowingPhase (s.phase n) then
      (s.runsJudged n valve setpoint).detectIf ((s.gasRunJudged n valve).2 || (s.ethRunJudged n setpoint).2) n .noFlow
    else s := rfl

/-- The deviation run after the check, with its detection (R117, R118). -/
def State.devJudged (s : State) (n : ArmId) (l : Load) : Option Nat × Bool :=
  judgeRun (decide (s.band n l < (s.deficit l).natAbs)) (s.ratio n).devRun s.now (1000 * (s.armCfg n).ratioDelay)

theorem State.checkDeviation_none (h : s.active n = none) : s.checkDeviation n = s := by rw [State.checkDeviation, h]

theorem State.checkDeviation_some {l : Load} (h : s.active n = some l) : s.checkDeviation n =
    if 1000 * (s.armCfg n).monitorStart < l.totalGross then
      (s.modRatio n fun q => { q with devRun := (s.devJudged n l).1 }).detectIf (s.devJudged n l).2 n .ratioDev
    else s := by
  rw [State.checkDeviation, h]
  rfl

theorem State.stage1_placed (s : State) (n : ArmId) : Placed s (s.stage1 n) := by
  have htake : Placed s (s.takeSample n (s.sampleArm n)) := .of_loads rfl
  have hvolume : Placed s (s.volumed n) := htake.trans (State.placeVolume_placed _ n _ _)
  rw [State.stage1_eq]
  exact (hvolume.trans (State.detectIf_placed _ _ n .tempFault)).trans (State.detectLeaks_placed _ n _ _)

theorem State.stage2_placed (s : State) (n : ArmId) (v : Valve) (sp : Nat) : Placed s (s.stage2 n v sp) := by
  have hruns : Placed s (s.runsJudged n v sp) := .of_loads rfl
  rw [State.stage2_eq]
  exact .ite (hruns.trans (State.detectIf_placed _ _ n _)) (.refl s)

theorem State.stage3_placed (s : State) (n : ArmId) : Placed s (s.stage3 n) := by
  rw [State.stage3]
  exact .ite (s.compareTests_roams true n).placed (.refl s)

theorem State.stage4_placed (s : State) (n : ArmId) : Placed s (s.stage4 n) := by
  rw [State.stage4]
  exact .ite (.of_loads rfl) (.refl s)

theorem State.checkDeviation_placed (s : State) (n : ArmId) : Placed s (s.checkDeviation n) := by
  cases hl : s.active n with
  | none =>
    rw [State.checkDeviation_none hl]
    exact .refl s
  | some l =>
    have hrun : Placed s (s.modRatio n fun q => { q with devRun := (s.devJudged n l).1 }) := .of_loads rfl
    rw [State.checkDeviation_some hl]
    exact .ite (hrun.trans (State.detectIf_placed _ _ n _)) (.refl s)

theorem State.stage5_placed (s : State) (n : ArmId) : Placed s (s.stage5 n) := by
  have hset : Placed s ((s.setSetpoint n).checkDeviation n) :=
    (s.setSetpoint_flows n).placed.trans (State.checkDeviation_placed _ n)
  rw [State.stage5]
  split
  · exact hset
  · exact hset
  · exact hset
  · exact .ite (s.enterSettle_roams n).placed (s.setSetpoint_flows n).placed
  · exact .refl s
  · exact .refl s
  · exact .refl s

theorem State.stage6_placed (s : State) (n : ArmId) : Placed s (s.stage6 n) := by
  have hcheck (s : State) : Placed s (s.checkAdditive n) := by
    rw [State.checkAdditive]
    split
    · exact .refl s
    · exact s.detectIf_placed _ n _
  rw [State.stage6]
  split
  · exact .refl s
  · exact .ite (((s.modActive_placed n (f := Load.updateDue) (fun _ => rfl) fun _ h => h).trans (hcheck _)).trans
      (State.issueArm_flows _ n).placed) (.refl s)

theorem State.sample_placed (s : State) (n : ArmId) : Placed s (s.sample n) :=
  (((((s.stage1_placed n).trans (State.stage2_placed _ n _ _)).trans (State.stage3_placed _ n)).trans
    (State.stage4_placed _ n)).trans (State.stage5_placed _ n)).trans (State.stage6_placed _ n)

/-! ## The end of a record (R25) -/

/-- A record that ends stays where it stands in its list. -/
theorem State.modActive_ended_lists (h : s.ListsOk) {f : Load → Load} (hf : ∀ l, (f l).arm = l.arm)
    (he : ∀ l, (f l).state = .ended) : (s.modActive n f).ListsOk := by
  rw [State.listsOk_iff] at *
  intro m
  by_cases hm : m = n
  · have hranks : (s.modActive n f).ranks m = (s.ranks m).map fun r => if r = 1 then 0 else r := by
      rw [State.ranks, State.ranks, State.armList, State.modActive, State.withLoads_loads, List.filter_map, List.map_map,
        List.map_map, State.armList, show ((fun l : Load => l.arm == m) ∘ fun l =>
          if (l.arm == n && l.isActive) = true then f l else l) = fun l => l.arm == m from ?_]
      · refine List.map_congr_left fun l hl => ?_
        have harm : l.arm = n := by rw [← hm]; simpa using (List.mem_filter.mp hl).2
        simp only [Function.comp_apply, harm, BEq.rfl, Bool.true_and, Load.isActive_iff_rank]
        split
        · rw [he]
          rfl
        · rfl
      · funext l
        simp only [Function.comp_apply, apply_ite Load.arm, hf, ite_self]
    have hmono {a b : Nat} (hab : a ≤ b) : (if a = 1 then 0 else a) ≤ if b = 1 then 0 else b := by
      split <;> split <;> omega
    have hok := h m
    rw [hranks]
    refine ⟨?_, ?_, hok.order.map _ fun _ _ => hmono⟩
    · rw [List.count_eq_zero.mpr fun hmem => ?_]
      · decide
      · obtain ⟨a, -, ha⟩ := List.mem_map.mp hmem
        split at ha <;> omega
    · have hcount : ((s.ranks m).map fun r => if r = 1 then 0 else r).count 2 = (s.ranks m).count 2 := by
        rw [List.count_eq_countP, List.countP_map, List.count_eq_countP]
        congr 1
        funext a
        simp only [Function.comp_apply]
        by_cases ha : a = 1 <;> simp [ha]
      rw [hcount]
      exact hok.threeStaged
  · rw [State.ranks, State.modActive_armList_ne hf hm]
    exact h m

/-- What every operation on an arm keeps of the tables, and the order of the lists. -/
structure Tidy (s t : State) : Prop where
  keys : t.loads.map Load.key = s.loads.map Load.key
  recipes : t.recipes = s.recipes
  mode : t.store.mode = s.store.mode
  levels : t.levels = s.levels
  lists : (s.loads.map (·.number)).Nodup → s.ListsOk → t.ListsOk

theorem Tidy.numbers (h : Tidy s t) (hn : (s.loads.map (·.number)).Nodup) : (t.loads.map (·.number)).Nodup := by
  have hnumber (u : State) : u.loads.map (·.number) = (u.loads.map Load.key).map (·.1) := by
    rw [List.map_map]
    rfl
  rwa [hnumber, h.keys, ← hnumber]

theorem Tidy.refl (s : State) : Tidy s s := ⟨rfl, rfl, rfl, rfl, fun _ h => h⟩

theorem Tidy.trans (h : Tidy s t) (k : Tidy t u) : Tidy s u :=
  ⟨k.keys.trans h.keys, k.recipes.trans h.recipes, k.mode.trans h.mode, k.levels.trans h.levels,
    fun hn hs => k.lists (h.numbers hn) (h.lists hn hs)⟩

theorem Tidy.of_loads (hloads : t.loads = s.loads) (hrecipes : t.recipes = s.recipes) (hmode : t.store.mode = s.store.mode)
    (hlevels : t.levels = s.levels) : Tidy s t :=
  ⟨by rw [hloads], hrecipes, hmode, hlevels, fun _ h => (Placed.of_loads hloads).lists h⟩

theorem Keeps.tidy (h : Keeps s t) (hlists : (s.loads.map (·.number)).Nodup → s.ListsOk → t.ListsOk) : Tidy s t :=
  ⟨h.keys, h.recipes, by rw [h.store], h.levels, hlists⟩

theorem Keeps.tidy_of_placed (h : Keeps s t) (hp : Placed s t) : Tidy s t := h.tidy fun _ => hp.lists

theorem Tidy.foldl {α : Type} (op : State → α → State) (h : ∀ s a, Tidy s (op s a)) (s : State) (l : List α) :
    Tidy s (l.foldl op s) := by
  induction l generalizing s with
  | nil => exact .refl s
  | cons a rest ih => exact (h s a).trans (ih (op s a))

theorem State.endRecord_tidy (s : State) (n : ArmId) (r : EndReason) : Tidy s (s.endRecord n r) := by
  refine (s.endRecord_keeps n r).tidy fun hn h => ?_
  cases hl : s.active n with
  | none => rwa [State.endRecord_none hl]
  | some l =>
    rw [State.endRecord_eq hl]
    refine State.promote_lists ((s.endDetections_keeps n l r).numbers hn) ?_ n
    have hended : (s.toEnded n l r).ListsOk := by
      refine (Placed.of_loads ?_).lists (State.modActive_ended_lists (n := n)
        (f := fun l => l.completed r (s.fraction l) (s.tolerance l) (s.armCfg n).overrunLimit) h (fun _ => rfl) fun _ => rfl)
      rw [State.toEnded, State.modRatio_loads, State.modArm_loads, (State.maskArm_onlyInjectors _ n true).loads]
    exact ((State.detectIf_placed _ _ n _).trans (State.detectIf_placed _ _ n _)).lists hended

theorem State.endSettleIfOver_tidy (s : State) (n : ArmId) : Tidy s (s.endSettleIfOver n) := by
  rw [State.endSettleIfOver]
  split
  · exact s.endRecord_tidy n _
  · exact .refl s

theorem State.setAbort_tidy (s : State) (n : ArmId) : Tidy s (s.setAbort n) :=
  (s.setAbort_keeps n).tidy_of_placed (s.modActive_placed n (fun _ => by rfl) fun _ h => h)

theorem Roams.tidy (h : Roams s t) : Tidy s t := h.keeps.tidy_of_placed h.placed

theorem State.abort_tidy (s : State) (n : ArmId) : Tidy s (s.abort n) := by
  have hsettle : Tidy s ((s.setAbort n).enterSettle State.examine n) :=
    (s.setAbort_tidy n).trans (State.enterSettle_roams _ n).tidy
  rw [State.abort]
  split
  · exact (s.releaseThen_roams n).tidy.trans (State.endRecord_tidy _ n _)
  · exact hsettle
  · exact hsettle
  · exact hsettle
  · exact hsettle
  · exact s.setAbort_tidy n
  · exact s.endRecord_tidy n _

theorem State.promote_tidy (s : State) (n : ArmId) : Tidy s (s.promote n) :=
  (s.promote_keeps n).tidy fun hn h => State.promote_lists hn h n

end

end Sys2Proof.Machine
end

section
/-! SUPPORT. The samples, the losses of a permissive and the judgements keep the flow's invariant (R84, R152, R164). -/

namespace Sys2Proof.Machine

section
variable {s t : State} {n : ArmId} {H W : Prop} {P : ArmId → Nat → Prop}

/-! ## A sample (R84) -/

theorem State.takeSample_unmoved (s : State) (n : ArmId) (v : ArmSample) : Unmoved s (s.takeSample n v) :=
  ((s.setMeter_unmoved _ _).trans (State.setMeter_unmoved _ _ _)).trans
    (State.modArm_unmoved _ n (f := fun a => { a with qGas := v.gas.flow, qEth := v.eth.flow }) rfl (Or.inr rfl))

theorem Load.markTempHeld_stance (l : Load) (b : Bool) : (l.markTempHeld b).stance = l.stance := by
  rw [Load.markTempHeld]
  split <;> rfl

theorem Load.markTempHeld_arm (l : Load) (b : Bool) : (l.markTempHeld b).arm = l.arm := by
  rw [Load.markTempHeld]
  split <;> rfl

theorem State.addToRecord_unmoved (s : State) (n : ArmId) (v : ArmSample) : Unmoved s (s.addToRecord n v) :=
  s.modActive_unmoved n (f := fun l => (l.addSample v.gas v.eth v.gasTemp v.ethTemp).markTempHeld v.held)
    (fun _ => Load.markTempHeld_arm _ _) (fun _ => Load.markTempHeld_state _ _) fun _ => Load.markTempHeld_stance _ _

theorem State.placeVolume_unmoved (s : State) (n : ArmId) (v : ArmSample) (d : VolumeGoes) :
    Unmoved s (s.placeVolume n v d) := by
  cases d with
  | toRecord => exact s.addToRecord_unmoved n v
  | toHeldRecord =>
    exact (s.addToRecord_unmoved n v).trans (State.modArm_unmoved _ n
      (f := fun a => { a with holdDrain := satAdd u32Max a.holdDrain (v.gas.gross + v.eth.gross) }) rfl (Or.inr rfl))
  | toUnassigned =>
    exact (s.modMeter_unmoved (gasMeter n) (·.addUnassigned v.gas.gross)).trans
      (State.modMeter_unmoved _ (ethMeter n) (·.addUnassigned v.eth.gross))

theorem State.volumed_unmoved (s : State) (n : ArmId) : Unmoved s (s.volumed n) :=
  (s.takeSample_unmoved n (s.sampleArm n)).trans (State.placeVolume_unmoved _ n _ _)

theorem State.Inv.detectLeaks (h : s.Inv H W P) (v : ArmSample) (d : VolumeGoes) : (s.detectLeaks n v d).Inv H W P := by
  cases d with
  | toRecord => exact h
  | toHeldRecord => exact h.detectIf _ _
  | toUnassigned => exact (h.detectIf _ _).detectIf _ _

theorem State.Inv.stage1 (h : s.Inv H W P) : (s.stage1 n).Inv H W P := by
  rw [State.stage1_eq]
  exact ((h.unmoved (s.volumed_unmoved n)).detectIf _ _).detectLeaks _ _

theorem State.runsJudged_unmoved (s : State) (n : ArmId) (v : Valve) (sp : Nat) : Unmoved s (s.runsJudged n v sp) := by
  rw [State.runsJudged]
  exact s.modArm_unmoved n rfl (Or.inr rfl)

theorem State.Inv.stage2 (h : s.Inv H W P) (v : Valve) (sp : Nat) : (s.stage2 n v sp).Inv H W P := by
  rw [State.stage2_eq]
  split
  · exact (h.unmoved (s.runsJudged_unmoved n v sp)).detectIf _ _
  · exact h

theorem State.Inv.stage3 (h : s.Inv H W P) (hWH : W → H) : (s.stage3 n).Inv H W P := by
  rw [State.stage3]
  split
  · exact h.compareTests hWH (examines_examine H W P) true
  · exact h

theorem State.Inv.decideValve (h : s.Inv H W P) (hflow : flowingPhase (s.phase n) = true) : (s.decideValve n).Inv H W P := by
  have harm := h.arms n
  refine ((h.others n).stay (s.decideValve_flows n).aside rfl rfl).inv
    ⟨harm.requests, harm.allowed, fun _ => hflow, harm.setpoint, fun hH => ?_⟩
  have hh := harm.header hH
  refine ⟨hh.lowExact, hh.highCovers, hh.noneHeld, hh.held, hh.queuedLow, hh.clamped, ?_⟩
  rw [State.decideValve, State.modArm_arm_self, State.modArm_gasTargetFor]
  exact hh.target

theorem State.Inv.stage4 (h : s.Inv H W P) : (s.stage4 n).Inv H W P := by
  rw [State.stage4]
  split
  · rename_i hflow
    exact h.decideValve hflow
  · exact h

theorem State.Inv.checkDeviation (h : s.Inv H W P) : (s.checkDeviation n).Inv H W P := by
  cases hl : s.active n with
  | none => rwa [State.checkDeviation_none hl]
  | some l =>
    rw [State.checkDeviation_some hl]
    split
    · exact (h.unmoved (s.modRatio_unmoved n fun _ => by rfl)).detectIf _ _
    · exact h

theorem State.Inv.stage5 (h : s.Inv H W P) : (s.stage5 n).Inv H W P := by
  rw [State.stage5]
  cases hphase : s.phase n with
  | none => exact h
  | some p =>
    cases p with
    | low | high | taper => exact (h.setSetpoint (n := n) (by rw [hphase]; rfl)).checkDeviation
    | finish =>
      dsimp only
      split
      · exact h.enterSettle
      · exact h.setSetpoint (by rw [hphase]; rfl)
    | headerWait | settle => exact h

theorem State.updateDue_unmoved (s : State) (n : ArmId) : Unmoved s (s.modActive n Load.updateDue) :=
  s.modActive_unmoved n (fun _ => rfl) (fun _ => rfl) fun _ => rfl

theorem State.Inv.checkAdditive (h : s.Inv H W P) : (s.checkAdditive n).Inv H W P := by
  rw [State.checkAdditive]
  split
  · exact h
  · exact h.detectIf _ _

theorem State.Inv.stage6 (h : s.Inv H W P) : (s.stage6 n).Inv H W P := by
  rw [State.stage6]
  split
  · exact h
  · split
    · exact (h.unmoved (s.updateDue_unmoved n)).checkAdditive.unmoved (State.issueArm_issues _ n).unmoved
    · exact h

theorem State.Inv.sample (h : s.Inv H W P) (hWH : W → H) : (s.sample n).Inv H W P :=
  ((((h.stage1.stage2 _ _).stage3 hWH).stage4).stage5).stage6

/-! ## A loss of a permissive (R164) -/

/-- A loss of the permissive bears on a record of the recipe at the arm (R162). -/
def State.lossBears (s : State) (p : Permissive) (n : ArmId) (k : Nat) : Bool :=
  permissiveBears p n && (p != .headerPress || decide (0 < s.fractionOf k))

theorem State.lossActs_active {l : Load} (hl : s.active n = some l) (p : Permissive) :
    s.lossActs p n = s.lossBears p n l.recipe := by
  rw [State.lossActs, hl]
  rfl

theorem State.addSource_unmoved (s : State) (n : ArmId) (x : LossSource) : Unmoved s (s.addSource n x) :=
  s.modAlarm_unmoved n fun _ => .refl _

/-- After a loss no record flows at the arm that the permissive bears on. -/
theorem State.Inv.loseAt (h : s.Inv H W P) (p : Permissive) :
    (s.loseAt p n).Inv H W fun m k => P m k ∧ (m = n → s.lossBears p n k = false) := by
  rw [State.loseAt]
  split
  · exact ((h.holdCause.detect _).unmoved (State.addSource_unmoved _ n _)).permit
      fun m _ hk => ⟨hk.1, fun hm => absurd hm hk.2⟩
  · rename_i hnot
    refine ((h.others n).permit fun m hm _ hk => ⟨hk, fun hmn => absurd hmn hm⟩).inv ?_
    have harm := h.arms n
    refine ⟨harm.requests, fun l hl hphase => ?_, harm.valve, harm.setpoint, harm.header⟩
    obtain ⟨hP, hlatched⟩ := harm.allowed l hl hphase
    refine ⟨⟨hP, fun _ => ?_⟩, hlatched⟩
    rw [← State.lossActs_active hl]
    rw [State.phase_eq hl, isSome_of_holdable hphase, Bool.and_true] at hnot
    simpa using hnot

theorem State.Inv.loseFold (p : Permissive) (l : List ArmId) (h : s.Inv H W P) :
    (l.foldl (fun s n => s.loseAt p n) s).Inv H W fun m k => P m k ∧ (m ∈ l → s.lossBears p m k = false) := by
  induction l generalizing s P with
  | nil => exact h.permit fun _ _ hk => ⟨hk, fun hm => by cases hm⟩
  | cons n rest ih =>
    have hrecipes := (s.loseAt_keeps p n).recipes
    refine (ih (h.loseAt (n := n) p)).permit fun m k hk => ⟨hk.1.1, fun hm => ?_⟩
    rcases List.mem_cons.mp hm with hmn | hm
    · rw [hmn]
      exact hk.1.2 hmn
    · have hlost := hk.2 hm
      rwa [State.lossBears, State.fractionOf, State.recipe?, hrecipes] at hlost

theorem State.Inv.loseAll (h : s.Inv H W P) (p : Permissive) :
    (s.loseAll p).Inv H W fun m k => P m k ∧ s.lossBears p m k = false :=
  (State.Inv.loseFold p allArms h).permit fun m _ hk => ⟨hk.1, hk.2 (mem_allArms m)⟩

/-! ## Holds of the whole station and judgements -/

theorem State.Inv.holdAll (h : s.Inv H W P) (c : HoldCause) : (s.holdAll c).Inv H W P := by
  have hfold (l : List ArmId) : ∀ s : State, s.Inv H W P → (l.foldl (fun s n => s.holdCause n c) s).Inv H W P := by
    induction l with
    | nil => exact fun _ h => h
    | cons n rest ih => exact fun _ h => ih _ h.holdCause'
  exact hfold allArms s h

/-- What a judgement writes into its record (R152). -/
theorem State.judge_unmoved (s : State) (i : InjId) : Unmoved s (s.judge i) := by
  have hmod (k : Nat) (f : AddEntry → AddEntry) : Unmoved s (s.modLoad k fun l => l.modEntry i f) :=
    s.modLoad_unmoved k (fun _ => rfl) (fun _ => rfl) fun _ => rfl
  rw [State.judge]
  refine Unmoved.trans ?_ (State.modInjector_unmoved _ i _)
  split
  · exact hmod _ _
  · exact .refl s

theorem State.markShort_unmoved (s : State) (n : ArmId) (i : InjId) : Unmoved s (s.markShort n i) := by
  rw [State.markShort]
  split
  · exact .refl s
  · split
    · exact .refl s
    · exact .ite (s.modActive_unmoved n (fun _ => by rfl) (fun _ => by rfl) fun _ => by rfl) (.refl s)

theorem State.Inv.afterJudgement (h : s.Inv H W P) (hn : (s.loads.map (·.number)).Nodup) (i : InjId) :
    (s.afterJudgement i).Inv H W P := by
  rw [State.afterJudgement]
  split
  · rename_i n _
    have hshort := ((h.unmoved (s.tryIssue_issues n i).unmoved).unmoved (State.markShort_unmoved _ n i))
    exact hshort.endSettleIfOver
      (((s.tryIssue_keeps n i).trans (State.markShort_keeps _ n i)).numbers hn)
  · exact h

end

end Sys2Proof.Machine
end

section
/-! SUPPORT. The whole invariant of a station, tables, lists and flow, through every operation on an arm. -/

namespace Sys2Proof.Machine

/-! ## The invariant -/

/-- The permissives allow the arm a recipe (R162). -/
def State.permits (s : State) : ArmId → Nat → Prop := fun n k => s.permissivesMet n (s.fractionOf k) = true

/-- What every step keeps; with `H` the header's part with it. -/
structure State.Sound (s : State) (H : Prop) : Prop where
  tables : s.TablesOk
  lists : s.ListsOk
  stopped : s.isRunning = false → s.loads = []
  inv : s.Inv H H s.permits

section
variable {s t : State} {n : ArmId} {H : Prop}

theorem State.permitted_iff : s.permitted n = true ↔ ∀ l, s.active n = some l → holdablePhase l.deliveringPhase = true →
    s.permits n l.recipe ∧ s.latchedClass n .stop = false := by
  rw [State.permitted]
  cases hl : s.active n with
  | none => simp
  | some l =>
    have hfraction : s.fraction l = s.fractionOf l.recipe := rfl
    simp only [Option.some.injEq, forall_eq', State.permits, hfraction]
    cases holdablePhase l.deliveringPhase <;> simp

theorem State.Sound.delivery (h : s.Sound H) : s.DeliveryOk where
  tables := h.tables
  lists := h.lists
  stopped := h.stopped
  oneRequest := h.inv.oneRequest
  requests r hr := (h.inv.arms r.arm).requests r hr rfl
  permitted n := State.permitted_iff.mpr (h.inv.arms n).allowed
  valve n := (h.inv.arms n).valve
  setpoint n := (h.inv.arms n).setpoint

theorem State.Sound.header (h : s.Sound True) : s.HeaderOk where
  within := h.inv.within trivial
  lowExact n := ((h.inv.arms n).header trivial).lowExact
  highCovers n := ((h.inv.arms n).header trivial).highCovers
  noneHeld n := ((h.inv.arms n).header trivial).noneHeld
  held n := ((h.inv.arms n).header trivial).held
  queuedLow r hr := ((h.inv.arms r.arm).header trivial).queuedLow r hr rfl
  clamped n := ((h.inv.arms n).header trivial).clamped
  headWaits := h.inv.waits trivial
  targets n := ((h.inv.arms n).header trivial).target

theorem State.DeliveryOk.sound (h : s.DeliveryOk) (hh : H → s.HeaderOk) : s.Sound H where
  tables := h.tables
  lists := h.lists
  stopped := h.stopped
  inv := {
    oneRequest := h.oneRequest
    arms := fun n => {
      requests := fun r hr _ => h.requests r hr
      allowed := State.permitted_iff.mp (h.permitted n)
      valve := h.valve n
      setpoint := h.setpoint n
      header := fun hH => {
        lowExact := (hh hH).lowExact n
        highCovers := (hh hH).highCovers n
        noneHeld := (hh hH).noneHeld n
        held := (hh hH).held n
        queuedLow := fun r hr hrn hk => by rw [← hrn]; exact (hh hH).queuedLow r hr hk
        clamped := (hh hH).clamped n
        target := (hh hH).targets n } }
    within := fun hH => (hh hH).within
    waits := fun hH => (hh hH).headWaits }

/-! ## Operations that keep it -/

theorem Tidy.permits (h : Tidy s t) : t.permits = s.permits := by
  funext n k
  simp only [State.permits, State.permissivesMet, State.fractionOf, State.recipe?, h.levels, h.recipes]

theorem Tidy.isRunning (h : Tidy s t) : t.isRunning = s.isRunning := by rw [State.isRunning, State.isRunning, h.mode]

theorem State.Sound.tidy (h : s.Sound H) (ht : Tidy s t) (hi : t.Inv H H s.permits) : t.Sound H where
  tables := h.tables.of_keys ht.keys ht.recipes
  lists := ht.lists h.tables.loadNumbers h.lists
  stopped hr := by
    have hkeys := ht.keys
    rw [h.stopped (ht.isRunning ▸ hr), List.map_nil] at hkeys
    exact List.map_eq_nil_iff.mp hkeys
  inv := by rwa [ht.permits]

/-- An operation that moves nothing the invariant reads. -/
theorem State.Sound.quiet (h : s.Sound H) (ht : Tidy s t) (hu : Unmoved s t) : t.Sound H := h.tidy ht (h.inv.unmoved hu)

theorem State.Sound.kept (h : s.Sound H) (hk : Keeps s t) (hp : Placed s t) (hi : t.Inv H H s.permits) : t.Sound H :=
  h.tidy (hk.tidy_of_placed hp) hi

theorem State.Sound.foldl {α : Type} (op : State → α → State) (hop : ∀ s a, s.Sound H → (op s a).Sound H) (h : s.Sound H)
    (l : List α) : (l.foldl op s).Sound H := by
  induction l generalizing s with
  | nil => exact h
  | cons a rest ih => exact ih (hop s a h)

theorem State.Sound.withPending (h : s.Sound H) (x : List Instr) : (s.withPending x).Sound H :=
  h.quiet (.of_loads rfl rfl rfl rfl) (s.withPending_unmoved x)

theorem State.Sound.reach (h : s.Sound H) (due : Nat) : (s.reach due).Sound H :=
  h.quiet (.of_loads rfl rfl rfl rfl) (s.withNow_unmoved _)

theorem State.Sound.withLink (h : s.Sound H) (x : Link) : (s.withLink x).Sound H :=
  h.quiet (.of_loads rfl rfl rfl rfl) (s.withLink_unmoved x)

theorem State.Sound.withStore (h : s.Sound H) {x : Store} (hx : x.mode = s.store.mode) : (s.withStore x).Sound H :=
  h.quiet (.of_loads rfl rfl hx rfl) (s.withStore_unmoved x)

theorem State.Sound.withMemory (h : s.Sound H) (x : Memory) : (s.withMemory x).Sound H :=
  h.quiet (.of_loads rfl rfl rfl rfl) (s.withMemory_unmoved x)

theorem State.Sound.withPort (h : s.Sound H) (x : TempPort) : (s.withPort x).Sound H :=
  h.quiet (.of_loads rfl rfl rfl rfl) (s.withPort_unmoved x)

theorem State.Sound.withButtons (h : s.Sound H) (x : ButtonLevels) : (s.withButtons x).Sound H :=
  h.quiet (.of_loads rfl rfl rfl rfl) (s.withButtons_unmoved x)

theorem State.Sound.withStationAlarms (h : s.Sound H) (x : List StationAlarm) : (s.withStationAlarms x).Sound H :=
  h.quiet (.of_loads rfl rfl rfl rfl) (s.withStationAlarms_unmoved x)

theorem State.Sound.latchStation (h : s.Sound H) (k : StationAlarm) : (s.latchStation k).Sound H := h.withStationAlarms _

theorem State.Sound.modMeter (h : s.Sound H) (m : MeterId) (f : Meter → Meter) : (s.modMeter m f).Sound H :=
  h.quiet (.of_loads rfl rfl rfl rfl) (s.modMeter_unmoved m f)

theorem State.Sound.modChannel (h : s.Sound H) (m : MeterId) (f : TempChannel → TempChannel) : (s.modChannel m f).Sound H :=
  h.quiet (.of_loads rfl rfl rfl rfl) (s.modChannel_unmoved m f)

theorem State.Sound.modInjector (h : s.Sound H) (i : InjId) (f : Injector → Injector) : (s.modInjector i f).Sound H :=
  h.quiet (.of_loads rfl rfl rfl rfl) (s.modInjector_unmoved i f)

/-- A change of an arm's sequencer that leaves its target, and its valve if it does not close it. -/
theorem State.Sound.modArm (h : s.Sound H) (n : ArmId) {f : ArmSeq → ArmSeq}
    (ht : (f (s.arm n)).gasTarget = (s.arm n).gasTarget)
    (hv : (f (s.arm n)).valve = .close ∨ (f (s.arm n)).valve = (s.arm n).valve) : (s.modArm n f).Sound H :=
  h.quiet (.of_loads rfl rfl rfl rfl) (s.modArm_unmoved n ht hv)

theorem State.Sound.modRatio (h : s.Sound H) (n : ArmId) {f : Ratio → Ratio} (hf : ∀ r, (f r).setpoint = r.setpoint) :
    (s.modRatio n f).Sound H :=
  h.quiet (.of_loads rfl rfl rfl rfl) (s.modRatio_unmoved n hf)

theorem State.Sound.modAlarm (h : s.Sound H) (n : ArmId) {f : ArmAlarms → ArmAlarms}
    (hf : ∀ a, (f a).latched.Sublist a.latched) : (s.modAlarm n f).Sound H :=
  h.quiet (.of_loads rfl rfl rfl rfl) (s.modAlarm_unmoved n hf)

theorem State.Sound.holdCause (h : s.Sound H) (n : ArmId) (c : HoldCause) : (s.holdCause n c).Sound H :=
  h.kept (s.holdCause_keeps n c) (s.holdCause_placed n c) h.inv.holdCause'

theorem State.Sound.holdAll (h : s.Sound H) (c : HoldCause) : (s.holdAll c).Sound H :=
  h.kept (s.holdAll_keeps c) (s.holdAll_placed c) (h.inv.holdAll c)

theorem State.Sound.detect (h : s.Sound H) (n : ArmId) (k : AlarmKind) : (s.detect n k).Sound H :=
  h.kept (s.detect_keeps n k) (s.detect_placed n k) (h.inv.detect k)

theorem State.Sound.detectIf (h : s.Sound H) (b : Bool) (n : ArmId) (k : AlarmKind) : (s.detectIf b n k).Sound H := by
  rw [State.detectIf]
  split
  · exact h.detect n k
  · exact h

theorem State.Sound.sample (h : s.Sound H) (n : ArmId) : (s.sample n).Sound H :=
  h.kept (s.sample_keeps n) (s.sample_placed n) (h.inv.sample id)

theorem State.Sound.enterSettle (h : s.Sound H) (n : ArmId) : (s.enterSettle State.examine n).Sound H :=
  h.tidy (s.enterSettle_roams n).tidy h.inv.enterSettle

theorem State.Sound.promote (h : s.Sound H) (n : ArmId) : (s.promote n).Sound H :=
  h.quiet (s.promote_tidy n) (State.promote_unmoved h.tables.loadNumbers n)

theorem State.Sound.becomeAvailable (h : s.Sound H) (n : ArmId) : (s.becomeAvailable n).Sound H :=
  ((h.modArm n rfl (Or.inr rfl)).modArm n rfl (Or.inr rfl)).promote n

theorem State.Sound.leaveChecking (h : s.Sound H) (n : ArmId) : (s.leaveChecking n).Sound H := by
  rw [State.leaveChecking]
  split
  · exact h.becomeAvailable n
  · exact h

theorem State.Sound.enterChecking (h : s.Sound H) (n : ArmId) : (s.enterChecking n).Sound H := by
  rw [State.enterChecking]
  split
  · exact h.becomeAvailable n
  · exact h.modArm n rfl (Or.inr rfl)

theorem State.Sound.endSettleIfOver (h : s.Sound H) (n : ArmId) : (s.endSettleIfOver n).Sound H :=
  h.tidy (s.endSettleIfOver_tidy n) (h.inv.endSettleIfOver h.tables.loadNumbers)

theorem State.Sound.abort (h : s.Sound H) (n : ArmId) : (s.abort n).Sound H :=
  h.tidy (s.abort_tidy n) (h.inv.abort h.tables.loadNumbers)

/-- The end of a record that flows no more. -/
theorem State.Sound.endRecord (h : s.Sound H) (hphase : s.phase n = none) (r : EndReason) : (s.endRecord n r).Sound H :=
  h.tidy (s.endRecord_tidy n r) (h.inv.endRecord h.tables.loadNumbers (by rw [hphase]; rfl)
    (h.inv.notQueued_of_notHoldable (by rw [hphase]; rfl)) r)

/-- What the start conditions give (R11). -/
theorem State.mayStart_iff {l : Load} : s.mayStart n l = true ↔ s.isRunning = true ∧ (s.arm n).mode = .available ∧
    s.permits n l.recipe ∧ s.latchedClass n .stop = false := by
  simp only [State.mayStart, Bool.and_eq_true, beq_iff_eq, Bool.not_eq_true', and_assoc]
  rfl

theorem State.Sound.start (h : s.Sound H) {l : Load} (hl : s.active n = some l) (hready : l.state = .ready)
    (hmay : s.mayStart n l = true) : (s.start n).Sound H := by
  obtain ⟨-, -, hpermits, hlatched⟩ := State.mayStart_iff.mp hmay
  exact h.kept (s.start_keeps n) (s.start_placed n) (h.inv.start id hl hready hpermits hlatched)

theorem State.Sound.resume (h : s.Sound H) {l : Load} (hl : s.active n = some l) (hheld : l.state = .held)
    (hmay : s.mayStart n l = true) : (s.resume n).Sound H := by
  obtain ⟨-, -, hpermits, hlatched⟩ := State.mayStart_iff.mp hmay
  exact h.kept (s.resume_keeps n) (s.resume_placed n) (h.inv.resume id hl hheld hpermits hlatched)

theorem State.Sound.startEdge (h : s.Sound H) (n : ArmId) : (s.startEdge n).Sound H := by
  rw [State.startEdge]
  split
  · rename_i l hl
    split
    · rename_i hmay
      split
      · rename_i hready
        exact h.start hl hready hmay
      · rename_i hheld
        exact h.resume hl hheld hmay
      · exact h
      · exact h
      · exact h
    · exact h
  · exact h

theorem State.Sound.stopEdge (h : s.Sound H) (n : ArmId) : (s.stopEdge n).Sound H := by
  rw [State.stopEdge]
  split
  · exact h.holdCause n _
  · exact h

/-! ## Permissives (R163, R164) -/

/-- What a lost permissive leaves an arm, it still allows a record it does not bear on. -/
theorem State.permissivesMet_lost {p : Permissive} {f : Nat} (hmet : s.permissivesMet n f = true)
    (hbears : (permissiveBears p n && (p != .headerPress || decide (0 < f))) = false) :
    (s.withLevels (setLevel s.levels p false)).permissivesMet n f = true := by
  simp only [State.permissivesMet, State.withLevels_levels, levelOf_setLevel, Bool.and_eq_true] at hmet ⊢
  obtain ⟨⟨⟨⟨hestop, hground⟩, hoverfill⟩, hconnected⟩, hpress⟩ := hmet
  rcases p with _ | _ | bay | bay | m
  · simp [permissiveBears] at hbears
  · simp only [permissiveBears, Bool.true_and, bne_self_eq_false, Bool.false_or, decide_eq_false_iff_not] at hbears
    have hzero : f = 0 := by omega
    simp [hestop, hground, hoverfill, hconnected, hzero]
  · have hbay : bayOf n ≠ bay := by simpa [permissiveBears] using hbears
    simp [hestop, hground, hoverfill, hconnected, hbay] at hpress ⊢
    exact hpress
  · have hbay : bayOf n ≠ bay := by simpa [permissiveBears] using hbears
    simp [hestop, hground, hoverfill, hconnected, hbay] at hpress ⊢
    exact hpress
  · have harm : n ≠ m := fun he => by simp [permissiveBears, he] at hbears
    simp [hestop, hground, hoverfill, hconnected, harm] at hpress ⊢
    exact hpress

/-- A permissive restored takes no permission away. -/
theorem State.permissivesMet_restored {f : Nat} (hmet : s.permissivesMet n f = true) (p : Permissive) :
    (s.withLevels (setLevel s.levels p true)).permissivesMet n f = true := by
  have hlevel (q : Permissive) (hq : levelOf s.levels q = true) : levelOf (setLevel s.levels p true) q = true := by
    rw [levelOf_setLevel]
    split
    · rfl
    · exact hq
  simp only [State.permissivesMet, State.withLevels_levels, Bool.and_eq_true, Bool.or_eq_true] at hmet ⊢
  obtain ⟨⟨⟨⟨hestop, hground⟩, hoverfill⟩, hconnected⟩, hpress⟩ := hmet
  exact ⟨⟨⟨⟨hlevel _ hestop, hlevel _ hground⟩, hlevel _ hoverfill⟩, hlevel _ hconnected⟩, hpress.imp_right (hlevel _)⟩

theorem Keeps.permits (h : Keeps s t) : t.permits = s.permits := by
  funext n k
  simp only [State.permits, State.permissivesMet, State.fractionOf, State.recipe?, h.levels, h.recipes]

/-- Every record in its place, and each arm permitted by the levels as they are now. -/
theorem State.Sound.relevel (h : s.Sound H) {v : PermLevels} (hk : Keeps (s.withLevels v) t)
    (hp : Placed (s.withLevels v) t) (hi : t.Inv H H (s.withLevels v).permits) : t.Sound H where
  tables := h.tables.of_keys hk.keys hk.recipes
  lists := hp.lists ((Placed.of_loads (s := s) (t := s.withLevels v) rfl).lists h.lists)
  stopped hr := hp.loads_nil (h.stopped (by rw [State.isRunning, hk.store] at hr; exact hr))
  inv := by rwa [hk.permits]

theorem State.Sound.permissiveLoss (h : s.Sound H) (p : Permissive) :
    ((s.withLevels (setLevel s.levels p false)).loseAll p).Sound H :=
  h.relevel (State.loseAll_keeps _ p) (State.loseAll_placed _ p)
    (((h.inv.unmoved (s.withLevels_unmoved _)).loseAll p).permit fun _ _ hk => State.permissivesMet_lost hk.1 hk.2)

theorem State.Sound.permissiveRestore (h : s.Sound H) (p : Permissive) :
    (s.withLevels (setLevel s.levels p true)).Sound H :=
  h.relevel (.refl _) (.refl _)
    ((h.inv.unmoved (s.withLevels_unmoved _)).permit fun _ _ hk => State.permissivesMet_restored hk p)

end

end Sys2Proof.Machine
end

section
/-! SUPPORT. Staging, retirement and the recipe requests keep the tables, the lists and the flow (R1, R7, R10, R24,
R31 to R37). -/

namespace Sys2Proof.Machine

section
variable {s t : State} {n m : ArmId} {H : Prop}

/-! ## The recipe table alone -/

/-- Recipes changed, the fraction of each that a record names kept. -/
theorem State.withRecipes_unmoved {rs : List Recipe}
    (h : ∀ l ∈ s.loads, (s.withRecipes rs).fractionOf l.recipe = s.fractionOf l.recipe) : Unmoved s (s.withRecipes rs) := by
  refine { Unmoved.refl s with fractions := fun n x hx => ?_ }
  cases hl : s.active n with
  | none => rw [State.stance, hl] at hx; cases hx
  | some l =>
    rw [State.stance_active hl, Load.stance] at hx
    split at hx
    · rw [← Option.some.inj hx]
      exact h l (State.active_mem hl)
    · cases hx

/-- A change of the recipe table that the records stand. -/
theorem State.Sound.withRecipes (h : s.Sound H) {rs : List Recipe} (ht : (s.withRecipes rs).TablesOk)
    (hf : ∀ l ∈ s.loads, (s.withRecipes rs).fractionOf l.recipe = s.fractionOf l.recipe) : (s.withRecipes rs).Sound H where
  tables := ht
  lists := (Placed.of_loads (s := s) (t := s.withRecipes rs) rfl).lists h.lists
  stopped := h.stopped
  inv := by
    have hinv := h.inv.unmoved (State.withRecipes_unmoved hf)
    refine ⟨hinv.oneRequest, fun n => ?_, hinv.within, hinv.waits⟩
    have harm := hinv.arms n
    refine ⟨harm.requests, fun l hl hphase => (harm.allowed l hl hphase).imp_left fun hP => ?_, harm.valve, harm.setpoint,
      harm.header⟩
    have hfraction := hf l (State.active_mem (s := s) hl)
    rw [State.permits, hfraction]
    exact hP

/-- A recipe with count 0 is named by no record (R33). -/
theorem State.TablesOk.notNamed (h : s.TablesOk) {k : Nat} {r : Recipe} (hr : s.recipe? k = some r) (hcount : r.count = 0) :
    ∀ l ∈ s.loads, l.recipe ≠ k := fun l hl hk => by
  have hnamed := h.counts r (State.recipe?_mem hr)
  rw [hcount, State.recipe?_number hr, State.namedBy] at hnamed
  have hmem : l ∈ s.loads.filter fun l => l.recipe == k := List.mem_filter.mpr ⟨hl, by simpa using hk⟩
  rw [List.length_eq_zero_iff.mp hnamed.symm] at hmem
  cases hmem

theorem map_number_modRecipe (rs : List Recipe) (k : Nat) {f : Recipe → Recipe} (hf : ∀ r, (f r).number = r.number) :
    (rs.map fun r => if r.number == k then f r else r).map (·.number) = rs.map (·.number) := by
  rw [List.map_map]
  refine List.map_congr_left fun r _ => ?_
  simp only [Function.comp_apply, apply_ite Recipe.number, hf, ite_self]

/-! ## AMEND RECIPE and RETIRE RECIPE -/

theorem State.Sound.amendRecipe (h : s.Sound H) {k : Nat} {r : Recipe} (hr : s.recipe? k = some r) (hcount : r.count = 0)
    (v : RecipeFields) : (s.modRecipe k (·.amend v)).Sound H := by
  have hnot := h.tables.notNamed hr hcount
  have hother {j : Nat} (hj : j ≠ k) : (s.modRecipe k (·.amend v)).recipe? j = s.recipe? j := by
    rw [State.modRecipe_recipe? _ _ _ (by exact fun _ => rfl), if_neg hj]
  have hmem {x : Recipe} (hx : x ∈ (s.modRecipe k (·.amend v)).recipes) :
      ∃ y ∈ s.recipes, x.number = y.number ∧ x.count = y.count ∧ x.state = y.state := by
    obtain ⟨y, hy, rfl⟩ := List.mem_map.mp hx
    refine ⟨y, hy, ?_⟩
    split <;> exact ⟨rfl, rfl, rfl⟩
  refine h.withRecipes ⟨h.tables.loadsFit, h.tables.loadNumbers, ?_, ?_, fun x hx => ?_, fun l hl => ?_, fun x hx => ?_⟩
    fun l hl => ?_
  · rw [State.withRecipes_recipes, List.length_map]
    exact h.tables.recipesFit
  · rw [State.withRecipes_recipes, map_number_modRecipe _ _ (by exact fun _ => rfl)]
    exact h.tables.recipeNumbers
  · obtain ⟨y, hy, hnumber, hcount, -⟩ := hmem hx
    rw [hnumber, hcount]
    exact h.tables.counts y hy
  · have hsame := hother (hnot l hl)
    rw [State.modRecipe] at hsame
    rw [hsame]
    exact h.tables.named l hl
  · obtain ⟨y, hy, -, hcount, hstate⟩ := hmem hx
    rw [hcount, hstate]
    exact h.tables.retiring y hy
  · have hsame := hother (hnot l hl)
    rw [State.modRecipe] at hsame
    rw [State.fractionOf, hsame]
    rfl

theorem State.Sound.retireRecipe (h : s.Sound H) {k : Nat} {r : Recipe} (hr : s.recipe? k = some r) :
    (s.retireRecipe r).Sound H := by
  have hnumber := State.recipe?_number hr
  rw [State.retireRecipe]
  split
  · rename_i hcount
    have hnot := h.tables.notNamed hr hcount
    have hother {j : Nat} (hj : j ≠ r.number) :
        (s.withRecipes (s.recipes.filter fun x => x.number != r.number)).recipe? j = s.recipe? j := by
      rw [State.recipe?, State.withRecipes_recipes, find?_filter_number, if_neg hj]
      rfl
    refine h.withRecipes ⟨h.tables.loadsFit, h.tables.loadNumbers, (List.length_filter_le _ _).trans h.tables.recipesFit,
      h.tables.recipeNumbers.sublist (List.filter_sublist.map _), fun x hx => h.tables.counts x (List.mem_filter.mp hx).1,
      fun l hl => ?_, fun x hx => h.tables.retiring x (List.mem_filter.mp hx).1⟩ fun l hl => ?_
    · rw [hother (by rw [hnumber]; exact hnot l hl)]
      exact h.tables.named l hl
    · rw [State.fractionOf, hother (by rw [hnumber]; exact hnot l hl)]
      rfl
  · rename_i hcount
    have hget (j : Nat) : ((s.modRecipe r.number fun x => { x with state := .retiring }).recipe? j).map
        (fun x => (x.number, x.fraction)) = (s.recipe? j).map fun x => (x.number, x.fraction) := by
      rw [State.modRecipe_recipe? _ _ _ (by exact fun _ => rfl)]
      split
      · rw [Option.map_map]
        rfl
      · rfl
    have hmem {x : Recipe} (hx : x ∈ (s.modRecipe r.number fun x => { x with state := .retiring }).recipes) :
        ∃ y ∈ s.recipes, x.number = y.number ∧ x.count = y.count ∧ (x.state = y.state ∨ y.number = r.number) := by
      obtain ⟨y, hy, rfl⟩ := List.mem_map.mp hx
      refine ⟨y, hy, ?_⟩
      split
      · rename_i hy
        exact ⟨rfl, rfl, Or.inr (by simpa using hy)⟩
      · exact ⟨rfl, rfl, Or.inl rfl⟩
    refine h.withRecipes ⟨h.tables.loadsFit, h.tables.loadNumbers, ?_, ?_, fun x hx => ?_, fun l hl => ?_, fun x hx => ?_⟩
      fun l hl => ?_
    · rw [State.withRecipes_recipes, List.length_map]
      exact h.tables.recipesFit
    · rw [State.withRecipes_recipes, map_number_modRecipe _ _ (by exact fun _ => rfl)]
      exact h.tables.recipeNumbers
    · obtain ⟨y, hy, hxy, hcount, -⟩ := hmem hx
      rw [hxy, hcount]
      exact h.tables.counts y hy
    · have hsome := congrArg Option.isSome (hget l.recipe)
      rw [Option.isSome_map, Option.isSome_map] at hsome
      exact hsome.trans (h.tables.named l hl)
    · obtain ⟨y, hy, -, hxcount, hstate⟩ := hmem hx
      rw [hxcount]
      rcases hstate with hstate | hyr
      · rw [hstate]
        exact h.tables.retiring y hy
      · have hyr : y = r := List.inj_on_of_nodup_map h.tables.recipeNumbers hy (State.recipe?_mem hr) hyr
        rw [hyr]
        exact fun _ => Nat.pos_of_ne_zero hcount
    · have hfraction := congrArg (fun o => (o.map (·.2)).getD 0) (hget l.recipe)
      simp only [Option.map_map] at hfraction
      exact hfraction

/-! ## DEFINE RECIPE -/

theorem State.recipe?_append {k : Nat} (x : Recipe) (hk : (s.recipe? k).isSome = true) :
    (s.withRecipes (s.recipes ++ [x])).recipe? k = s.recipe? k := by
  rw [State.recipe?, State.withRecipes_recipes, List.find?_append, ← State.recipe?, Option.or_of_isSome hk]

theorem State.Sound.defineRecipe (h : s.Sound H) {v : RecipeFields} (hnew : s.recipe? v.number = none)
    (hfit : s.recipes.length < 24) : (s.withRecipes (s.recipes ++ [v.define])).Sound H := by
  have hnone : ∀ x ∈ s.recipes, x.number ≠ v.number := fun x hx hk => by
    have hfind := List.find?_eq_none.mp hnew x hx
    simp [hk] at hfind
  refine h.withRecipes ⟨h.tables.loadsFit, h.tables.loadNumbers, ?_, ?_, fun x hx => ?_, fun l hl => ?_, fun x hx => ?_⟩
    fun l hl => ?_
  · rw [State.withRecipes_recipes, List.length_append]
    exact hfit
  · rw [State.withRecipes_recipes, List.map_append, List.nodup_append]
    refine ⟨h.tables.recipeNumbers, List.nodup_singleton _, fun a ha b hb => ?_⟩
    obtain ⟨x, hx, rfl⟩ := List.mem_map.mp ha
    rw [List.map_singleton, List.mem_singleton] at hb
    rw [hb]
    exact hnone x hx
  · rcases List.mem_append.mp hx with hx | hx
    · exact h.tables.counts x hx
    · rw [List.mem_singleton.mp hx]
      symm
      refine List.length_eq_zero_iff.mpr (List.filter_eq_nil_iff.mpr fun l hl hk => ?_)
      obtain ⟨y, hy⟩ := Option.isSome_iff_exists.mp (h.tables.named l hl)
      have hk : l.recipe = v.number := beq_iff_eq.mp hk
      exact hnone y (State.recipe?_mem hy) ((State.recipe?_number hy).trans hk)
  · rw [State.recipe?_append _ (h.tables.named l hl)]
    exact h.tables.named l hl
  · rcases List.mem_append.mp hx with hx | hx
    · exact h.tables.retiring x hx
    · rw [List.mem_singleton.mp hx]
      exact fun hs => by cases hs
  · rw [State.fractionOf, State.recipe?_append _ (h.tables.named l hl)]
    rfl

end

end Sys2Proof.Machine
end

section
/-! SUPPORT. Staging and retirement of a record: what they make of the tables and the lists, and that they keep the
invariant (R1, R7, R10, R24, R33, R34). -/

namespace Sys2Proof.Machine

section
variable {s t : State} {n m : ArmId} {H : Prop}

/-! ## Staging (R10, R28) -/

/-- The record STAGE LOAD creates. -/
def State.newLoad (s : State) (n : ArmId) (v : StageFields) (r : Recipe) : Load :=
  Load.staged v.number n v.recipe v.preset (s.bindEntries n r.entries)

/-- The record joined to the table and counted, before the promotion. -/
def State.joined (s : State) (n : ArmId) (v : StageFields) (r : Recipe) : State :=
  (s.withLoads (s.loads ++ [s.newLoad n v r])).countUp v.recipe

/-- A recipe one record more names. -/
def Recipe.countedUp (r : Recipe) : Recipe := { r with count := r.count + 1 }

theorem State.countUp_eq (s : State) (k : Nat) : s.countUp k = s.modRecipe k Recipe.countedUp := rfl

theorem State.stage_eq (s : State) (n : ArmId) (v : StageFields) (r : Recipe) : s.stage n v r = (s.joined n v r).promote n := rfl

section
variable {v : StageFields} {r : Recipe}

theorem State.joined_loads (s : State) (n : ArmId) (v : StageFields) (r : Recipe) :
    (s.joined n v r).loads = s.loads ++ [s.newLoad n v r] := rfl

theorem State.joined_active (s : State) (n m : ArmId) (v : StageFields) (r : Recipe) :
    (s.joined n v r).active m = s.active m := by
  rw [State.active, State.joined_loads, List.find?_append, ← State.active]
  have hnot : [s.newLoad n v r].find? (fun l => l.arm == m && l.isActive) = none := by
    simp [State.newLoad, Load.staged, Load.isActive]
  rw [hnot, Option.or_none]

theorem State.joined_armList (s : State) (n m : ArmId) (v : StageFields) (r : Recipe) :
    (s.joined n v r).armList m = s.armList m ++ if m = n then [s.newLoad n v r] else [] := by
  rw [State.armList, State.joined_loads, List.filter_append, ← State.armList]
  congr 1
  by_cases hm : m = n
  · simp [hm, State.newLoad, Load.staged]
  · simp [hm, State.newLoad, Load.staged, Ne.symm hm]

theorem State.joined_recipe? (s : State) (n : ArmId) (v : StageFields) (r : Recipe) (k : Nat) :
    (s.joined n v r).recipe? k = if k = v.recipe then (s.recipe? k).map Recipe.countedUp else s.recipe? k :=
  State.modRecipe_recipe? (s.withLoads _) v.recipe k fun _ => rfl

theorem State.joined_unmoved (s : State) (n : ArmId) (v : StageFields) (r : Recipe) : Unmoved s (s.joined n v r) := by
  refine { Unmoved.refl s with stances := fun m => ?_, fractions := fun _ x _ => ?_ }
  · rw [State.stance, State.stance, State.joined_active]
  · rw [State.fractionOf, State.fractionOf, State.joined_recipe?]
    split
    · rw [Option.map_map]
      rfl
    · rfl

theorem State.TablesOk.joined (h : s.TablesOk) (n : ArmId) (hfit : s.loads.length < 16) (hnew : s.load? v.number = none)
    (hr : s.recipe? v.recipe = some r) : (s.joined n v r).TablesOk := by
  have hmem {x : Recipe} (hx : x ∈ (s.joined n v r).recipes) :
      ∃ y ∈ s.recipes, x.number = y.number ∧ x.state = y.state ∧
        x.count = y.count + if y.number = v.recipe then 1 else 0 := by
    obtain ⟨y, hy, rfl⟩ := List.mem_map.mp hx
    refine ⟨y, hy, ?_⟩
    by_cases hyk : y.number = v.recipe <;> simp [hyk]
  have hnumbers : ∀ l ∈ s.loads, l.number ≠ v.number := fun l hl hk => by
    have hfind := List.find?_eq_none.mp hnew l hl
    simp [hk] at hfind
  refine ⟨?_, ?_, ?_, ?_, fun x hx => ?_, fun l hl => ?_, fun x hx hs => ?_⟩
  · rw [State.joined_loads, List.length_append]
    exact hfit
  · rw [State.joined_loads, List.map_append, List.nodup_append]
    refine ⟨h.loadNumbers, List.nodup_singleton _, fun a ha b hb => ?_⟩
    obtain ⟨l, hl, rfl⟩ := List.mem_map.mp ha
    rw [List.map_singleton, List.mem_singleton] at hb
    rw [hb]
    exact hnumbers l hl
  · exact (List.length_map _).le.trans h.recipesFit
  · rw [State.joined, State.countUp_eq, State.modRecipe, State.withRecipes_recipes,
      map_number_modRecipe _ _ (by exact fun _ => rfl)]
    exact h.recipeNumbers
  · obtain ⟨y, hy, hnumber, -, hcount⟩ := hmem hx
    have hone : [s.newLoad n v r].countP (fun l => l.recipe == y.number) = if y.number = v.recipe then 1 else 0 := by
      rw [List.countP_singleton]
      by_cases hy : y.number = v.recipe
      · simp [State.newLoad, Load.staged, hy]
      · simp [State.newLoad, Load.staged, hy, Ne.symm hy]
    rw [hcount, hnumber, State.namedBy, State.joined_loads, ← List.countP_eq_length_filter, List.countP_append, hone,
      List.countP_eq_length_filter, h.counts y hy, State.namedBy]
  · rw [State.joined_recipe?]
    rcases List.mem_append.mp hl with hl | hl
    · split
      · rw [Option.isSome_map]
        exact h.named l hl
      · exact h.named l hl
    · have hrecipe : l.recipe = v.recipe := by rw [List.mem_singleton.mp hl]; rfl
      rw [if_pos hrecipe, hrecipe, hr]
      rfl
  · obtain ⟨y, hy, -, hstate, hcount⟩ := hmem hx
    have hpos := h.retiring y hy (hstate ▸ hs)
    omega

theorem State.ListsOk.joined (h : s.ListsOk) (hstaged : s.stagedCount n < 3) : (s.joined n v r).ListsOk := by
  rw [State.listsOk_iff] at *
  intro m
  rw [State.ranks, State.joined_armList, List.map_append]
  by_cases hm : m = n
  · rw [if_pos hm]
    have hok := h m
    have hcount := s.stagedCount_eq n
    rw [← hm] at hcount hstaged
    have hrank : [s.newLoad n v r].map (·.state.rank) = [2] := rfl
    rw [hrank, ← State.ranks]
    refine ⟨?_, ?_, ?_⟩
    · rw [List.count_append]
      exact hok.oneActive
    · rw [List.count_append, ← hcount, List.count_singleton_self]
      exact hstaged
    · rw [List.pairwise_append]
      refine ⟨hok.order, List.pairwise_singleton _ _, fun a ha b hb => ?_⟩
      obtain ⟨l, -, rfl⟩ := List.mem_map.mp ha
      rw [List.mem_singleton.mp hb]
      exact l.state.rank_le
  · rw [if_neg hm, List.map_nil, List.append_nil]
    exact h m

theorem State.Sound.stage (h : s.Sound H) (hrun : s.isRunning = true) (hfit : s.loads.length < 16)
    (hnew : s.load? v.number = none) (hr : s.recipe? v.recipe = some r) (hstaged : s.stagedCount n < 3) :
    (s.stage n v r).Sound H := by
  have hfraction (k : Nat) : (s.joined n v r).fractionOf k = s.fractionOf k := by
    rw [State.fractionOf, State.fractionOf, State.joined_recipe?]
    split
    · rw [Option.map_map]
      rfl
    · rfl
  rw [State.stage_eq]
  refine State.Sound.promote ⟨h.tables.joined n hfit hnew hr, h.lists.joined hstaged, fun hstop => ?_, ?_⟩ n
  · have hstop : s.isRunning = false := hstop
    rw [hrun] at hstop
    cases hstop
  · refine (h.inv.unmoved (s.joined_unmoved n v r)).permit fun m k hk => ?_
    rw [State.permits, hfraction]
    exact hk

end

/-! ## Retirement (R24, R28, R34) -/

/-- The record out of the table, its strokes orphaned and its recipe told, before the promotion. -/
def State.removed (s : State) (l : Load) : State :=
  ((s.withLoads (s.loads.filter fun x => x.number != l.number)).orphanStrokes l.number).noticeRemoval l.recipe

theorem State.retire_eq (s : State) (l : Load) :
    s.retire l = if l.state = .ready then (s.removed l).promote l.arm else s.removed l := rfl

theorem State.orphanStrokes_onlyInjectors (s : State) (k : Nat) : OnlyInjectors s (s.orphanStrokes k) :=
  OnlyInjectors.foldl _ (fun s i => s.modInjector_onlyInjectors i _) s _

/-- Everything but the three blocks a retirement tells. -/
theorem State.removed_rest (s : State) (l : Load) : s.removed l = { s with
    loads := s.loads.filter fun x => x.number != l.number
    recipes := (s.removed l).recipes
    injectors := (s.removed l).injectors } := by
  rw [State.removed, State.noticeRemoval]
  have honly := State.orphanStrokes_onlyInjectors (s.withLoads (s.loads.filter fun x => x.number != l.number)) l.number
  rw [OnlyInjectors] at honly
  rw [honly]
  rfl

theorem State.removed_recipes (s : State) (l : Load) : (s.removed l).recipes =
    ((s.recipes.map fun r => if r.number == l.recipe then r.countDown else r).filter fun r =>
      !(r.number == l.recipe && r.state == .retiring && r.count == 0)) := by
  rw [State.removed, State.noticeRemoval, State.withRecipes_recipes,
    (State.orphanStrokes_onlyInjectors _ l.number).issues.recipes]
  rfl

theorem State.removed_loads (s : State) (l : Load) :
    (s.removed l).loads = s.loads.filter fun x => x.number != l.number := by rw [State.removed_rest]

theorem State.removed_recipe_other (s : State) (l : Load) {k : Nat} (hk : k ≠ l.recipe) :
    (s.removed l).recipe? k = s.recipe? k := by
  have hdown : (s.modRecipe l.recipe Recipe.countDown).recipe? k = s.recipe? k := by
    rw [State.modRecipe_recipe? s l.recipe k (f := Recipe.countDown) fun _ => rfl, if_neg hk]
  have hkept : (fun r : Recipe => decide ((!(r.number == l.recipe && r.state == .retiring && r.count == 0)) = true ∧
      (r.number == k) = true)) = fun r => r.number == k := funext fun r => by
    by_cases hr : r.number = k <;> simp [hr, hk]
  rw [State.recipe?, State.removed_recipes, List.find?_filter, hkept]
  exact hdown

/-- The recipe of a record removed, the numbers being unlike. -/
theorem State.removed_recipe_self (hn : (s.recipes.map (·.number)).Nodup) {l : Load} {r : Recipe}
    (hr : s.recipe? l.recipe = some r) : (s.removed l).recipe? l.recipe =
      if r.state = .retiring ∧ r.count - 1 = 0 then none else some r.countDown := by
  have hnumber := State.recipe?_number hr
  have hself {x : Recipe} (hx : x ∈ s.recipes) (hk : x.number = l.recipe) : x = r :=
    List.inj_on_of_nodup_map hn hx (State.recipe?_mem hr) (hk.trans hnumber.symm)
  rw [State.recipe?, State.removed_recipes]
  split
  · rename_i hgone
    rw [List.find?_eq_none]
    intro x hx hk
    obtain ⟨hx, hkept⟩ := List.mem_filter.mp hx
    obtain ⟨y, hy, rfl⟩ := List.mem_map.mp hx
    have hyk : y.number = l.recipe := by
      split at hk <;> exact beq_iff_eq.mp hk
    have hyr := hself hy hyk
    subst hyr
    simp [hnumber, Recipe.countDown, hgone] at hkept
  · rename_i hkept
    have hmem : r.countDown ∈ ((s.recipes.map fun r => if r.number == l.recipe then r.countDown else r).filter fun r =>
        !(r.number == l.recipe && r.state == .retiring && r.count == 0)) := by
      refine List.mem_filter.mpr ⟨List.mem_map.mpr ⟨r, State.recipe?_mem hr, if_pos (by simpa using hnumber)⟩, ?_⟩
      simp only [Recipe.countDown, hnumber, BEq.rfl, Bool.true_and, Bool.not_eq_true', Bool.and_eq_false_iff, beq_eq_false_iff_ne]
      exact not_and_or.mp hkept
    have hunique : (((s.recipes.map fun r => if r.number == l.recipe then r.countDown else r).filter fun r =>
        !(r.number == l.recipe && r.state == .retiring && r.count == 0)).map (·.number)).Nodup := by
      refine List.Nodup.sublist (List.filter_sublist.map _) ?_
      rw [map_number_modRecipe _ _ (by exact fun _ => rfl)]
      exact hn
    have hfind := find?_key hunique hmem
    rw [show r.countDown.number = l.recipe from hnumber] at hfind
    exact hfind

/-! ## A retirement keeps the invariant -/

/-- With numbers unlike, a removal takes one record out. -/
theorem filter_number_eq_erase {ls : List Load} (hn : (ls.map (·.number)).Nodup) {l : Load} (hl : l ∈ ls) :
    ls.filter (fun x => x.number != l.number) = ls.erase l := by
  rw [hn.of_map.erase_eq_filter]
  refine List.filter_congr fun x hx => ?_
  rw [Bool.eq_iff_iff, bne_iff_ne, bne_iff_ne]
  exact ⟨fun h he => h (by rw [he]), fun h he => h (List.inj_on_of_nodup_map hn hx hl he)⟩

theorem State.namedBy_removed (hn : (s.loads.map (·.number)).Nodup) {l : Load} (hl : l ∈ s.loads) (k : Nat) :
    (s.removed l).namedBy k = s.namedBy k - if l.recipe = k then 1 else 0 := by
  rw [State.namedBy, State.removed_loads, filter_number_eq_erase hn hl, ← List.countP_eq_length_filter, List.countP_erase,
    List.countP_eq_length_filter, State.namedBy]
  simp [hl]

theorem State.mem_removed {l x : Load} : x ∈ (s.removed l).loads ↔ x ∈ s.loads ∧ x.number ≠ l.number := by
  rw [State.removed_loads, List.mem_filter, bne_iff_ne]

theorem State.TablesOk.removed (h : s.TablesOk) {l : Load} (hl : l ∈ s.loads) : (s.removed l).TablesOk := by
  obtain ⟨r, hr⟩ := Option.isSome_iff_exists.mp (h.named l hl)
  have hrcount := h.counts r (State.recipe?_mem hr)
  have hrnumber := State.recipe?_number hr
  have hmem {x : Recipe} (hx : x ∈ (s.removed l).recipes) : ∃ y ∈ s.recipes, x.number = y.number ∧ x.state = y.state ∧
      x.count = y.count - (if l.recipe = y.number then 1 else 0) ∧
      (x.number = l.recipe → x.state = .retiring → x.count ≠ 0) := by
    rw [State.removed_recipes] at hx
    obtain ⟨hx, hkept⟩ := List.mem_filter.mp hx
    obtain ⟨y, hy, rfl⟩ := List.mem_map.mp hx
    refine ⟨y, hy, ?_, ?_, ?_, fun hk hs hc => ?_⟩
    · split <;> rfl
    · split <;> rfl
    · by_cases hyk : y.number = l.recipe
      · simp [hyk, Recipe.countDown]
      · simp [hyk, Ne.symm hyk]
    · rw [hk, hs, hc] at hkept
      simp at hkept
  refine ⟨?_, ?_, ?_, ?_, fun x hx => ?_, fun x hx => ?_, fun x hx hs => ?_⟩
  · rw [State.removed_loads]
    exact (List.length_filter_le _ _).trans h.loadsFit
  · rw [State.removed_loads]
    exact h.loadNumbers.sublist (List.filter_sublist.map _)
  · rw [State.removed_recipes]
    exact (List.length_filter_le _ _).trans ((List.length_map _).le.trans h.recipesFit)
  · rw [State.removed_recipes]
    refine List.Nodup.sublist (List.filter_sublist.map _) ?_
    rw [map_number_modRecipe _ _ (by exact fun _ => rfl)]
    exact h.recipeNumbers
  · obtain ⟨y, hy, hnumber, -, hcount, -⟩ := hmem hx
    rw [hcount, hnumber, State.namedBy_removed h.loadNumbers hl, h.counts y hy]
  · obtain ⟨hxs, hne⟩ := State.mem_removed.mp hx
    by_cases hk : x.recipe = l.recipe
    · have hleft : 0 < (s.removed l).namedBy l.recipe :=
        List.length_pos_of_mem (List.mem_filter.mpr ⟨hx, by simpa using hk⟩)
      rw [State.namedBy_removed h.loadNumbers hl, if_pos rfl] at hleft
      rw [hk, State.removed_recipe_self h.recipeNumbers hr, if_neg fun hgone => ?_]
      · rfl
      · have hzero := hgone.2
        rw [hrcount, hrnumber] at hzero
        omega
    · rw [State.removed_recipe_other s l hk]
      exact h.named x hxs
  · obtain ⟨y, hy, hnumber, hstate, hcount, hkept⟩ := hmem hx
    by_cases hk : x.number = l.recipe
    · exact Nat.pos_of_ne_zero (hkept hk hs)
    · have hpos := h.retiring y hy (hstate ▸ hs)
      rw [hcount, if_neg fun hk' => hk (hnumber.trans hk'.symm)]
      exact hpos

theorem State.ListsOk.removed (h : s.ListsOk) (l : Load) : (s.removed l).ListsOk := by
  rw [State.listsOk_iff] at *
  intro m
  refine (h m).sublist (List.Sublist.map _ ?_)
  rw [State.armList, State.removed_loads]
  exact List.filter_sublist.filter _

/-- A search that finds a member a filter keeps. -/
theorem find?_filter_of {α : Type} {p q : α → Bool} {ls : List α} (h : ∀ x, ls.find? p = some x → q x = true) :
    (ls.filter q).find? p = ls.find? p := by
  induction ls with
  | nil => rfl
  | cons a rest ih =>
    rw [List.find?_cons] at h ⊢
    cases hp : p a with
    | true =>
      have hq : q a = true := h a (by rw [hp])
      rw [List.filter_cons, if_pos hq, List.find?_cons, hp]
    | false =>
      have hrest := ih fun x hx => h x (by rw [hp]; exact hx)
      rw [List.filter_cons]
      split
      · rw [List.find?_cons, hp]
        exact hrest
      · exact hrest

/-- Every other active record stays its arm's. -/
theorem State.removed_active (hlists : s.ListsOk) (hn : (s.loads.map (·.number)).Nodup) {l : Load} (hl : l ∈ s.loads)
    (m : ArmId) : (s.removed l).active m = if s.active m = some l then none else s.active m := by
  split
  · rename_i hactive
    refine List.find?_eq_none.mpr fun x hx hp => ?_
    obtain ⟨hxs, hne⟩ := State.mem_removed.mp hx
    simp only [Bool.and_eq_true, beq_iff_eq] at hp
    have hxm := hlists.active_of_mem hxs hp.2
    rw [hp.1, hactive] at hxm
    exact hne (by rw [Option.some.inj hxm])
  · rename_i hactive
    rw [State.active, State.removed_loads]
    refine find?_filter_of fun x hx => ?_
    rw [bne_iff_ne]
    intro hnumber
    have hxl := List.inj_on_of_nodup_map hn (List.mem_of_find?_eq_some hx) hl hnumber
    exact hactive (by rw [← hxl]; exact hx)

theorem State.removed_unmoved (h : s.TablesOk) (hlists : s.ListsOk) {l : Load} (hl : l ∈ s.loads)
    (hstate : l.state ≠ .delivering) : Unmoved s (s.removed l) := by
  have hrest := s.removed_rest l
  have hstance : l.stance = none := if_neg hstate
  refine ⟨fun m => ?_, fun m x hx => ?_, ?_, ?_, ?_, ?_, ?_, ?_, ?_, Or.inl ?_⟩
  · rw [State.stance, State.removed_active hlists h.loadNumbers hl]
    split
    · rename_i hactive
      rw [State.stance_active hactive, hstance]
      rfl
    · rfl
  · cases hk : s.active m with
    | none => rw [State.stance, hk] at hx; cases hx
    | some k =>
      rw [State.stance_active hk] at hx
      have hkl : k.number ≠ l.number := fun he => by
        rw [List.inj_on_of_nodup_map h.loadNumbers (State.active_mem hk) hl he, hstance] at hx
        cases hx
      have hrecipe : x.2.2 = k.recipe := by
        rw [Load.stance] at hx
        split at hx
        · rw [← Option.some.inj hx]
        · cases hx
      rw [hrecipe]
      by_cases hkr : k.recipe = l.recipe
      · obtain ⟨r, hr⟩ := Option.isSome_iff_exists.mp (h.named l hl)
        have hnamed := (h.removed hl).named k (State.mem_removed.mpr ⟨State.active_mem hk, hkl⟩)
        rw [State.fractionOf, State.fractionOf]
        rw [hkr, State.removed_recipe_self h.recipeNumbers hr] at hnamed ⊢
        split at hnamed
        · cases hnamed
        · rename_i hkept
          rw [if_neg hkept, hr]
          rfl
      · rw [State.fractionOf, State.removed_recipe_other s l hkr]
        rfl
  · rw [hrest]; exact fun _ _ => ⟨rfl, rfl⟩
  · rw [hrest]; exact fun _ _ hs => hs
  · rw [hrest]; exact fun _ => rfl
  · rw [hrest]; exact fun _ => Or.inr rfl
  · rw [hrest]; exact fun _ => rfl
  · rw [hrest]
  · rw [hrest]
  · rw [hrest]; rfl

theorem State.Sound.retire (h : s.Sound H) {l : Load} (hl : l ∈ s.loads) (hstate : l.state ≠ .delivering) :
    (s.retire l).Sound H := by
  have hunmoved := State.removed_unmoved h.tables h.lists hl hstate
  have hremoved : (s.removed l).Sound H := by
    refine ⟨h.tables.removed hl, h.lists.removed l, fun hstop => ?_, ?_⟩
    · have hempty := h.stopped (by rw [State.removed_rest] at hstop; exact hstop)
      rw [hempty] at hl
      cases hl
    · have hinv := h.inv.unmoved hunmoved
      refine ⟨hinv.oneRequest, fun n => ?_, hinv.within, hinv.waits⟩
      have harm := hinv.arms n
      refine ⟨harm.requests, fun k hk hphase => ?_, harm.valve, harm.setpoint, harm.header⟩
      have hsome := isSome_of_holdable hphase
      have hfraction := hunmoved.fractions n _ (by
        rw [← hunmoved.stances, State.stance_active hk, Load.stance_of_phase hsome])
      refine (harm.allowed k hk hphase).imp_left fun hP => ?_
      rw [State.permits, State.permissivesMet, hfraction, State.removed_rest]
      exact hP
  rw [State.retire_eq]
  split
  · exact hremoved.promote l.arm
  · exact hremoved

end

end Sys2Proof.Machine
end

section
/-! SUPPORT. Writes of settings keep the invariant (R80, R141, R198), and so does every step: the starts, the end of
LOADING, the events of time, the meters and the requests. -/

namespace Sys2Proof.Machine

section
variable {s t : State} {n : ArmId} {H : Prop}

/-! ## Writes of settings (R198) -/

/-- An arm with a DELIVERING record has a record that is not ENDED. -/
theorem State.armLive_of_stance (h : (s.stance n).isSome = true) : s.armLive n = true := by
  cases hl : s.active n with
  | none => rw [State.stance, hl] at h; cases h
  | some l =>
    refine List.any_eq_true.mpr ⟨l, State.active_mem hl, ?_⟩
    have hactive := State.active_isActive hl
    rw [Load.isActive_iff] at hactive
    rw [State.active_arm hl, BEq.rfl, Bool.true_and]
    rcases hactive with h | h | h <;> rw [h] <;> rfl

theorem State.anyActive_of_stance (h : (s.stance n).isSome = true) : s.anyActive = true := by
  cases hl : s.active n with
  | none => rw [State.stance, hl] at h; cases h
  | some l => exact List.any_eq_true.mpr ⟨l, State.active_mem hl, State.active_isActive hl⟩

theorem State.headerInUse_false (h : s.headerInUse = false) : s.queue = [] ∧ ∀ n, (s.resv n).level = .none := by
  rw [State.headerInUse, Bool.or_eq_false_iff, Bool.not_eq_false', List.isEmpty_iff, List.any_eq_false] at h
  exact ⟨h.2, fun n => by simpa using h.1 n (mem_allArms n)⟩

/-- Settings written, those of the arms and kinds that records flow by kept. -/
theorem State.withSettings_unmoved {c : Settings}
    (hrates : ∀ n, (s.stance n).isSome = true → c.arms[n] = s.settings.arms[n])
    (hclasses : ∀ n, (s.stance n).isSome = true → c.station.classes = s.settings.station.classes)
    (hcapacity : c.station.capacity = s.settings.station.capacity ∨ (s.queue = [] ∧ ∀ n, (s.resv n).level = .none)) :
    Unmoved s (s.withSettings c) := by
  refine { Unmoved.refl s with
    rates := fun n hs => ?_, latched := fun n hs hl => ?_, capacity := hcapacity }
  · rw [State.armCfg, State.armCfg, State.withSettings_settings, hrates n hs]
    exact ⟨rfl, rfl⟩
  · have hclass (k : AlarmKind) : (s.withSettings c).classOf k = s.classOf k := by
      rw [State.classOf, State.classOf, StationSettings.classOf, StationSettings.classOf, State.withSettings_settings]
      simp only [hclasses n hs]
    simpa only [State.latchedClass, hclass, State.withSettings_alarm] using hl

theorem State.put_unmoved {v : Nat} {slot : Slot} (h : s.slotInUse v slot = false) :
    Unmoved s (s.withSettings (s.settings.put v slot)) := by
  cases slot with
  | arm m item =>
    refine State.withSettings_unmoved (fun n hs => ?_) (fun _ _ => rfl) (Or.inl rfl)
    have hne : m ≠ n := fun he => by
      rw [State.slotInUse, he, State.armLive_of_stance hs] at h
      cases h
    rw [Settings.put]
    exact Vector.getElem_set_ne m.isLt n.isLt fun he => hne (Fin.ext he)
  | meter m item => exact State.withSettings_unmoved (fun _ _ => rfl) (fun _ _ => rfl) (Or.inl rfl)
  | injector i item => exact State.withSettings_unmoved (fun _ _ => rfl) (fun _ _ => rfl) (Or.inl rfl)
  | station item =>
    have hclasses : (s.settings.station.setItem v item).classes = s.settings.station.classes := by
      rw [StationSettings.setItem.eq_def]
      split <;> rfl
    refine State.withSettings_unmoved (fun _ _ => rfl) (fun _ _ => hclasses) ?_
    by_cases hitem : item = 72
    · rw [State.slotInUse, hitem, BEq.rfl, Bool.true_and] at h
      exact Or.inr (State.headerInUse_false h)
    · refine Or.inl ?_
      rw [Settings.put, StationSettings.setItem.eq_def]
      split
      · rfl
      · rfl
      · exact absurd rfl hitem
      all_goals rfl
  | alarmClass k =>
    refine State.withSettings_unmoved (fun _ _ => rfl) (fun n hs => ?_) (Or.inl ?_)
    · rw [State.slotInUse, State.anyActive_of_stance hs] at h
      cases h
    · rw [Settings.put, StationSettings.setClass]
      split <;> rfl

theorem State.Sound.wroteInService (h : s.Sound H) (n : ArmId) (v : Nat) : (s.wroteInService n v).Sound H := by
  rw [State.wroteInService]
  split
  · split
    · exact h.enterChecking n
    · exact h
  · split
    · exact h
    · exact h.modArm n rfl (Or.inl rfl)

theorem State.Sound.restartClock (h : s.Sound H) (n : ArmId) : (s.restartClock n).Sound H := h.modArm n rfl (Or.inr rfl)

theorem State.Sound.writeEffect (h : s.Sound H) (v : Nat) (slot : Slot) : (s.writeEffect v slot).Sound H := by
  rw [State.writeEffect.eq_def]
  split
  · exact h.wroteInService _ v
  · split
    · exact h.restartClock _
    · exact h
  · exact h.modArm _ rfl (Or.inr rfl)
  · exact h.modMeter _ _
  · exact h.modMeter _ _
  · exact h.modMeter _ _
  · exact h.modMeter _ _
  · exact h.withLink _
  · exact h

theorem State.Sound.writeSlot (h : s.Sound H) {v : Nat} {slot : Slot} (huse : s.slotInUse v slot = false) :
    (s.writeSlot v slot).Sound H :=
  State.Sound.writeEffect (h.quiet (t := s.withSettings (s.settings.put v slot)) (.of_loads rfl rfl rfl rfl)
    (State.put_unmoved huse)) v slot

/-! ## Starts and the end of LOADING (R193 to R196) -/

/-- A station without records whose blocks are closed. -/
theorem State.sound_of_empty (htables : s.TablesOk) (hloads : s.loads = []) (hqueue : s.queue = [])
    (hvalves : ∀ n, (s.arm n).valve = .close) (hratios : ∀ n, (s.ratio n).setpoint = 0)
    (hheader : H → ∀ n, (s.resv n).level = .none ∧ (s.resv n).amount = 0 ∧ (s.arm n).gasTarget = 0) : s.Sound H := by
  have hactive (n : ArmId) : s.active n = none := by rw [State.active, hloads]; rfl
  have hphase (n : ArmId) : s.phase n = none := State.phase_none (hactive n)
  refine ⟨htables, ?_, fun _ => hloads, ⟨by rw [hqueue]; exact List.nodup_nil, fun n => ?_, fun hH _ => ?_, fun _ r hr => ?_⟩⟩
  · rw [State.listsOk_iff]
    intro n
    rw [State.ranks, State.armList, hloads]
    exact ⟨Nat.zero_le _, Nat.zero_le _, .nil⟩
  · have hnone : ∀ r ∈ s.queue, r.arm ≠ n := by rw [hqueue]; exact fun _ hr => by cases hr
    refine ⟨fun r hr hrn => absurd hrn (hnone r hr), fun l hl => ?_, fun hv => absurd (hvalves n) hv,
      fun hp => absurd (hratios n) (by omega), fun hH => ?_⟩
    · rw [hactive] at hl
      cases hl
    · obtain ⟨hlevel, hamount, htarget⟩ := hheader hH n
      have hset := hratios n
      refine ⟨fun h => ?_, fun h => ?_, fun _ => hamount, ?_, fun r hr hrn => absurd hrn (hnone r hr), by omega, ?_⟩
      · rw [hlevel] at h; cases h
      · rw [hlevel] at h; cases h
      · rw [hlevel, hphase]
        exact ⟨fun h => absurd rfl h, fun h => by cases h⟩
      · rw [htarget, State.gasTargetFor_closed (by rw [hphase]; rfl)]
  · have hsum : s.heldSum = 0 := by
      rw [State.heldSum, List.sum_eq_zero_iff]
      intro x hx
      obtain ⟨n, -, rfl⟩ := List.mem_map.mp hx
      exact (hheader hH n).2.1
    omega
  · rw [hqueue] at hr
    cases hr

theorem State.StartedInto.sound (h : s.StartedInto t) : t.Sound H := by
  have htables : t.TablesOk := by
    refine ⟨?_, ?_, ?_, ?_, ?_, ?_, ?_⟩ <;> simp [h.loads, h.recipes]
  refine State.sound_of_empty htables h.loads h.queue (fun n => ?_) (fun n => ?_) fun _ n => ?_
  · rw [h.arms]
    rfl
  · rw [h.ratios]
    rfl
  · rw [h.reservations, h.arms]
    exact ⟨rfl, rfl, rfl⟩

/-- A station without records stays sound while its blocks stay closed, whatever its settings. -/
theorem State.Sound.empty (h : s.Sound H) (hnone : s.loads = []) (hloads : t.loads = s.loads)
    (hrecipes : t.recipes = s.recipes) (hqueue : t.queue = s.queue)
    (harms : ∀ n, (t.arm n).valve = (s.arm n).valve ∧ (t.arm n).gasTarget = (s.arm n).gasTarget)
    (hratios : t.ratios = s.ratios) (hresv : t.reservations = s.reservations) : t.Sound H := by
  have hphase (n : ArmId) : s.phase n = none := State.phase_none (by rw [State.active, hnone]; rfl)
  have hidle (n : ArmId) := (h.inv.arms n).idle (hphase n)
  refine State.sound_of_empty (h.tables.of_keys (by rw [hloads]) hrecipes) (hloads.trans hnone) ?_ (fun n => ?_) (fun n => ?_)
    fun hH n => ?_
  · rw [hqueue]
    exact List.eq_nil_iff_forall_not_mem.mpr fun r hr => (hidle r.arm).1 r hr rfl
  · rw [(harms n).1]
    by_contra hv
    have hflow := (h.inv.arms n).valve hv
    rw [hphase] at hflow
    cases hflow
  · rw [State.ratio, hratios]
    exact (hidle n).2.1
  · obtain ⟨hlevel, hamount⟩ := (hidle n).2.2 hH
    rw [State.resv, hresv, (harms n).2, ((h.inv.arms n).header hH).target, State.gasTargetFor_closed (by rw [hphase]; rfl)]
    exact ⟨hlevel, hamount, rfl⟩

end

end Sys2Proof.Machine
end

section
/-! SUPPORT. Every command, and so every step, keeps the invariant. -/

namespace Sys2Proof.Machine

section
variable {s t : State} {H : Prop}

/-! ## The requests -/

theorem State.Sound.forLoad (h : s.Sound H) (k : Nat) {f : Load → Answer}
    (hf : ∀ l, s.load? k = some l → l ∈ s.loads → (f l).state.Sound H) : (s.forLoad k f).state.Sound H := by
  rw [State.forLoad]
  split
  · exact h
  · split
    · exact h
    · rename_i l hl
      exact hf l hl (List.mem_of_find?_eq_some hl)

theorem State.Sound.forRecipe (h : s.Sound H) (k : Nat) {f : Recipe → Answer}
    (hf : ∀ r, s.recipe? k = some r → (f r).state.Sound H) : (s.forRecipe k f).state.Sound H := by
  rw [State.forRecipe]
  split
  · exact h
  · split
    · exact h
    · rename_i r hr
      exact hf r hr

theorem State.Sound.answerStage (h : s.Sound H) (hop : s.operating = true) (p : List Byte) :
    (s.answerStage p).state.Sound H := by
  rw [State.answerStage]
  split
  · exact h
  · rename_i hmode
    split
    · exact h
    · split
      · exact h
      · rename_i hnew
        split
        · exact h
        · rename_i n _
          rw [State.answerStageOn]
          split
          · exact h
          · rename_i r hr
            split_ifs with hret hout hfull hqueue
            · exact h
            · exact h
            · exact h
            · exact h
            · split
              · exact h
              · have hrun : s.isRunning = true := by
                  rw [State.isRunning, beq_iff_eq]
                  exact ((operating_iff s).mp hop).resolve_right hmode
                exact h.stage hrun (by omega) (by simpa using hnew) hr (by omega)

/-- The active record a request names (R7). -/
theorem State.Sound.active_of_state (h : s.Sound H) {l : Load} (hl : l ∈ s.loads)
    (hstate : l.state = .ready ∨ l.state = .delivering ∨ l.state = .held) : s.active l.arm = some l :=
  h.lists.active_of_mem hl (Load.isActive_iff.mpr hstate)

theorem State.Sound.answerStart (h : s.Sound H) (p : List Byte) : (s.answerStart p).state.Sound H :=
  h.forLoad _ fun l _ hl => by
    split_ifs with hstate hmay
    · exact h
    · exact h
    · have hready : l.state = .ready := not_not.mp hstate
      rw [Answer.okState_state]
      exact h.start (h.active_of_state hl (Or.inl hready)) hready (by simpa using hmay)

theorem State.Sound.answerResume (h : s.Sound H) (p : List Byte) : (s.answerResume p).state.Sound H :=
  h.forLoad _ fun l _ hl => by
    split_ifs with hstate hmay
    · exact h
    · exact h
    · have hheld : l.state = .held := not_not.mp hstate
      rw [Answer.okState_state]
      exact h.resume (h.active_of_state hl (Or.inr (Or.inr hheld))) hheld (by simpa using hmay)

theorem State.Sound.answerHold (h : s.Sound H) (p : List Byte) : (s.answerHold p).state.Sound H :=
  h.forLoad _ fun l _ _ => by
    split
    · exact h
    · exact h
    · exact h.holdCause l.arm .host

theorem State.Sound.answerAbort (h : s.Sound H) (p : List Byte) : (s.answerAbort p).state.Sound H :=
  h.forLoad _ fun l _ _ => by
    split
    · exact h.abort l.arm
    · exact h.abort l.arm
    · exact h
    · exact h
    · exact h

theorem State.Sound.amendPreset (h : s.Sound H) (l : Load) (preset : Nat) : (s.amendPreset l preset).Sound H := by
  have hset : (s.modLoad l.number fun l => { l with preset := preset }).Sound H :=
    h.quiet (((s.modLoad_keeps l.number _ fun _ => by rfl)).tidy_of_placed (s.modLoad_placed l.number fun _ => by rfl))
      (s.modLoad_unmoved l.number (fun _ => by rfl) (fun _ => by rfl) fun _ => by rfl)
  rw [State.amendPreset]
  split
  · exact hset.tidy (State.amended_roams _ l.arm).tidy (hset.inv.amended id)
  · exact hset

theorem State.Sound.answerAmend (h : s.Sound H) (p : List Byte) : (s.answerAmend p).state.Sound H := by
  rw [State.answerAmend]
  split
  · exact h
  · exact h.forLoad _ fun l _ _ => by
      split_ifs
      · exact h
      · exact h
      · exact h.amendPreset l _

theorem State.Sound.answerRetire (h : s.Sound H) (p : List Byte) : (s.answerRetire p).state.Sound H :=
  h.forLoad _ fun l _ hl => by
    have hretire (hs : l.state ≠ .delivering) := h.retire hl hs
    cases hstate : l.state with
    | delivering | held => exact h
    | staged | ready | ended => exact hretire (by rw [hstate]; decide)

theorem State.Sound.answerDefine (h : s.Sound H) (p : List Byte) : (s.answerDefine p).state.Sound H := by
  rw [State.answerDefine]
  split_ifs with hrange hnew hfull
  · exact h
  · exact h
  · exact h
  · exact h.defineRecipe (by simpa using hnew) (by omega)

theorem State.Sound.answerAmendRecipe (h : s.Sound H) (p : List Byte) : (s.answerAmendRecipe p).state.Sound H := by
  rw [State.answerAmendRecipe]
  split
  · exact h
  · split
    · exact h
    · rename_i r hr
      split_ifs
      · exact h
      · exact h
      · exact h.amendRecipe hr (by omega) _

theorem State.Sound.answerRetireRecipe (h : s.Sound H) (p : List Byte) : (s.answerRetireRecipe p).state.Sound H :=
  h.forRecipe _ fun r hr => by
    split
    · exact h
    · exact h.retireRecipe hr

theorem State.Sound.answerReadArm (h : s.Sound H) (p : List Byte) : (s.answerReadArm p).state.Sound H := by
  rw [State.answerReadArm]
  split <;> exact h

theorem State.Sound.answerListLoads (h : s.Sound H) (p : List Byte) : (s.answerListLoads p).state.Sound H := by
  rw [State.answerListLoads]
  split
  · exact h
  · split <;> exact h

theorem State.Sound.answerReadSetting (h : s.Sound H) (p : List Byte) : (s.answerReadSetting p).state.Sound H := by
  rw [State.answerReadSetting]
  split <;> exact h

theorem State.Sound.answerClear (h : s.Sound H) (p : List Byte) : (s.answerClear p).state.Sound H := by
  rw [State.answerClear]
  split
  · exact (h.withStationAlarms []).withLink _
  · split
    · rename_i n _
      exact h.modAlarm n (f := fun _ => ArmAlarms.start) fun _ => List.nil_sublist _
    · exact h

theorem State.Sound.answerWriteSetting (h : s.Sound H) (p : List Byte) : (s.answerWriteSetting p).state.Sound H := by
  rw [State.answerWriteSetting]
  split
  · exact h
  · split_ifs with hrange hsave huse hrule
    · exact h
    · exact h
    · exact h
    · exact h
    · exact h.writeSlot (by simpa using huse)

theorem State.Sound.answerSave (h : s.Sound H) : s.answerSave.state.Sound H := by
  rw [State.answerSave]
  split
  · exact h
  · exact h.withStore rfl

theorem State.Sound.answerRestart (h : s.Sound H) : s.answerRestart.state.Sound H := by
  rw [State.answerRestart]
  split_ifs
  · exact h
  · exact h
  · exact h.withStore rfl

/-- A request whose owner keeps the invariant keeps it. -/
theorem State.Sound.takeRequest (h : s.Sound H) (code : Byte) (p : List Byte) (fits : Bool) {owner : State → Answer}
    (howner : ∀ u : State, u.Sound H → u.operating = true → (owner u).state.Sound H) :
    (s.takeRequest code p fits owner).Sound H := by
  rw [State.takeRequest]
  split
  · rename_i hlisten
    split
    · exact h.withLink _
    · have hgood : (s.receiveGood false).Sound H := by
        rw [State.receiveGood_eq]
        exact h.withLink _
      have hop : (s.receiveGood false).operating = true := by
        simp only [State.listening, Bool.and_eq_true] at hlisten
        exact hlisten.1.1
      refine State.Sound.withLink ?_ _
      split
      · exact howner _ hgood hop
      · exact hgood
  · exact h

theorem State.Sound.takeBroadcast (h : s.Sound H) {effect : State → State}
    (heffect : ∀ u : State, u.Sound H → (effect u).Sound H) : (s.takeBroadcast effect).Sound H := by
  rw [State.takeBroadcast]
  split
  · split
    · exact h.withLink _
    · refine heffect _ ?_
      rw [State.receiveGood_eq]
      exact h.withLink _
  · exact h

theorem State.Sound.discardFrame (h : s.Sound H) (frame : RxFrame) (r : Receiver) (f : Option RxFrame) :
    (s.discardFrame frame r f).Sound H := by
  rw [State.discardFrame]
  split
  · exact h.withLink _
  · exact h

/-! ## The events -/

theorem State.Sound.closeWindow (h : s.Sound H) (m : MeterId) (b : Bool) : (s.closeWindow m b).Sound H :=
  (h.modMeter m _).detectIf _ _ _

theorem State.Sound.countA (h : s.Sound H) (m : MeterId) : (s.countA m).Sound H := by
  rw [State.countA]
  split
  · exact (h.modMeter m _).closeWindow m _
  · exact h.modMeter m _

theorem State.Sound.countB (h : s.Sound H) (m : MeterId) : (s.countB m).Sound H := by
  rw [State.countB]
  split
  · exact (h.modMeter m _).closeWindow m _
  · exact h.modMeter m _

theorem State.Sound.reversePulse (h : s.Sound H) (m : MeterId) : (s.reversePulse m).Sound H :=
  (h.modMeter m _).detectIf _ _ _

theorem State.Sound.execMeterAEdge (h : s.Sound H) (m : MeterId) (b : Bool) :
    Yields (·.Sound H) (execMeterAEdge m b s) := by
  rw [Machine.execMeterAEdge]
  split
  · split
    · refine State.Sound.countA ?_ m
      split
      · exact h.reversePulse m
      · exact h.modMeter m _
    · exact h.modMeter m _
  · exact h

theorem State.Sound.execMeterBEdge (h : s.Sound H) (m : MeterId) : Yields (·.Sound H) (execMeterBEdge m s) := by
  rw [Machine.execMeterBEdge]
  split
  · exact h.countB m
  · exact h

theorem State.Sound.execVerifyPulse (h : s.Sound H) (i : InjId) : Yields (·.Sound H) (execVerifyPulse i s) := by
  rw [Machine.execVerifyPulse]
  split
  · exact h.modInjector i _
  · exact h.modInjector i _
  · exact h
  · exact h

theorem State.Sound.execStrokeTimeEnd (h : s.Sound H) (i : InjId) : Yields (·.Sound H) (execStrokeTimeEnd i s) := by
  rw [Machine.execStrokeTimeEnd]
  split
  · exact (h.reach _).modInjector i _
  · exact h

theorem State.judge_placed (s : State) (i : InjId) : Placed s (s.judge i) := by
  have hmod (k : Nat) (f : AddEntry → AddEntry) : Placed s (s.modLoad k fun l => l.modEntry i f) :=
    s.modLoad_placed k fun _ => rfl
  rw [State.judge]
  split
  · exact (hmod _ _).trans (.of_loads rfl)
  · exact .of_loads rfl

theorem State.markShort_placed (s : State) (n : ArmId) (i : InjId) : Placed s (s.markShort n i) := by
  rw [State.markShort]
  split
  · exact .refl s
  · split
    · exact .refl s
    · exact .ite (s.modActive_placed n (fun _ => by rfl) fun _ h => h) (.refl s)

theorem State.Sound.execVerifyTailEnd (h : s.Sound H) (i : InjId) : Yields (·.Sound H) (execVerifyTailEnd i s) := by
  rw [Machine.execVerifyTailEnd]
  split
  · rename_i due _ _
    have hjudge : ((s.reach due).judge i).Sound H :=
      (h.reach due).quiet ((State.judge_keeps _ i).tidy_of_placed (State.judge_placed _ i)) (State.judge_unmoved _ i)
    rw [Yields, State.afterJudgement]
    split
    · rename_i n _
      refine State.Sound.endSettleIfOver ?_ n
      have hissue := hjudge.quiet (State.tryIssue_flows _ n i).roams.tidy (State.tryIssue_issues _ n i).unmoved
      exact hissue.quiet ((State.markShort_keeps _ n i).tidy_of_placed (State.markShort_placed _ n i))
        (State.markShort_unmoved _ n i)
    · exact hjudge
  · exact h

theorem State.Sound.execTempReadStart (h : s.Sound H) (bay : Bay) : Yields (·.Sound H) (execTempReadStart bay s) := by
  rw [Machine.execTempReadStart]
  split
  · split
    · exact (h.reach _).withPort _
    · exact h
  · exact h

theorem State.Sound.deliverBay (h : s.Sound H) (bay : Bay) (reports : Option (Vector TempReport 8)) :
    (s.deliverBay bay reports).Sound H := by
  rw [State.deliverBay.eq_def]
  split
  · exact h.foldl _ (fun _ _ hu => hu.modChannel _ _) _
  · exact h.foldl _ (fun _ _ hu => hu.modChannel _ _) _

theorem State.Sound.execTempReadEnd (h : s.Sound H) (bay : Bay) (reports : Option (Vector TempReport 8)) :
    Yields (·.Sound H) (execTempReadEnd bay reports s) := by
  rw [Machine.execTempReadEnd]
  split
  · exact ((h.withPort _).deliverBay bay reports).foldl _ (fun _ n hu => hu.leaveChecking n) _
  · exact h

theorem State.Sound.execCheckingTimeout (h : s.Sound H) (n : ArmId) : Yields (·.Sound H) (execCheckingTimeout n s) := by
  rw [Machine.execCheckingTimeout]
  split
  · split
    · exact ((h.reach _).modArm n rfl (Or.inr rfl)).detect n _
    · exact h
  · exact h

theorem State.Sound.execSampleEvent (h : s.Sound H) (n : ArmId) : Yields (·.Sound H) (execSampleEvent n s) := by
  rw [Machine.execSampleEvent]
  split
  · split
    · exact ((h.reach _).modArm n rfl (Or.inr rfl)).sample n
    · exact h
  · exact h

theorem State.Sound.execSettleExpiry (h : s.Sound H) (n : ArmId) : Yields (·.Sound H) (execSettleExpiry n s) := by
  rw [Machine.execSettleExpiry]
  split
  · exact ((h.reach _).modArm n rfl (Or.inr rfl)).endSettleIfOver n
  · exact h

theorem State.Sound.execFinishTimeout (h : s.Sound H) (n : ArmId) : Yields (·.Sound H) (execFinishTimeout n s) := by
  rw [Machine.execFinishTimeout]
  split
  · have hstop := fun due => (h.reach due).modRatio n (f := fun r => { r with finishTimer := none }) fun _ => rfl
    rw [Yields]
    split
    · exact (hstop _).enterSettle n
    · exact hstop _
  · exact h

theorem State.Sound.execHoldLimitExpiry (h : s.Sound H) (k : Nat) : Yields (·.Sound H) (execHoldLimitExpiry k s) := by
  rw [Machine.execHoldLimitExpiry]
  split
  · rename_i l hl
    split
    · rename_i due hheld _
      have hactive := h.active_of_state (List.mem_of_find?_eq_some hl) (Or.inr (Or.inr hheld))
      refine (h.reach due).endRecord ?_ _
      rw [State.reach, State.withNow_phase, State.phase_eq hactive, Load.deliveringPhase_none (by rw [hheld]; decide)]
    · exact h
  · exact h

theorem State.Sound.execPermissiveLoss (h : s.Sound H) (p : Permissive) : Yields (·.Sound H) (execPermissiveLoss p s) := by
  rw [Machine.execPermissiveLoss]
  split
  · exact h.permissiveLoss p
  · exact h

theorem State.Sound.execPermissiveRestore (h : s.Sound H) (p : Permissive) :
    Yields (·.Sound H) (execPermissiveRestore p s) := by
  rw [Machine.execPermissiveRestore]
  split
  · exact h.permissiveRestore p
  · exact h

theorem State.Sound.execStartButtonEdge (h : s.Sound H) (b : ButtonChange) :
    Yields (·.Sound H) (execStartButtonEdge b s) := by
  rw [Machine.execStartButtonEdge]
  split
  · rw [Yields]
    split
    · exact (h.withButtons _).startEdge b.arm
    · exact h.withButtons _
  · exact h

theorem State.Sound.execStopButtonEdge (h : s.Sound H) (b : ButtonChange) :
    Yields (·.Sound H) (execStopButtonEdge b s) := by
  rw [Machine.execStopButtonEdge]
  split
  · rw [Yields]
    split
    · exact (h.withButtons _).stopEdge b.arm
    · exact h.withButtons _
  · exact h

/-! ## The link and the settings store -/

theorem State.Sound.execPowerOnEnd (h : s.Sound H) (straps : BitVec 5) : Yields (·.Sound H) (execPowerOnEnd straps s) := by
  rw [Machine.execPowerOnEnd]
  split
  · rename_i hmode _
    have hloads := h.stopped (by rw [State.isRunning, hmode]; rfl)
    exact h.empty hloads rfl rfl rfl (fun _ => ⟨rfl, rfl⟩) rfl rfl
  · exact h

theorem State.Sound.loaded (h : s.Sound H) (hloads : s.loads = []) (c : Settings) (m l : Bool) (leads : Leads)
    (straps : BitVec 5) : (s.loaded c m l leads straps).Sound H := by
  have htaken : (s.taken c m leads straps).Sound H := h.empty hloads rfl rfl rfl (fun _ => ⟨rfl, rfl⟩) rfl rfl
  have hport : (s.taken c m leads straps).setHistories.startPort.Sound H :=
    (htaken.foldl _ (fun _ n hu => hu.modArm n rfl (Or.inr rfl)) allArms).withPort _
  rw [State.loaded, State.latchEntry]
  have hrestarted := hport.latchStation .restarted
  cases l with
  | true =>
    rw [if_pos rfl]
    split
    · exact hrestarted
    · exact hrestarted.latchStation _
  | false =>
    rw [if_neg Bool.false_ne_true]
    split
    · exact hrestarted.latchStation _
    · exact (hrestarted.latchStation _).latchStation _

theorem State.Sound.exec_loadingEnd (h : s.Sound H) (a b : Nat) (leads : Leads) (straps : BitVec 5) :
    Yields (·.Sound H) (exec (.loadingEnd a b leads straps) s) := by
  cases hmode : s.store.mode with
  | loading =>
    obtain ⟨c, m, l, hload⟩ : ∃ c m l, s.loadSettings a b = (c, m, l) := ⟨_, _, _, rfl⟩
    have hloaded := h.loaded (h.stopped (by rw [State.isRunning, hmode]; rfl)) c m l leads straps
    rw [Machine.exec_loadingEnd hmode hload, Yields]
    split
    · exact (hloaded.withButtons _).foldl _ (fun _ n hu => by
        split
        · exact hu.enterChecking n
        · exact hu) _
    · exact hloaded
  | powerOn | running | unconfigured =>
    show Yields _ (execLoadingEnd a b leads straps s)
    rw [execLoadingEnd, hmode]
    exact h

theorem State.Sound.execStrapChange (h : s.Sound H) (straps : BitVec 5) : Yields (·.Sound H) (execStrapChange straps s) := by
  rw [Machine.execStrapChange]
  split
  · have hstore : (s.withStore { s.store with filteredStraps := straps }).Sound H := h.withStore rfl
    rw [Yields]
    dsimp only
    split
    · exact hstore
    · exact hstore.latchStation _
  · exact h

theorem Store.advance_mode (t : Store) (p : SaveProgress) : (t.advance p).mode = t.mode := by
  rw [Store.advance]
  split
  · rfl
  · cases p.area <;> rfl

theorem State.Sound.execSaveByteDone (h : s.Sound H) (acked : Bool) : Yields (·.Sound H) (execSaveByteDone acked s) := by
  rw [Machine.execSaveByteDone]
  split
  · exact h
  · rename_i p _
    split_ifs
    · trivial
    · rw [Yields, State.saveNotAcked]
      split
      · exact (h.withStore (x := s.store.endSave) rfl).latchStation _
      · exact h.withStore rfl
    · refine (h.withMemory _).withStore ?_
      rw [Store.advance_mode]
      split
      · cases p.area <;> rfl
      · rfl
    · rw [Yields, State.saveRead]
      split
      · exact h.withStore (Store.advance_mode _ p)
      · exact h.withStore rfl

theorem State.Sound.execReplyBegin (h : s.Sound H) : Yields (·.Sound H) (execReplyBegin s) := by
  rw [Machine.execReplyBegin]
  split
  · exact h.withLink _
  · exact h

theorem State.Sound.execLinkSilence (h : s.Sound H) : Yields (·.Sound H) (execLinkSilence s) := by
  rw [Machine.execLinkSilence]
  split
  · rename_i due _
    have hlatched := ((h.reach due).withLink { (s.reach due).link with silence := none }).latchStation .linkSilence
    rw [Yields]
    dsimp only
    split
    · exact hlatched.holdAll _
    · exact hlatched
  · exact h

theorem State.Sound.execFrameForOtherStation (h : s.Sound H) (mark : Byte) (begun : Option RxFrame) :
    Yields (·.Sound H) (execFrameForOtherStation mark begun s) := by
  rw [Machine.execFrameForOtherStation]
  split
  · split
    · exact h.withLink _
    · exact h.withLink _
  · exact h

end

end Sys2Proof.Machine
end

section
/-! SUPPORT. The invariant at every step. -/

namespace Sys2Proof.Machine

/-- Every command keeps the invariant. -/
theorem State.Sound.exec {s : State} {H : Prop} (h : s.Sound H) (c : Instr) : Yields (·.Sound H) (exec c s) := by
  have hstart (hc : c = .powerUp ∨ c = .powerDown ∨ c = .resetLow ∨ c = .resetRelease ∨
      (c = .replyEnd ∧ s.link.sending ≠ none ∧ s.store.restart = true)) : Yields (·.Sound H) (Machine.exec c s) := by
    cases hout : Machine.exec c s with
    | next t => exact (exec_startedInto hc hout).sound
    | fault _ => trivial
    | refused _ => trivial
  cases c with
  | powerUp => exact hstart (.inl rfl)
  | powerDown => exact hstart (.inr (.inl rfl))
  | resetLow => exact hstart (.inr (.inr (.inl rfl)))
  | resetRelease => exact hstart (.inr (.inr (.inr (.inl rfl))))
  | powerOnEnd straps => exact h.execPowerOnEnd straps
  | loadingEnd a b leads straps => exact h.exec_loadingEnd a b leads straps
  | strapChange straps => exact h.execStrapChange straps
  | permissiveLoss p => exact h.execPermissiveLoss p
  | permissiveRestore p => exact h.execPermissiveRestore p
  | startButtonEdge b => exact h.execStartButtonEdge b
  | stopButtonEdge b => exact h.execStopButtonEdge b
  | meterAEdge m b => exact h.execMeterAEdge m b
  | meterBEdge m => exact h.execMeterBEdge m
  | verifyPulse k => exact h.execVerifyPulse k
  | tempReadStart bay => exact h.execTempReadStart bay
  | tempReadEnd bay reports => exact h.execTempReadEnd bay reports
  | checkingTimeout n => exact h.execCheckingTimeout n
  | sampleEvent n => exact h.execSampleEvent n
  | strokeTimeEnd k => exact h.execStrokeTimeEnd k
  | verifyTailEnd k => exact h.execVerifyTailEnd k
  | settleExpiry n => exact h.execSettleExpiry n
  | finishTimeout n => exact h.execFinishTimeout n
  | holdLimitExpiry k => exact h.execHoldLimitExpiry k
  | stationStatus p => exact h.takeRequest _ _ _ fun _ hu _ => hu
  | readArm p => exact h.takeRequest _ _ _ fun _ hu _ => hu.answerReadArm p
  | stageLoad p => exact h.takeRequest _ _ _ fun _ hu hop => hu.answerStage hop p
  | startLoad p => exact h.takeRequest _ _ _ fun _ hu _ => hu.answerStart p
  | holdLoad p => exact h.takeRequest _ _ _ fun _ hu _ => hu.answerHold p
  | resumeLoad p => exact h.takeRequest _ _ _ fun _ hu _ => hu.answerResume p
  | amendPreset p => exact h.takeRequest _ _ _ fun _ hu _ => hu.answerAmend p
  | abortLoad p => exact h.takeRequest _ _ _ fun _ hu _ => hu.answerAbort p
  | readLoad p => exact h.takeRequest _ _ _ fun _ hu _ => hu.forLoad _ fun _ _ _ => hu
  | retireLoad p => exact h.takeRequest _ _ _ fun _ hu _ => hu.answerRetire p
  | listLoads p => exact h.takeRequest _ _ _ fun _ hu _ => hu.answerListLoads p
  | defineRecipe p => exact h.takeRequest _ _ _ fun _ hu _ => hu.answerDefine p
  | amendRecipe p => exact h.takeRequest _ _ _ fun _ hu _ => hu.answerAmendRecipe p
  | retireRecipe p => exact h.takeRequest _ _ _ fun _ hu _ => hu.answerRetireRecipe p
  | readRecipe p => exact h.takeRequest _ _ _ fun _ hu _ => hu.forRecipe _ fun _ _ => hu
  | listRecipes p => exact h.takeRequest _ _ _ fun _ hu _ => hu
  | clearAlarms p => exact h.takeRequest _ _ _ fun _ hu _ => hu.answerClear p
  | readSetting p => exact h.takeRequest _ _ _ fun _ hu _ => hu.answerReadSetting p
  | writeSetting p => exact h.takeRequest _ _ _ fun _ hu _ => hu.answerWriteSetting p
  | saveSettings p => exact h.takeRequest _ _ _ fun _ hu _ => hu.answerSave
  | saveByteDone acked => exact h.execSaveByteDone acked
  | restart p => exact h.takeRequest _ _ _ fun _ hu _ => hu.answerRestart
  | holdAll => exact h.takeBroadcast fun _ hu => hu.holdAll _
  | unknownRequest code p =>
    show Yields _ (execUnknownRequest code p s)
    rw [execUnknownRequest]
    split
    · exact h
    · exact h.takeRequest _ _ _ fun _ hu _ => hu
  | broadcastIgnored code p =>
    show Yields _ (execBroadcastIgnored code p s)
    rw [execBroadcastIgnored]
    split
    · exact h.takeBroadcast fun _ hu => hu
    · exact h
  | frameDiscard reason frame => cases reason <;> exact h.discardFrame _ _ _
  | frameIdleTimeout frame => exact h.discardFrame _ _ _
  | pendingFrameDiscard =>
    show Yields _ (execPendingFrameDiscard s)
    rw [execPendingFrameDiscard]
    split
    · exact h.withLink _
    · exact h
  | replyBegin => exact h.execReplyBegin
  | replyEnd =>
    by_cases hrestart : s.link.sending ≠ none ∧ s.store.restart = true
    · exact hstart (.inr (.inr (.inr (.inr ⟨rfl, hrestart⟩))))
    · show Yields _ (execReplyEnd s)
      rw [execReplyEnd]
      split
      · rename_i hsending
        have hno : s.store.restart = false :=
          Bool.eq_false_iff.mpr fun hr => hrestart ⟨by rw [hsending]; exact Option.some_ne_none _, hr⟩
        rw [hno]
        exact h.withLink _
      · exact h
  | linkSilence => exact h.execLinkSilence
  | frameForOtherStation mark begun => exact h.execFrameForOtherStation mark begun

/-- Every step keeps the invariant. -/
theorem State.Sound.step {s t : State} {H : Prop} (h : s.Sound H) (hstep : step s = .next t) : t.Sound H :=
  (step_yields (P := (·.Sound H)) (fun c rest _ => (h.withPending rest).exec c)
    ((h.quiet (t := s.withNow (s.now + 1)) (.of_loads rfl rfl rfl rfl) (s.withNow_unmoved _)).withPending _)).next hstep

/-- Settles O58: the flow's invariant, with the tables and lists, holds after every command. -/
theorem stepsKeepDeliveriesSafe : Obligations.StepsKeepDeliveriesSafe := fun _ _ hs hstep =>
  ((hs.sound (H := False) False.elim).step hstep).delivery

/-- Settles O59: the same invariant with the header's part. -/
theorem stepsKeepTheHeaderWithinCapacity : Obligations.StepsKeepTheHeaderWithinCapacity := fun _ _ hs hheader hstep =>
  ((hs.sound fun _ => hheader).step hstep).header

end Sys2Proof.Machine
end

section
/-! SUPPORT. STAGE LOAD and RETIRE LOAD (R9, R10, R24). -/

namespace Sys2Proof.Machine

section
variable {s : State} {n : ArmId} {v : StageFields} {r : Recipe}

/-! ## STAGE LOAD -/

/-- The record a staging leaves: READY at once on an AVAILABLE arm with no active and no earlier STAGED record (R8). -/
def State.stagedAs (s : State) (n : ArmId) (v : StageFields) (r : Recipe) : Load := { s.newLoad n v r with
  state := if (s.arm n).mode = .available ∧ s.active n = none ∧ s.stagedCount n = 0 then .ready else .staged }

theorem State.stage_rest (s : State) (n : ArmId) (v : StageFields) (r : Recipe) : s.stage n v r = { s with
    loads := (s.stage n v r).loads, recipes := (s.joined n v r).recipes } := by
  rw [State.stage_eq]
  rcases (s.joined n v r).promote_cases n with hsame | ⟨l, -, -, -, hready⟩
  · rw [hsame]
    rfl
  · rw [hready]
    rfl

theorem State.oldestStaged_none (h : s.stagedCount n = 0) : s.oldestStaged n = none := by
  rw [State.stagedCount, List.length_eq_zero_iff, List.filter_eq_nil_iff] at h
  exact List.find?_eq_none.mpr h

theorem State.oldestStaged_some (h : s.stagedCount n ≠ 0) : ∃ l, s.oldestStaged n = some l := by
  obtain ⟨l, hl⟩ := List.exists_mem_of_length_pos (Nat.pos_of_ne_zero h)
  obtain ⟨hmem, hstaged⟩ := List.mem_filter.mp hl
  cases ho : s.oldestStaged n with
  | none => exact absurd hstaged (List.find?_eq_none.mp ho l hmem)
  | some k => exact ⟨k, rfl⟩

theorem State.joined_oldestStaged (s : State) (n : ArmId) (v : StageFields) (r : Recipe) :
    (s.joined n v r).oldestStaged n = (s.oldestStaged n).or (some (s.newLoad n v r)) := by
  have hself : [s.newLoad n v r].find? (fun l => l.arm == n && l.state == .staged) = some (s.newLoad n v r) := by
    simp [State.newLoad, Load.staged]
  rw [State.oldestStaged, State.joined_loads, List.find?_append, ← State.oldestStaged, hself]

theorem State.number_ne_of_load? {k : Nat} (h : s.load? k = none) {l : Load} (hl : l ∈ s.loads) : l.number ≠ k := by
  have hnot := List.find?_eq_none.mp h l hl
  simpa using hnot

section
variable (hnew : s.load? v.number = none)
include hnew

/-- A promotion of another record leaves the staged one. -/
theorem State.joined_load? : (s.joined n v r).load? v.number = some (s.newLoad n v r) := by
  have hself : [s.newLoad n v r].find? (fun l => l.number == v.number) = some (s.newLoad n v r) := by
    simp [State.newLoad, Load.staged]
  rw [State.load?, State.joined_loads, List.find?_append, ← State.load?, hnew, hself, Option.none_or]

/-- Staging by whether the arm has an active record, an earlier STAGED one, or neither (R8, R10). -/
theorem State.stage_loads (hfree : s.stagedCount n = 0 ∨ s.active n ≠ none ∨ (s.arm n).mode ≠ .available) :
    (s.stage n v r).loads = s.loads ++ [s.stagedAs n v r] := by
  rw [State.stage_eq, State.promote_eq, State.joined_active, show (s.joined n v r).arm n = s.arm n from rfl,
    State.joined_oldestStaged]
  by_cases hpromote : (s.arm n).mode = .available ∧ s.active n = none
  · have hcount : s.stagedCount n = 0 :=
      hfree.elim id fun h => h.elim (fun h => absurd hpromote.2 h) fun h => absurd hpromote.1 h
    have hready : s.stagedAs n v r = (s.newLoad n v r).readied := by
      rw [State.stagedAs, if_pos ⟨hpromote.1, hpromote.2, hcount⟩]
      rfl
    have hkept : s.loads.map (fun l => if l.number == (s.newLoad n v r).number then l.readied else l) = s.loads := by
      refine (List.map_congr_left fun l hl => ?_).trans (List.map_id _)
      have hne : l.number ≠ (s.newLoad n v r).number := State.number_ne_of_load? hnew hl
      simp [hne]
    rw [State.oldestStaged_none hcount, hpromote.1, hpromote.2, hready]
    simp only [Option.isNone_none, BEq.rfl, Bool.and_self, if_true, Option.none_or]
    rw [State.readied, State.modLoad, State.withLoads_loads, State.joined_loads, List.map_append, hkept]
    simp
  · have hstaged : s.stagedAs n v r = s.newLoad n v r := by
      rw [State.stagedAs, if_neg fun h => hpromote ⟨h.1, h.2.1⟩]
      rfl
    have hno : ((s.active n).isNone && (s.arm n).mode == .available) = false := by
      rw [Bool.and_eq_false_iff, beq_eq_false_iff_ne, Option.isNone_eq_false_iff, Option.isSome_iff_ne_none]
      exact (not_and_or.mp hpromote).symm
    rw [hno, hstaged]
    exact s.joined_loads n v r

theorem State.stage_load? : (s.stage n v r).load? v.number = some (s.stagedAs n v r) := by
  have hself : [s.stagedAs n v r].find? (fun l => l.number == v.number) = some (s.stagedAs n v r) := by
    simp [State.stagedAs, State.newLoad, Load.staged]
  by_cases hfree : s.stagedCount n = 0 ∨ s.active n ≠ none ∨ (s.arm n).mode ≠ .available
  · rw [State.load?, State.stage_loads hnew hfree, List.find?_append, ← State.load?, hnew, hself, Option.none_or]
  · obtain ⟨hcount, -⟩ := not_or.mp hfree
    obtain ⟨k, hk⟩ := State.oldestStaged_some hcount
    have hstaged : s.stagedAs n v r = s.newLoad n v r := by
      rw [State.stagedAs, if_neg fun h => hcount h.2.2]
      rfl
    rw [State.stage_eq, hstaged]
    rcases (s.joined n v r).promote_cases n with hsame | ⟨l, -, -, hl, hready⟩
    · rw [hsame, State.joined_load? hnew]
    · rw [State.joined_oldestStaged, hk, Option.some_or] at hl
      have hne : v.number ≠ l.number := by
        rw [← Option.some.inj hl]
        exact (State.number_ne_of_load? hnew (State.oldestStaged_spec hk).1).symm
      rw [hready, State.readied, State.modLoad_load? fun _ => by rfl, if_neg hne, State.joined_load? hnew]

end

theorem State.stage_recipe? (s : State) (n : ArmId) (v : StageFields) (r : Recipe) (k : Nat) :
    (s.stage n v r).recipe? k = if k = v.recipe then (s.recipe? k).map Recipe.countedUp else s.recipe? k := by
  rw [State.stage_rest, ← State.joined_recipe? s n v r k]
  rfl

/-- Another arm's list stays. -/
theorem State.stage_armList_ne (hn : ((s.joined n v r).loads.map (·.number)).Nodup) {m : ArmId} (hm : m ≠ n) :
    (s.stage n v r).armList m = s.armList m := by
  have hjoined : (s.joined n v r).armList m = s.armList m := by rw [State.joined_armList, if_neg hm, List.append_nil]
  rw [State.stage_eq]
  rcases (s.joined n v r).promote_cases n with hsame | ⟨l, -, -, hl, hready⟩
  · rw [hsame, hjoined]
  · rw [hready, State.readied_armList_ne hn hl hm, hjoined]

theorem State.answerStageOn_stages (hrecipe : s.recipe? v.recipe = some r) (hstate : r.state = .active)
    (harm : (s.arm n).mode ≠ .outOfService) (hroom : s.loads.length < 16) (hstaged : s.stagedCount n < 3)
    (hfault : s.entryFault n 1 r.entries = none) : s.answerStageOn n v =
      .ok (s.stage n v r) (be16 v.number ++ byte1 (codeOr0 (·.state.code) ((s.stage n v r).load? v.number))) := by
  simp [State.answerStageOn, hrecipe, hstate, harm, Nat.not_le.mpr hroom, Nat.not_le.mpr hstaged, hfault]

/-- Settles O36. -/
theorem stageCreatesTheRecord : Obligations.StageCreatesTheRecord := by
  intro p n r l st s hs htables hmode hp hnumber harm hr1 hr2 hp1 hp2 hnew hrecipe hactive hin hroom hstaged hfault hst hl
  have hfault : (s.withLink (s.linkReceived false)).entryFault n 1 r.entries = none := by
    rw [← State.receiveGood_eq, State.receiveGood_entryFault, hfault]
  have hrange : (stageFields p).inRange = true := by
    have hn := n.isLt
    rw [stageFields_inRange, harm, armNumber]
    omega
  have hanswer : (s.withLink (s.linkReceived false)).answerStage p = .ok ((s.withLink (s.linkReceived false)).stage n (stageFields p) r)
      (be16 (fieldAt p 0 2) ++ byte1 (codeOr0 (·.state.code)
        (((s.withLink (s.linkReceived false)).stage n (stageFields p) r).load? (fieldAt p 0 2)))) :=
    (State.answerStage_fresh (s := s.withLink (s.linkReceived false)) hmode hrange hnew harm).trans
      (State.answerStageOn_stages (s := s.withLink (s.linkReceived false)) hrecipe hactive hin hroom hstaged hfault)
  have hrecord : (s.withLink (s.linkReceived false)).stagedAs n (stageFields p) r = l := by
    rw [hl, hst]
    rfl
  have hload : ((s.withLink (s.linkReceived false)).stage n (stageFields p) r).load? (fieldAt p 0 2) = some l :=
    (State.stage_load? (s := s.withLink (s.linkReceived false)) (v := stageFields p) hnew).trans (congrArg some hrecord)
  have hrest := (s.withLink (s.linkReceived false)).stage_rest n (stageFields p) r
  have hlstate : l.state = st := by rw [hl]
  rw [hload, codeOr0, hlstate] at hanswer
  have hjoined := State.TablesOk.joined (s := s.withLink (s.linkReceived false)) (v := stageFields p) (n := n)
    (htables.of_keys rfl rfl) hroom hnew hrecipe
  refine ⟨_, congrArg Host.Outcome.next ((congrArg (fun b => s.takeRequest 0x10 p b (·.answerStage p))
    (fitsLength_of_length hp)).trans (State.takeRequest_of_effect hs (frameExists_of_length hp (by decide)) hanswer
      (by rw [hrest]; rfl))), hload, ?_, fun k hk => ?_, fun m hm => ?_, fun hfree => ?_, rfl, ?_⟩
  · refine ((s.withLink (s.linkReceived false)).stage_recipe? n (stageFields p) r _).trans ((if_pos rfl).trans ?_)
    exact congrArg (Option.map Recipe.countedUp) hrecipe
  · exact ((s.withLink (s.linkReceived false)).stage_recipe? n (stageFields p) r k).trans (if_neg hk)
  · exact State.stage_armList_ne hjoined.loadNumbers hm
  · exact (State.stage_loads (s := s.withLink (s.linkReceived false)) (v := stageFields p) hnew hfree).trans
      (congrArg (fun x => s.loads ++ [x]) hrecord)
  · rw [hrest]
    rfl

/-! ## RETIRE LOAD -/

theorem State.retire_rest (s : State) (l : Load) : s.retire l = { s with
    loads := (s.retire l).loads, recipes := (s.removed l).recipes, injectors := (s.removed l).injectors } := by
  rw [State.retire_eq]
  split
  · rcases (s.removed l).promote_cases l.arm with hsame | ⟨k, -, -, -, hready⟩
    · rw [hsame]
      exact s.removed_rest l
    · rw [hready, State.readied, State.modLoad, s.removed_rest l]
      rfl
  · exact s.removed_rest l

theorem State.orphanStrokes_injector (s : State) (k : Nat) (i : InjId) :
    (s.orphanStrokes k).injector i = (s.injector i).orphan k := by
  have h := foldl_get (P := fun _ => True) (get := State.injector) (s := s) (l := allInjectors)
    (op := fun s i => s.modInjector i (·.orphan k)) (f := fun _ j => j.orphan k) (fun _ _ _ => trivial)
    (fun u j _ => u.modInjector_injector_self j _) (fun u j m _ hm => by rw [State.modInjector_injector, if_neg hm]) trivial
    nodup_allInjectors i
  rw [State.orphanStrokes]
  exact h.trans (if_pos (mem_allInjectors i))

theorem State.retire_injector (s : State) (l : Load) (i : InjId) : (s.retire l).injector i = (s.injector i).orphan l.number := by
  have hremoved : (s.removed l).injector i = (s.injector i).orphan l.number := by
    rw [State.removed, State.noticeRemoval, State.withRecipes_injector, State.orphanStrokes_injector]
    rfl
  rw [State.injector, State.retire_rest]
  exact hremoved

theorem State.removed_load? (s : State) (l : Load) : (s.removed l).load? l.number = none :=
  List.find?_eq_none.mpr fun x hx => by simpa using (State.mem_removed.mp hx).2

theorem State.removed_armList_ne (hn : (s.loads.map (·.number)).Nodup) {l : Load} (hl : l ∈ s.loads) {m : ArmId}
    (hm : m ≠ l.arm) : (s.removed l).armList m = s.armList m := by
  rw [State.armList, State.removed_loads, List.filter_filter]
  refine List.filter_congr fun x hx => ?_
  by_cases hxm : x.arm = m
  · have hne : x.number ≠ l.number := fun he => hm (by rw [← hxm, List.inj_on_of_nodup_map hn hx hl he])
    simp [hxm, hne]
  · simp [hxm]

/-- The STAGED records of an arm stay when its READY one is removed. -/
theorem State.removed_oldestStaged (hn : (s.loads.map (·.number)).Nodup) {l : Load} (hl : l ∈ s.loads)
    (hstate : l.state ≠ .staged) (m : ArmId) : (s.removed l).oldestStaged m = s.oldestStaged m := by
  rw [State.oldestStaged, State.removed_loads]
  refine find?_filter_of fun x hx => ?_
  rw [bne_iff_ne]
  intro he
  have hspec := State.oldestStaged_spec hx
  rw [List.inj_on_of_nodup_map hn hspec.1 hl he] at hspec
  exact hstate hspec.2.2

theorem State.retire_load? (s : State) (l : Load) : (s.retire l).load? l.number = none := by
  have hremoved := s.removed_load? l
  rw [State.retire_eq]
  split
  · rcases (s.removed l).promote_cases l.arm with hsame | ⟨k, -, -, -, hready⟩
    · rw [hsame, hremoved]
    · rw [hready, State.readied, State.modLoad_load? fun _ => by rfl, hremoved]
      split <;> rfl
  · exact hremoved

theorem State.retire_recipe? (s : State) (l : Load) (k : Nat) : (s.retire l).recipe? k = (s.removed l).recipe? k := by
  rw [State.recipe?, State.recipe?, State.retire_rest]

theorem State.retire_armList_ne (hn : (s.loads.map (·.number)).Nodup) {l : Load} (hl : l ∈ s.loads) {m : ArmId}
    (hm : m ≠ l.arm) : (s.retire l).armList m = s.armList m := by
  have hremoved := State.removed_armList_ne hn hl hm
  have hnodup : ((s.removed l).loads.map (·.number)).Nodup := by
    rw [State.removed_loads]
    exact hn.sublist (List.filter_sublist.map _)
  rw [State.retire_eq]
  split
  · rcases (s.removed l).promote_cases l.arm with hsame | ⟨k, -, -, hk, hready⟩
    · rw [hsame, hremoved]
    · rw [hready, State.readied_armList_ne hnodup hk hm, hremoved]
  · exact hremoved

/-- After a READY record the oldest STAGED one is READY. -/
theorem State.retire_promotes (hn : (s.loads.map (·.number)).Nodup) (hlists : s.ListsOk) {l k : Load} (hl : l ∈ s.loads)
    (hready : l.state = .ready) (hmode : (s.arm l.arm).mode = .available) (hk : s.oldestStaged l.arm = some k) :
    (s.retire l).active l.arm = some { k with state := .ready } := by
  have hactive := hlists.active_of_mem hl (Load.isActive_iff.mpr (Or.inl hready))
  have hnone : (s.removed l).active l.arm = none := by rw [State.removed_active hlists hn hl, if_pos hactive]
  have hstaged : (s.removed l).oldestStaged l.arm = some k := by
    rw [State.removed_oldestStaged hn hl (by rw [hready]; decide), hk]
  have hnodup : ((s.removed l).loads.map (·.number)).Nodup := by
    rw [State.removed_loads]
    exact hn.sublist (List.filter_sublist.map _)
  have harm : ((s.removed l).arm l.arm).mode = .available := by rw [State.removed_rest]; exact hmode
  rw [State.retire_eq, if_pos hready, State.promote_eq, hnone, harm, hstaged]
  exact State.readied_active hnodup hnone hstaged

section
variable {p : List Byte} {l : Load}

theorem exec_retireLoad_of_effect (hs : s.Accepts) (hp : p.length = 2) {t : State} {r : Result} {payload : List Byte}
    (h : (s.withLink (s.linkReceived false)).answerRetire p = ⟨t, r, payload⟩) (hlink : t.link = s.linkReceived false) :
    exec (.retireLoad p) s = .next (t.withLink (s.linkAnswered 0x17 r payload)) := by
  show execRetireLoad p s = _
  rw [execRetireLoad, fitsLength_of_length hp,
    State.takeRequest_of_effect hs (frameExists_of_length hp (by decide)) h hlink]

theorem State.answerRetire_wrongState (hne : fieldAt p 0 2 ≠ 0) (hload : s.load? (fieldAt p 0 2) = some l)
    (h : l.state = .delivering ∨ l.state = .held) : s.answerRetire p = .refuse s .wrongState := by
  rw [State.answerRetire, State.forLoad_found hne hload]
  rcases h with h | h <;> rw [h]

theorem State.answerRetire_retires (hne : fieldAt p 0 2 ≠ 0) (hload : s.load? (fieldAt p 0 2) = some l)
    (h : l.state = .staged ∨ l.state = .ready ∨ l.state = .ended) :
    s.answerRetire p = .ok (s.retire l) (be16 l.number) := by
  rw [State.answerRetire, State.forLoad_found hne hload]
  rcases h with h | h | h <;> rw [h]

end

theorem Injector.orphan_eq (j : Injector) (k : Nat) :
    j.orphan k = if j.stroke = some ⟨some k⟩ then { j with stroke := some ⟨none⟩ } else j := by
  rw [Injector.orphan]
  cases hj : j.stroke with
  | none => simp
  | some x =>
    have hx : some x = some ⟨some k⟩ ↔ x.load = some k :=
      ⟨fun h => by rw [Option.some.inj h], fun h => by rw [← h]⟩
    simp only [hx]

/-- Settles O39. -/
theorem retireRemovesTheRecord : Obligations.RetireRemovesTheRecord := by
  refine ⟨fun p l s hs hok hp hnumber hne hload => ?_, fun p s hs hp => ⟨fun hzero => ?_, fun hne hnone => ?_⟩⟩
  · have hfield : fieldAt p 0 2 ≠ 0 := by rw [hnumber]; exact hne
    have hload' : (s.withLink (s.linkReceived false)).load? (fieldAt p 0 2) = some l := by rw [hnumber]; exact hload
    have hl : l ∈ s.loads := List.mem_of_find?_eq_some hload
    refine ⟨fun h =>
      exec_retireLoad_of_effect (t := s.withLink (s.linkReceived false)) hs hp
        (State.answerRetire_wrongState hfield hload' h) rfl, fun h => ?_⟩
    generalize hu : s.withLink (s.linkReceived false) = u at hload'
    have hrest := u.retire_rest l
    have hinjector := u.retire_injector l
    have hus : u = s.withLink (s.linkReceived false) := hu.symm
    refine ⟨_, exec_retireLoad_of_effect (t := u.retire l) hs hp (by rw [hu, State.answerRetire_retires hfield hload' h]; rfl)
      (by rw [hrest, hus]; rfl), u.retire_load? l, fun r hr => ?_, fun k hk => ?_, fun hnot => ?_,
      fun hready hmode k hk => ?_, fun m hm => ?_, fun i hi => ?_, fun i hi => ?_, rfl, ?_⟩
    · have hr' : u.recipe? l.recipe = some r := by rw [hus]; exact hr
      have hcount := hok.tables.retiring r (State.recipe?_mem hr)
      have hn : (u.recipes.map (·.number)).Nodup := by rw [hus]; exact hok.tables.recipeNumbers
      refine (u.retire_recipe? l _).trans ((State.removed_recipe_self hn hr').trans ?_)
      have hiff : r.state = .retiring ∧ r.count - 1 = 0 ↔ r.state = .retiring ∧ r.count = 1 :=
        and_congr_right fun hret => by have := hcount hret; omega
      simp only [hiff, Recipe.countDown]
    · refine ((u.retire_recipe? l k).trans (State.removed_recipe_other u l hk)).trans ?_
      rw [hus]
      rfl
    · show (u.retire l).loads = _
      rw [State.retire_eq, if_neg hnot, State.removed_loads, hus]
      exact List.filter_congr fun x _ => by by_cases hx : x.number = l.number <;> simp [hx]
    · subst hus
      exact State.retire_promotes (s := s.withLink (s.linkReceived false)) hok.tables.loadNumbers
        ((Placed.of_loads (s := s) (t := s.withLink (s.linkReceived false)) rfl).lists hok.lists) hl hready hmode hk
    · subst hus
      exact State.retire_armList_ne (s := s.withLink (s.linkReceived false)) hok.tables.loadNumbers hl hm
    · refine (hinjector i).trans ?_
      subst hus
      rw [Injector.orphan_eq]
      exact if_neg hi
    · refine (hinjector i).trans ?_
      subst hus
      rw [Injector.orphan_eq]
      exact if_pos hi
    · rw [hrest, hus]
      rfl
  · exact exec_retireLoad_of_effect (t := s.withLink (s.linkReceived false)) hs hp (State.forLoad_badField hzero) rfl
  · exact exec_retireLoad_of_effect (t := s.withLink (s.linkReceived false)) hs hp (State.forLoad_notFound hne hnone) rfl

end

end Sys2Proof.Machine
end

section
/-! SUPPORT. The hold causes and the detections at the arm they reach, and the detections of the meter channels and of
the checking timeout (R15, R47, R48, R51, R52, R81, R169). -/

namespace Sys2Proof.Machine

section
variable {s t u : State} {n : ArmId}

/-! ## What stands besides records and arms -/

theorem Keeps.eq_of_meters (h : Keeps s t) (hm : t.meters = s.meters) : t = { s with
    loads := t.loads, arms := t.arms, ratios := t.ratios, reservations := t.reservations, queue := t.queue,
    injectors := t.injectors, alarms := t.alarms } := by
  obtain ⟨hnow, hpending, hstore, hsettings, hmemory, hlink, hrecipes, hchannels, hport, hlevels, hbuttons, hstation, -⟩ := h
  cases s
  cases t
  simp only at hnow hpending hstore hsettings hmemory hlink hrecipes hchannels hport hlevels hbuttons hstation hm
  subst hnow hpending hstore hsettings hmemory hlink hrecipes hchannels hport hlevels hbuttons hstation hm
  rfl

/-- Records, arms, the header and the injectors alone have moved. -/
structure MovesOnly (s t : State) : Prop where
  keeps : Keeps s t
  meters : t.meters = s.meters
  alarms : t.alarms = s.alarms

theorem MovesOnly.refl (s : State) : MovesOnly s s := ⟨.refl s, rfl, rfl⟩

theorem MovesOnly.trans (h : MovesOnly s t) (k : MovesOnly t u) : MovesOnly s u :=
  ⟨h.keeps.trans k.keeps, k.meters.trans h.meters, k.alarms.trans h.alarms⟩

theorem MovesOnly.eq (h : MovesOnly s t) : t = { s with
    loads := t.loads, arms := t.arms, ratios := t.ratios, reservations := t.reservations, queue := t.queue,
    injectors := t.injectors } := by
  have heq := h.keeps.eq_of_meters h.meters
  rwa [h.alarms] at heq

theorem Flows.movesOnly {A : ArmId → Prop} (h : Flows A s t) : MovesOnly s t := ⟨h.keeps, h.meters, h.alarms⟩

theorem MovesOnly.alarm (h : MovesOnly s t) (m : ArmId) : t.alarm m = s.alarm m := by
  rw [State.alarm, State.alarm, h.alarms]

theorem State.toHeld_movesOnly (s : State) (n : ArmId) (c : HoldCause) : MovesOnly s (s.toHeld n c) where
  keeps := (s.toHeld_aside n c).keeps
  meters := by rw [State.toHeld, State.maskArm_onlyInjectors _ n true]; rfl
  alarms := by rw [State.toHeld, (State.maskArm_onlyInjectors _ n true).alarms]; rfl

theorem State.toCut_movesOnly (s : State) (n : ArmId) (c : HoldCause) : MovesOnly s (s.toCut n c) :=
  ⟨(s.toCut_aside n c).keeps, rfl, rfl⟩

theorem State.hold_movesOnly (s : State) (n : ArmId) (c : HoldCause) : MovesOnly s (s.hold n c) :=
  (s.toHeld_movesOnly n c).trans (State.releaseThen_roams _ n).movesOnly

theorem State.cutFinish_movesOnly (s : State) (n : ArmId) (c : HoldCause) : MovesOnly s (s.cutFinish n c) :=
  (s.toCut_movesOnly n c).trans (State.enterSettle_roams _ n).movesOnly

theorem State.holdCause_movesOnly (s : State) (n : ArmId) (c : HoldCause) : MovesOnly s (s.holdCause n c) := by
  by_cases hold : holdablePhase (s.phase n) = true
  · rw [State.holdCause_holdable hold]
    exact s.hold_movesOnly n c
  · by_cases hfinish : s.phase n = some .finish
    · rw [State.holdCause_finish hfinish]
      exact s.cutFinish_movesOnly n c
    · rw [State.holdCause_none (by simpa using hold) hfinish]
      exact .refl s

/-! ## A release and an entry to SETTLE at their arm (R92, R138) -/

theorem State.releaseThen_sameAt (s : State) (n : ArmId) : SameAt n (s.released n) (s.releaseThen State.examine n) :=
  State.releaseThen_same _ (examines_examine True True fun _ _ => True) s n

theorem State.releaseThen_resv (s : State) (n : ArmId) :
    (s.releaseThen State.examine n).resv n = { s.resv n with level := .none, amount := 0 } :=
  (s.releaseThen_sameAt n).resv.trans (s.released_resv n)

theorem State.releaseThen_active (s : State) (n : ArmId) : (s.releaseThen State.examine n).active n = s.active n :=
  (s.releaseThen_sameAt n).active.trans (s.released_active n n)

theorem State.releaseThen_arm (s : State) (n : ArmId) : (s.releaseThen State.examine n).arm n = s.arm n :=
  (s.releaseThen_sameAt n).arm

theorem State.releaseThen_ratio (s : State) (n : ArmId) : (s.releaseThen State.examine n).ratio n = s.ratio n :=
  (s.releaseThen_sameAt n).ratio

theorem Load.eq_of_still {l l' : Load} (h : l'.still = l.still) : l' = { l with entries := l'.entries } := by
  have hentries := congrArg (fun x : Load => { x with entries := l'.entries }) h
  exact hentries

/-- A record that is given SETTLE. -/
def Load.settled (l : Load) : Load := { l with phase := some .settle, upgradePending := none }

theorem State.enterSettle_active {l : Load} (hl : s.active n = some l) :
    ∃ l', (s.enterSettle State.examine n).active n = some l' ∧ l'.still = l.settled.still := by
  have hsettle : (s.toSettle n).active n = some l.settled := by
    rw [s.toSettle_active n, hl]
    rfl
  obtain ⟨l', hl', hstill⟩ := (s.toEndStrokes_issues n).active_some hsettle
  exact ⟨l', (State.releaseThen_active _ n).trans hl', hstill⟩

theorem State.enterSettle_arm (s : State) (n : ArmId) : (s.enterSettle State.examine n).arm n = { s.arm n with
    valve := .close, gasTarget := 0, gasRun := none, ethRun := none
    settle := .running (s.now + 1000 * (s.armCfg n).settle) } :=
  (State.releaseThen_arm _ n).trans (s.toEndStrokes_arm n)

theorem State.enterSettle_ratio (s : State) (n : ArmId) :
    (s.enterSettle State.examine n).ratio n = { setpoint := 0, devRun := none, finishTimer := none } :=
  (State.releaseThen_ratio _ n).trans (s.toEndStrokes_ratio n)

theorem State.enterSettle_resv (s : State) (n : ArmId) :
    (s.enterSettle State.examine n).resv n = { s.resv n with level := .none, amount := 0 } := by
  rw [State.enterSettle_eq, State.releaseThen_resv, s.toEndStrokes_resv n]

/-! ## A hold and a cut at their arm (R15) -/

section
variable (s n) (c : HoldCause)

theorem State.hold_active : (s.hold n c).active n = (s.active n).map (·.heldBy c s.holdDue) := by
  rw [State.hold_eq, State.releaseThen_active, s.toHeld_active n c]

theorem State.hold_arm : (s.hold n c).arm n = { s.arm n with
    valve := .close, gasTarget := 0, gasRun := none, ethRun := none, holdDrain := 0 } := by
  rw [State.hold_eq, State.releaseThen_arm, s.toHeld_arm n c]

theorem State.hold_ratio : (s.hold n c).ratio n = { s.ratio n with setpoint := 0, devRun := none } := by
  rw [State.hold_eq, State.releaseThen_ratio, s.toHeld_ratio n c]

theorem State.hold_resv : (s.hold n c).resv n = { s.resv n with level := .none, amount := 0 } := by
  rw [State.hold_eq, State.releaseThen_resv, s.toHeld_resv n c]

theorem State.cutFinish_arm : (s.cutFinish n c).arm n = { s.arm n with
    valve := .close, gasTarget := 0, gasRun := none, ethRun := none
    settle := .running (s.now + 1000 * (s.armCfg n).settle) } := (s.toCut n c).enterSettle_arm n

theorem State.cutFinish_ratio : (s.cutFinish n c).ratio n = { setpoint := 0, devRun := none, finishTimer := none } :=
  (s.toCut n c).enterSettle_ratio n

theorem State.cutFinish_resv : (s.cutFinish n c).resv n = { s.resv n with level := .none, amount := 0 } :=
  (s.toCut n c).enterSettle_resv n

end

theorem State.cutFinish_active {l : Load} (hl : s.active n = some l) (c : HoldCause) :
    ∃ l', (s.cutFinish n c).active n = some l' ∧ l'.still = (l.cutBy c).settled.still := by
  rw [State.cutFinish_eq]
  refine State.enterSettle_active ?_
  rw [s.toCut_active n c, hl]
  rfl

/-! ## Detections (R169) -/

theorem State.latch_first (s : State) (n : ArmId) (k : AlarmKind) :
    ((s.latch n k).alarm n).first = if (s.alarm n).latched = [] then some k else (s.alarm n).first := by
  rw [State.latch, State.modAlarm_alarm_self, ArmAlarms.latch]
  simp only [List.isEmpty_iff]

theorem State.latch_latched (s : State) (n : ArmId) (k j : AlarmKind) :
    j ∈ ((s.latch n k).alarm n).latched ↔ j ∈ (s.alarm n).latched ∨ j = k := by
  rw [State.latch, State.modAlarm_alarm_self]
  exact mem_insertOnce

theorem State.latch_sources (s : State) (n : ArmId) (k : AlarmKind) :
    ((s.latch n k).alarm n).sources = (s.alarm n).sources := by
  rw [State.latch, State.modAlarm_alarm_self]
  rfl

theorem State.latch_alarm_ne (s : State) {n m : ArmId} (h : m ≠ n) (k : AlarmKind) : (s.latch n k).alarm m = s.alarm m := by
  rw [State.latch, State.modAlarm_alarm, if_neg h]

theorem State.detect_off {k : AlarmKind} (h : s.classOf k = .off) : s.detect n k = s := by rw [State.detect, h]

theorem State.detect_warn {k : AlarmKind} (h : s.classOf k = .warn) : s.detect n k = s.latch n k := by rw [State.detect, h]

theorem State.detect_stop {k : AlarmKind} (h : s.classOf k = .stop) :
    s.detect n k = (s.latch n k).holdCause n .alarm := by rw [State.detect, h]

/-- A detection leaves the meters as they were. -/
theorem State.detect_meters (s : State) (n : ArmId) (k : AlarmKind) : (s.detect n k).meters = s.meters := by
  rw [State.detect]
  split
  · rfl
  · rfl
  · exact (State.holdCause_movesOnly _ n .alarm).meters

/-- The alarms after a detection are the latched ones. -/
theorem State.detect_alarms {k : AlarmKind} (h : s.classOf k ≠ .off) : (s.detect n k).alarms = (s.latch n k).alarms := by
  cases hclass : s.classOf k with
  | off => exact absurd hclass h
  | warn => rw [State.detect_warn hclass]
  | stop => rw [State.detect_stop hclass, (State.holdCause_movesOnly _ n .alarm).alarms]

theorem State.detect_alarm {k : AlarmKind} (h : s.classOf k ≠ .off) (m : ArmId) :
    (s.detect n k).alarm m = (s.latch n k).alarm m := by
  rw [State.alarm, State.detect_alarms h]
  rfl

/-- A detection does what R169 says of it, by the class in force. -/
theorem State.detect_detected (s : State) (n : ArmId) (k : AlarmKind) : s.Detected (s.detect n k) n k where
  off h := s.detect_off h
  latched h := by
    rw [State.detect_alarm h, State.latch_latched]
    exact Or.inr rfl
  first h := by rw [State.detect_alarm h, State.latch_first]
  joined j hj := by
    by_cases h : s.classOf k = .off
    · rw [s.detect_off h]
    · rw [State.detect_alarm h, State.latch_latched]
      exact or_iff_left hj
  sources := by
    by_cases h : s.classOf k = .off
    · rw [s.detect_off h]
    · rw [State.detect_alarm h, State.latch_sources]
  others m hm := by
    by_cases h : s.classOf k = .off
    · rw [s.detect_off h]
    · rw [State.detect_alarm h, State.latch_alarm_ne s hm]
  noHold h := by
    cases hclass : s.classOf k with
    | off => rw [s.detect_off hclass]
    | warn => rw [s.detect_warn hclass]; rfl
    | stop =>
      obtain ⟨hold, hfinish⟩ := h.resolve_left fun hne => hne hclass
      rw [s.detect_stop hclass, State.holdCause_none (s := s.latch n k) hold hfinish]
      rfl
  held hclass hold := by
    have hheld : s.detect n k = (s.latch n k).hold n .alarm :=
      (s.detect_stop hclass).trans (State.holdCause_holdable (s := s.latch n k) hold)
    obtain ⟨l, hl⟩ := Option.isSome_iff_exists.mp (isSome_of_holdable hold)
    obtain ⟨l, hl, -⟩ := State.phase_eq_some.mp hl
    rw [hheld, State.hold_active, State.hold_arm, State.hold_ratio, State.hold_resv]
    exact ⟨l, l.heldBy .alarm s.holdDue, hl, by rw [show (s.latch n k).active n = some l from hl]; rfl,
      rfl, rfl, rfl, rfl, rfl, rfl, rfl⟩
  cut hclass hfinish := by
    have hcut : s.detect n k = (s.latch n k).cutFinish n .alarm :=
      (s.detect_stop hclass).trans (State.holdCause_finish (s := s.latch n k) hfinish)
    obtain ⟨l, hl, -⟩ := State.phase_eq_some.mp hfinish
    obtain ⟨l', hl', hstill⟩ := State.cutFinish_active (s := s.latch n k) hl .alarm
    have hrecord := Load.eq_of_still hstill
    rw [hcut, State.cutFinish_ratio, State.cutFinish_resv]
    refine ⟨l, l', hl, hl', ?_, ?_, ?_, ?_, ?_, rfl, rfl⟩ <;> rw [hrecord] <;> rfl
  frame := (s.detect_keeps n k).eq_of_meters (s.detect_meters n k)

end

end Sys2Proof.Machine
end

section
/-! SUPPORT. The detections of the meter channels and of the checking timeout (R47, R48, R51, R52, R81). -/

namespace Sys2Proof.Machine

section
variable {s t : State} {n : ArmId} {k : AlarmKind} {m : MeterId}

/-- A change of a meter beside a detection. -/
theorem State.Detected.modMeter (h : s.Detected t n k) (m : MeterId) {f : Meter → Meter} :
    (s.modMeter m f).Detected (t.modMeter m f) n k where
  off hclass := by rw [h.off hclass]
  latched := h.latched
  first := h.first
  joined := h.joined
  sources := h.sources
  others := h.others
  noHold hclass := by
    have heq := congrArg (State.modMeter · m f) (h.noHold hclass)
    exact heq
  held := h.held
  cut := h.cut
  frame := by
    have heq := congrArg (State.modMeter · m f) h.frame
    exact heq

theorem State.detect_meter (s : State) (n : ArmId) (k : AlarmKind) (m : MeterId) : (s.detect n k).meter m = s.meter m := by
  rw [State.meter, State.meter, s.detect_meters n k]

theorem State.detect_meterCfg (s : State) (n : ArmId) (k : AlarmKind) (m : MeterId) :
    (s.detect n k).meterCfg m = s.meterCfg m := by
  rw [State.meterCfg, State.meterCfg, (s.detect_keeps n k).settings]

theorem State.detectIf_true (s : State) (n : ArmId) (k : AlarmKind) : s.detectIf true n k = s.detect n k := rfl

theorem State.detectIf_false (s : State) (n : ArmId) (k : AlarmKind) : s.detectIf false n k = s := rfl

/-! ## The edges (R47, R51, R52) -/

/-- An A edge that closes the window, judged by the B count. -/
def Meter.judgedWindow (x : Meter) (isMatch : Bool) : Meter := Meter.closeWindow { x with windowA := x.windowA + 1 } isMatch

theorem State.countA_full (h : (s.meterCfg m).window ≤ (s.meter m).windowA + 1) :
    s.countA m = (s.modMeter m (·.judgedWindow ((s.meterCfg m).windowMatches (s.meter m).windowB))).detectIf
      ((s.meter m).detects ((s.meterCfg m).windowMatches (s.meter m).windowB)) (meterArm m) (pulseKind m) := by
  rw [State.countA, State.modMeter_meter_self, if_pos h, State.closeWindow, State.modMeter_modMeter,
    State.modMeter_meter_self]
  rfl

theorem State.countB_below (h : (s.meter m).windowB + 1 ≤ (s.meterCfg m).window + (s.meterCfg m).tolerance) :
    s.countB m = s.modMeter m fun x => { x with windowB := x.windowB + 1 } := by
  rw [State.countB, State.modMeter_meter_self]
  exact if_neg (Nat.not_lt.mpr h)

theorem State.countB_above (h : (s.meterCfg m).window + (s.meterCfg m).tolerance < (s.meter m).windowB + 1) :
    s.countB m = (s.modMeter m (·.closeWindow false)).detectIf ((s.meter m).detects false) (meterArm m) (pulseKind m) := by
  rw [State.countB, State.modMeter_meter_self, if_pos h, State.closeWindow, State.modMeter_modMeter,
    State.modMeter_meter_self]
  rfl

theorem MeterSettings.windowMatches_iff (c : MeterSettings) (b : Nat) :
    c.windowMatches b = true ↔ ((b : Int) - c.window).natAbs ≤ c.tolerance := by
  simp only [MeterSettings.windowMatches, decide_eq_true_eq]
  omega

theorem pulseKind_eq (m : MeterId) : pulseKind m = if m.val % 2 = 0 then .pulseGas else .pulseEth := by
  simp only [pulseKind, isGasMeter, beq_iff_eq]

theorem Meter.detects_iff (x : Meter) (isMatch : Bool) : x.detects isMatch = true ↔ isMatch = false ∧ x.mismatches ≠ 0 := by
  simp [Meter.detects]

/-- Settles O17. -/
theorem reversePulseRaisesTheDebt : Obligations.ReversePulseRaisesTheDebt := by
  intro m s s1 hs hsecurity hbelow hs1
  let v := s.modMeter m Meter.reverse
  let counted := fun x : Meter => { x with windowA := x.windowA + 1 }
  have hv : v.modMeter m counted = s1 := by
    rw [hs1]
    exact s.modMeter_modMeter m _ _
  have hdebt : (v.meter m).debt = min 65535 ((s.meter m).debt + 1) := by
    rw [show v.meter m = _ from State.modMeter_meter_self ..]
    rfl
  have hwindow : (v.meter m).windowA = (s.meter m).windowA := by
    rw [show v.meter m = _ from State.modMeter_meter_self ..]
    rfl
  refine ⟨_, exec_meterAEdge hs m true, fun h => ?_, fun h => ?_⟩
  · have hreverse : s.reversePulse m = v := by
      rw [State.reversePulse, show decide _ = false from decide_eq_false (by rw [hdebt]; omega)]
      rfl
    rw [if_pos hsecurity, if_pos rfl, hreverse, State.countA_below (by rw [hwindow]; exact hbelow)]
    exact hv
  · have hreverse : s.reversePulse m = v.detect (meterArm m) .reverseFlow := by
      rw [State.reversePulse, show decide _ = true from decide_eq_true (by rw [hdebt]; exact h)]
      rfl
    rw [if_pos hsecurity, if_pos rfl, hreverse,
      State.countA_below (by rw [State.detect_meter, State.detect_meterCfg, hwindow]; exact hbelow), ← hv]
    exact (v.detect_detected _ _).modMeter m

/-- Settles O19. -/
theorem bEdgesCloseTheWindowEarly : Obligations.BEdgesCloseTheWindowEarly := by
  intro m s s1 hs
  have hexec : exec (.meterBEdge m) s = if (s.meterCfg m).security then .next (s.countB m) else .next s := by
    show execMeterBEdge m s = _
    rw [execMeterBEdge, hs, Bool.true_and]
  refine ⟨fun h => ?_, fun h hbelow => ?_, fun h habove hs1 => ?_⟩
  · rw [hexec, h]
    rfl
  · rw [hexec, if_pos h, State.countB_below hbelow]
    rfl
  · have hclosed : s.modMeter m (·.closeWindow false) = s1 := hs1.symm
    rw [hexec, if_pos h, State.countB_above habove, hclosed, pulseKind_eq]
    refine ⟨_, rfl, fun hfirst => ?_, fun hsecond => ?_⟩
    · rw [show (s.meter m).detects false = false from by simp [Meter.detects, hfirst]]
      rfl
    · rw [(Meter.detects_iff _ _).mpr ⟨rfl, hsecond⟩]
      exact s1.detect_detected _ _

/-- What an A edge makes of its meter before the window counts it (R47). -/
def Meter.edge (x : Meter) (bHigh : Bool) : Meter := if bHigh then x.reverse else x.forward

theorem Meter.edge_eq (x : Meter) (b : Bool) : x.edge b = { x with
    debt := if b = true then min 65535 (x.debt + 1) else x.debt - 1
    pending := if b = true ∨ 0 < x.debt then x.pending else min 65535 (x.pending + 1) } := by
  cases b with
  | true => rfl
  | false =>
    refine (Meter.forward_eq x).trans ?_
    simp only [Bool.false_eq_true, if_false, false_or]

/-- The edge before the window: the meter moved, and the reverse debt detected above its limit (R48). -/
theorem State.edge_eq (s : State) (m : MeterId) (b : Bool) :
    (if b then s.reversePulse m else s.modMeter m Meter.forward) =
      (s.modMeter m (·.edge b)).detectIf
        (b && decide ((s.meterCfg m).reverseLimit < ((s.meter m).edge b).debt)) (meterArm m) .reverseFlow := by
  cases b with
  | true =>
    rw [if_pos rfl, State.reversePulse, State.modMeter_meter_self]
    rfl
  | false => rfl

/-- Settles O18. -/
theorem windowIsJudgedAtItsSize : Obligations.WindowIsJudgedAtItsSize := by
  intro m b ok above s s1 hs hsecurity hfull habove hok hs1
  have hmatch : (s.meterCfg m).windowMatches (s.meter m).windowB = ok :=
    Bool.eq_iff_iff.mpr ((MeterSettings.windowMatches_iff _ _).trans hok.symm)
  have hs1' : (s.modMeter m (·.edge b)).modMeter m (·.judgedWindow ok) = s1 := by
    have hok' : (if ok = true then 0 else if (s.meter m).mismatches = 0 then 1 else 0) =
        if ok = true ∨ (s.meter m).mismatches ≠ 0 then 0 else 1 := by
      cases ok <;> by_cases hfirst : (s.meter m).mismatches = 0 <;> simp [hfirst]
    rw [hs1, State.modMeter_modMeter, State.modMeter, ← hok']
    simp only [Meter.edge_eq]
    rfl
  have hdecide : (b && decide ((s.meterCfg m).reverseLimit < ((s.meter m).edge b).debt)) = true ↔ above := by
    rw [habove, Bool.and_eq_true, decide_eq_true_eq, Meter.edge_eq]
    exact and_congr_right fun hb => by rw [if_pos hb]
  obtain ⟨v, hv⟩ : ∃ v, v = (s.modMeter m (·.edge b)).detectIf
      (b && decide ((s.meterCfg m).reverseLimit < ((s.meter m).edge b).debt)) (meterArm m) .reverseFlow := ⟨_, rfl⟩
  have hkeeps : Keeps (s.modMeter m (·.edge b)) v := by
    rw [hv]
    exact State.detectIf_keeps _ _ _ _
  have hcfg : v.meterCfg m = s.meterCfg m := by
    rw [State.meterCfg, hkeeps.settings]
    rfl
  have hmeter : v.meter m = (s.meter m).edge b := by
    rw [← s.modMeter_meter_self m (·.edge b), hv, State.detectIf]
    split
    · exact State.detect_meter _ _ _ m
    · rfl
  have hwindow : (v.meter m).windowA = (s.meter m).windowA ∧ (v.meter m).windowB = (s.meter m).windowB ∧
      (v.meter m).mismatches = (s.meter m).mismatches := by
    rw [hmeter, Meter.edge_eq]
    exact ⟨rfl, rfl, rfl⟩
  obtain ⟨hwindowA, hwindowB, hmismatches⟩ := hwindow
  have hcount := State.countA_full (s := v) (m := m) (by rw [hcfg, hwindowA]; exact hfull)
  rw [hcfg, hwindowB, hmatch, pulseKind_eq] at hcount
  refine ⟨v.modMeter m (·.judgedWindow ok), v.countA m, ?_, fun h => ?_, fun h => ?_, fun h => ?_, fun h hsecond => ?_⟩
  · rw [exec_meterAEdge hs, if_pos hsecurity, State.edge_eq, hv]
  · rw [hv, Bool.eq_false_iff.mpr fun hx => h (hdecide.mp hx), State.detectIf_false]
    exact hs1'
  · rw [hv, hdecide.mpr h, State.detectIf_true, ← hs1']
    exact (State.detect_detected _ _ _).modMeter m
  · have hnone : (v.meter m).detects ok = false := by
      rw [Meter.detects, hmismatches]
      rcases h with h | h <;> simp [h]
    rw [hcount, hnone]
    rfl
  · rw [hcount, (Meter.detects_iff _ _).mpr ⟨h, by rw [hmismatches]; exact hsecond⟩]
    exact State.detect_detected _ _ _

/-- Settles O24. -/
theorem checkingTimesOutEveryThirtySeconds : Obligations.CheckingTimesOutEveryThirtySeconds := by
  intro n due s hmode htimer
  refine ⟨_, ?_, State.detect_detected _ n .tempFault⟩
  show execCheckingTimeout n s = _
  rw [execCheckingTimeout, htimer, hmode]
  rfl

end

end Sys2Proof.Machine
end

section
/-! SUPPORT. What an examination does with the requests it finds: the granted ones from the head on, the others in
their places, and the upgrades asked for at a grant behind them (R135, R136). -/

namespace Sys2Proof.Machine

section
variable {s t : State} {n : ArmId} {H : Prop} {P : ArmId → Nat → Prop} {ex : State → State}

/-! ## HEADER_WAIT is entered by START and RESUME alone -/

/-- The record of the arm is DELIVERING and does not wait for its LOW request. -/
def State.Underway (s : State) (n : ArmId) : Prop := ∃ p, s.phase n = some p ∧ p ≠ .headerWait

theorem State.Underway.delivers (h : s.Underway n) : s.Delivers n := by
  obtain ⟨p, hp, -⟩ := h
  exact State.delivers_of_phase (by rw [hp]; rfl)

/-- A DELIVERING record that was given a phase. -/
theorem State.underway_of_setPhase {p : Phase} {u : Option Bool} (h : s.Delivers n) (hp : p ≠ .headerWait)
    (ht : t.active n = (s.active n).map fun l => { l with phase := some p, upgradePending := u }) : t.Underway n :=
  ⟨p, State.phase_of_setPhase ht h, hp⟩

/-- An examination that leaves every record underway that was. -/
def KeepsUnderway (ex : State → State) : Prop := ∀ s n, State.Underway s n → State.Underway (ex s) n

theorem keepsUnderway_id : KeepsUnderway id := fun _ _ h => h

section
variable (hex : KeepsUnderway ex)
include hex

theorem State.Underway.withdrawThen (h : s.Underway n) : (s.withdrawThen ex n).Underway n := by
  have hw : (s.withdraw n).Underway n := h
  rw [State.withdrawThen]
  split
  · exact hex _ n hw
  · exact hw

theorem State.Underway.releaseThen (h : s.Underway n) : (s.releaseThen ex n).Underway n := by
  have hr : (s.released n).Underway n := h
  rw [State.releaseThen_eq]
  split
  · exact hex _ n hr
  · exact hr

theorem State.Delivers.enterTaper (h : s.Delivers n) (b : Bool) : (s.enterTaper ex b n).Underway n := by
  have ht : (s.toTaper n b).Underway n := State.underway_of_setPhase h (by decide) (s.toTaper_active n b)
  rw [State.enterTaper_eq]
  split
  · exact hex _ n ht
  · exact ht.withdrawThen hex

theorem State.Delivers.enterSettle (h : s.Delivers n) : (s.enterSettle ex n).Underway n := by
  have ht : (s.toSettle n).Underway n := State.underway_of_setPhase h (by decide) (s.toSettle_active n)
  rw [State.enterSettle_eq]
  refine State.Underway.releaseThen hex ?_
  rwa [State.Underway, (s.toEndStrokes_issues n).phase]

theorem State.Delivers.enterFinish (h : s.Delivers n) (b : Bool) : (s.enterFinish ex b n).Underway n := by
  have hf : (s.toFinish n).Underway n := State.underway_of_setPhase h (by decide) (s.toFinish_active n)
  rw [State.enterFinish_eq]
  split
  · exact hf.delivers.enterSettle hex
  · exact hf

theorem State.Underway.taperTest (h : s.Underway n) (b : Bool) : (s.taperTest ex b n).Underway n := by
  rw [State.taperTest]
  split
  · exact h
  · split
    · exact h.delivers.enterTaper hex _
    · exact h

omit hex in
theorem State.Underway.lowStartTest (h : s.Underway n) : (s.lowStartTest n).Underway n := by
  cases hl : s.active n with
  | none => rwa [State.lowStartTest_none hl]
  | some l =>
    by_cases hdue : s.lowStartDue n l
    · by_cases hgrant : s.grantsAtOnce (s.upgradeAsked n (s.fraction l)) = true
      · rw [State.lowStartTest_granted hl hdue hgrant]
        exact State.underway_of_setPhase (s := s.upgraded n (s.fraction l)) h.delivers (by decide)
          (State.enterHigh_active _ n)
      · rw [State.lowStartTest_queued hl hdue (by simpa using hgrant)]
        exact State.underway_of_setPhase (s := s.enqueue ⟨n, .upgrade, s.upgradeAsked n (s.fraction l)⟩) h.delivers
          (by decide) (State.setPhase_active _ n _ _)
    · rwa [State.lowStartTest_idle hl hdue]

theorem State.Underway.finishTest (h : s.Underway n) (b : Bool) : (s.finishTest ex b n).Underway n := by
  rw [State.finishTest]
  split
  · exact h
  · split
    · dsimp only
      split
      · exact h.delivers.enterFinish hex b
      · exact (h.delivers.enterTaper hex _).delivers.enterFinish hex b
    · exact h

theorem State.Underway.compareTests (h : s.Underway n) (b : Bool) : (s.compareTests ex b n).Underway n :=
  ((h.taperTest hex b).lowStartTest).finishTest hex b

/-- An entry to LOW leaves no record waiting. -/
theorem State.Delivers.enterLow (h : s.Delivers n) : (s.enterLow ex n).Underway n := by
  have hlow : (s.toLow n).Underway n := ⟨.low, State.toLow_phase h, by decide⟩
  have htests := hlow.compareTests hex false
  rw [State.enterLow_eq]
  split
  · rwa [State.Underway, State.setSetpoint_phase]
  · exact htests

end

/-! ## Grants -/

theorem State.grant_sameAt {r : HeaderRequest} {rest : List HeaderRequest} (hq : s.queue = r :: rest) {m : ArmId}
    (hm : m ≠ r.arm) : SameAt m s (s.grant r rest) := (State.grant_flows hq).others m hm

/-- A record is underway by its grant. -/
theorem State.Delivers.grant {r : HeaderRequest} (h : s.Delivers r.arm) (rest : List HeaderRequest) :
    (s.grant r rest).Underway r.arm := by
  have hdelivers : ((s.withQueue rest).grantReservation r).Delivers r.arm := by
    rw [State.Delivers, State.grantReservation_active]
    exact h
  cases hkind : r.kind with
  | low =>
    rw [State.grant_low hkind]
    exact hdelivers.enterLow keepsUnderway_id
  | upgrade =>
    rw [State.grant_upgrade hkind]
    exact State.underway_of_setPhase hdelivers (by decide) (State.enterHigh_active _ r.arm)

theorem State.Underway.grant (h : s.Underway n) {r : HeaderRequest} {rest : List HeaderRequest} (hq : s.queue = r :: rest) :
    (s.grant r rest).Underway n := by
  by_cases hm : n = r.arm
  · subst hm
    exact h.delivers.grant rest
  · rwa [State.Underway, (State.grant_sameAt hq hm).phase]

theorem State.Underway.examineUpTo (h : s.Underway n) (k : Nat) : (s.examineUpTo k).Underway n := by
  induction k generalizing s with
  | zero => exact h
  | succ k ih =>
    rw [State.examineUpTo]
    split
    · exact h
    · rename_i hq
      split
      · exact ih (h.grant hq)
      · exact h

theorem keepsUnderway_examine : KeepsUnderway State.examine := fun _ _ h => h.examineUpTo _

/-- An upgrade granted (R133, R136). -/
theorem State.Inv.grant_upgrade_at (h : s.Inv H False P) {r : HeaderRequest} {rest : List HeaderRequest}
    (hq : s.queue = r :: rest) (hkind : r.kind = .upgrade) : (s.grant r rest).queue = rest ∧
      (s.grant r rest).phase r.arm = some .high ∧ (s.grant r rest).resv r.arm =
        { s.resv r.arm with level := .high, amount := (s.resv r.arm).amount + r.amount } := by
  have hphase := State.requestFits_phase (h.head_fits hq)
  rw [hkind] at hphase
  have hsame : ((s.withQueue rest).grantReservation r).phase r.arm = s.phase r.arm :=
    State.phase_of_active (State.grantReservation_active _ r r.arm)
  have hresv := State.grantReservation_resv (s.withQueue rest) r
  rw [hkind] at hresv
  rw [State.grant_upgrade hkind]
  exact ⟨State.grantReservation_queue _ r, State.phase_of_setPhase (State.enterHigh_active _ r.arm)
    (State.delivers_of_phase (by rw [hsame, hphase]; rfl)), hresv⟩

/-- A LOW request granted (R136). -/
theorem State.Inv.grant_low_queue (h : s.Inv H False P) {r : HeaderRequest} {rest : List HeaderRequest}
    (hq : s.queue = r :: rest) (hkind : r.kind = .low) : JoinedBy r.arm rest (s.grant r rest).queue := by
  rw [State.grant_low hkind]
  exact JoinedBy.enterLow (h.rest_notQueued hq) (State.grantReservation_queue _ r)

/-- What an examination leaves of a phase: it takes no record out of delivery, nor out of LOW, HIGH and TAPER. -/
def PhaseKept (s t : State) (m : ArmId) : Prop :=
  ((s.phase m).isSome = true → (t.phase m).isSome = true) ∧
    (flowingPhase (s.phase m) = true → flowingPhase (t.phase m) = true)

theorem PhaseKept.of_phase {m : ArmId} (h : t.phase m = s.phase m) : PhaseKept s t m :=
  ⟨fun hs => h.symm ▸ hs, fun hs => h.symm ▸ hs⟩

theorem PhaseKept.trans {u : State} {m : ArmId} (h : PhaseKept s t m) (k : PhaseKept t u m) : PhaseKept s u m :=
  ⟨fun hs => k.1 (h.1 hs), fun hs => k.2 (h.2 hs)⟩

theorem State.Inv.grant_phaseKept (h : s.Inv H False P) {r : HeaderRequest} {rest : List HeaderRequest}
    (hq : s.queue = r :: rest) (m : ArmId) : PhaseKept s (s.grant r rest) m := by
  by_cases hm : m = r.arm
  · subst hm
    have hphase := State.requestFits_phase (h.head_fits hq)
    refine ⟨fun hs => ?_, fun hflow => ?_⟩
    · obtain ⟨p, hp, -⟩ := (State.delivers_of_phase hs).grant rest
      rw [hp]
      rfl
    · cases hkind : r.kind with
      | low =>
        rw [hphase, hkind] at hflow
        cases hflow
      | upgrade =>
        obtain ⟨-, hhigh, -⟩ := h.grant_upgrade_at hq hkind
        rw [hhigh]
        rfl
  · exact .of_phase (State.grant_sameAt hq hm).phase

/-! ## The examination -/

theorem State.Inv.examineUpTo_phaseKept (h : s.Inv H False P) (k : Nat) (m : ArmId) : PhaseKept s (s.examineUpTo k) m := by
  induction k generalizing s with
  | zero => exact .of_phase rfl
  | succ k ih =>
    rw [State.examineUpTo]
    split
    · exact .of_phase rfl
    · rename_i hq
      split
      · rename_i hfit
        exact (h.grant_phaseKept hq m).trans (ih (h.grant hq (by simpa using hfit)))
      · exact .of_phase rfl

/-- What an examination makes of the requests `old` at the head of the queue, where those behind are upgrades of the
arms of `J`. -/
structure Examined (J : ArmId → Prop) (s t : State) (granted waiting joined : List HeaderRequest) : Prop where
  queue : t.queue = waiting ++ joined
  low : ∀ r ∈ granted, r.kind = .low → t.Underway r.arm
  upgrade : ∀ r ∈ granted, r.kind = .upgrade → t.phase r.arm = some .high ∧
    t.resv r.arm = { s.resv r.arm with level := .high, amount := (s.resv r.arm).amount + r.amount }
  waiting : ∀ r ∈ waiting, SameAt r.arm s t
  joined : ∀ r ∈ joined, r.kind = .upgrade ∧ (J r.arm ∨ ∃ g ∈ granted, g.arm = r.arm ∧ g.kind = .low)

/-- A grant of the head before the rest of an examination. -/
theorem Examined.cons {J J' : ArmId → Prop} {u : State} {r : HeaderRequest} {granted waiting joined : List HeaderRequest}
    (h : Examined J' t u granted waiting joined) (hrest : ∀ q ∈ granted ++ waiting, SameAt q.arm s t)
    (hlow : r.kind = .low → u.Underway r.arm)
    (hupgrade : r.kind = .upgrade → u.phase r.arm = some .high ∧
      u.resv r.arm = { s.resv r.arm with level := .high, amount := (s.resv r.arm).amount + r.amount })
    (hJ : ∀ m, J' m → J m ∨ r.kind = .low ∧ m = r.arm) : Examined J s u (r :: granted) waiting joined where
  queue := h.queue
  low q hq hkind := by
    rcases List.mem_cons.mp hq with rfl | hq
    · exact hlow hkind
    · exact h.low q hq hkind
  upgrade q hq hkind := by
    rcases List.mem_cons.mp hq with rfl | hq
    · exact hupgrade hkind
    · rw [← (hrest q (List.mem_append_left _ hq)).resv]
      exact h.upgrade q hq hkind
  waiting q hq := (hrest q (List.mem_append_right _ hq)).trans (h.waiting q hq)
  joined q hq := by
    obtain ⟨hkind, hfrom⟩ := h.joined q hq
    refine ⟨hkind, ?_⟩
    rcases hfrom with hfrom | ⟨g, hg, harm, hlowkind⟩
    · exact (hJ _ hfrom).imp_right fun ⟨hlowkind, hm⟩ => ⟨r, List.mem_cons_self, hm.symm, hlowkind⟩
    · exact Or.inr ⟨g, List.mem_cons_of_mem r hg, harm, hlowkind⟩

/-- Nothing granted, the requests stand as they stood. -/
theorem Examined.stop {J : ArmId → Prop} {old new : List HeaderRequest} (hq : s.queue = old ++ new)
    (hnew : ∀ r ∈ new, r.kind = .upgrade ∧ J r.arm) : Examined J s s [] old new where
  queue := hq
  low _ hr := by cases hr
  upgrade _ hr := by cases hr
  waiting r _ := .refl r.arm s
  joined r hr := (hnew r hr).imp_right Or.inl

/-- An arm without a request is as it was after the rest of an examination. -/
theorem State.examineUpTo_sameAt {m : ArmId} (h : ∀ r ∈ s.queue, r.arm ≠ m) (k : Nat) : SameAt m s (s.examineUpTo k) :=
  (State.examineUpTo_flows (· ≠ m) k s h).others m (not_not.mpr rfl)

theorem State.Inv.examined (h : s.Inv H False P) (k : Nat) {J : ArmId → Prop} {old new : List HeaderRequest}
    (hq : s.queue = old ++ new) (hnew : ∀ r ∈ new, r.kind = .upgrade ∧ J r.arm) :
    ∃ granted waiting joined, old = granted ++ waiting ∧ Examined J s (s.examineUpTo k) granted waiting joined := by
  induction k generalizing s J old new with
  | zero => exact ⟨[], old, new, rfl, .stop hq hnew⟩
  | succ k ih =>
    rw [State.examineUpTo]
    split
    · exact ⟨[], old, new, rfl, .stop hq hnew⟩
    · rename_i r rest hcons
      split
      · rename_i hfit
        have hgrant := h.grant hcons (by simpa using hfit)
        have hrest := h.rest_notQueued hcons
        cases old with
        | nil =>
          rw [List.nil_append, hcons] at hq
          have hqueue := (h.grant_upgrade_at hcons (hnew r (by rw [← hq]; exact List.mem_cons_self)).1).1
          obtain ⟨granted, waiting, joined, hnil, hex⟩ := ih hgrant (old := []) (new := rest) hqueue
            fun q hm => hnew q (by rw [← hq]; exact List.mem_cons_of_mem r hm)
          obtain ⟨rfl, rfl⟩ := List.append_eq_nil_iff.mp hnil.symm
          exact ⟨[], [], joined, rfl, hex.queue, hex.low, (fun _ hr => by cases hr), (fun _ hr => by cases hr), hex.joined⟩
        | cons q old =>
          rw [List.cons_append, hcons, List.cons.injEq] at hq
          obtain ⟨rfl, hq⟩ := hq
          have hbeside (m : ArmId) (hm : m ≠ r.arm) : SameAt m s (s.grant r rest) := State.grant_sameAt hcons hm
          have hold (q : HeaderRequest) (hm : q ∈ old) : SameAt q.arm s (s.grant r rest) :=
            hbeside q.arm (hrest q (by rw [hq]; exact List.mem_append_left _ hm))
          have hdelivers : s.Delivers r.arm :=
            State.delivers_of_phase (by rw [State.requestFits_phase (h.head_fits hcons)]; rfl)
          cases hkind : r.kind with
          | low =>
            obtain ⟨new', hqueue, hnew'⟩ : ∃ new', (s.grant r rest).queue = old ++ new' ∧
                ∀ q ∈ new', q.kind = .upgrade ∧ (J q.arm ∨ q.arm = r.arm) := by
              rcases h.grant_low_queue hcons hkind with hsame | ⟨u, hjoin, hu, hukind⟩
              · exact ⟨new, hsame.trans hq, fun q hm => (hnew q hm).imp_right Or.inl⟩
              · refine ⟨new ++ [u], by rw [hjoin, hq, List.append_assoc], fun q hm => ?_⟩
                rcases List.mem_append.mp hm with hm | hm
                · exact (hnew q hm).imp_right Or.inl
                · rw [List.mem_singleton.mp hm]
                  exact ⟨hukind, Or.inr hu⟩
            obtain ⟨granted, waiting, joined, rfl, hex⟩ := ih hgrant (J := fun m => J m ∨ m = r.arm) hqueue hnew'
            exact ⟨r :: granted, waiting, joined, rfl, hex.cons hold
              (fun _ => (hdelivers.grant rest).examineUpTo k) (fun hup => by rw [hkind] at hup; cases hup)
              fun m hm => hm.imp_right fun hm => ⟨hkind, hm⟩⟩
          | upgrade =>
            obtain ⟨hqueue, hphase, hresv⟩ := h.grant_upgrade_at hcons hkind
            obtain ⟨granted, waiting, joined, rfl, hex⟩ := ih hgrant (hqueue.trans hq) hnew
            have hafter : SameAt r.arm (s.grant r rest) ((s.grant r rest).examineUpTo k) :=
              State.examineUpTo_sameAt (by rw [hqueue]; exact hrest) k
            exact ⟨r :: granted, waiting, joined, rfl, hex.cons hold
              (fun hlow => by rw [hkind] at hlow; cases hlow)
              (fun _ => ⟨hafter.phase.trans hphase, hafter.resv.trans hresv⟩) fun m hm => Or.inl hm⟩
      · exact ⟨[], old, new, rfl, .stop hq hnew⟩

/-- What a release makes of the requests of the other arms (R135, R138). -/
theorem State.Inv.released_examined (h : (s.released n).Inv H False P) :
    ∃ granted waiting joined, s.queue.filter (fun r => r.arm != n) = granted ++ waiting ∧
      Examined (fun _ => False) (s.released n) (s.releaseThen State.examine n) granted waiting joined := by
  have hqueue : (s.released n).queue = s.queue.filter (fun r => r.arm != n) ++ [] := (List.append_nil _).symm
  rw [State.releaseThen_eq]
  split
  · exact h.examined _ hqueue fun _ hr => by cases hr
  · exact ⟨[], _, [], rfl, .stop hqueue fun _ hr => by cases hr⟩

theorem State.Inv.releaseThen_phaseKept (h : (s.released n).Inv H False P) (m : ArmId) :
    PhaseKept s (s.releaseThen State.examine n) m := by
  rw [State.releaseThen_eq]
  split
  · exact (PhaseKept.of_phase (State.released_phase s n m)).trans (h.examineUpTo_phaseKept _ m)
  · exact .of_phase rfl

end

end Sys2Proof.Machine
end

section
/-! SUPPORT. A hold cause at its arm and beside it, the holds of the whole station, and the losses of a permissive
(R15, R164, R186, R187). -/

namespace Sys2Proof.Machine

section
variable {s t u x : State} {n m : ArmId} {H W : Prop} {P : ArmId → Nat → Prop} {c : HoldCause}

/-! ## Beside an arm -/

/-- What an operation on another arm leaves of the arm `m`: its record but for grants, its alarms, and everything when no
request of it waits. -/
structure Beside (m : ArmId) (s t : State) : Prop where
  keeps : Keeps s t
  phase : PhaseKept s t m
  record : (t.active m).map Load.core = (s.active m).map Load.core
  alarm : t.alarm m = s.alarm m
  same : (∀ r ∈ s.queue, r.arm ≠ m) → SameAt m s t

theorem Beside.refl (m : ArmId) (s : State) : Beside m s s := ⟨.refl s, .of_phase rfl, rfl, rfl, fun _ => .refl m s⟩

theorem SameAt.notQueued (h : SameAt m s t) (hs : ∀ r ∈ s.queue, r.arm ≠ m) : ∀ r ∈ t.queue, r.arm ≠ m :=
  fun r hr hrm => hs r ((h.mem_queue hrm).mp hr) hrm

theorem Beside.trans (h : Beside m s t) (k : Beside m t u) : Beside m s u :=
  ⟨h.keeps.trans k.keeps, h.phase.trans k.phase, k.record.trans h.record, k.alarm.trans h.alarm,
    fun hs => (h.same hs).trans (k.same ((h.same hs).notQueued hs))⟩

theorem Aside.beside (h : Aside n s t) (hm : m ≠ n) : Beside m s t :=
  ⟨h.keeps, .of_phase (h.others m hm).phase, by rw [(h.others m hm).active], h.alarms m hm, fun _ => h.others m hm⟩

theorem Beside.active_some (h : Beside m s t) {l : Load} (hl : s.active m = some l) :
    ∃ l', t.active m = some l' ∧ l'.core = l.core := by
  have hrecord := h.record
  rw [hl, Option.map_some] at hrecord
  exact Option.map_eq_some_iff.mp hrecord

/-- A release at another arm. -/
theorem State.Inv.releaseThen_beside (h : (s.released n).Inv H False P) (hm : m ≠ n) :
    Beside m s (s.releaseThen State.examine n) where
  keeps := (s.releaseThen_roams n).keeps
  phase := h.releaseThen_phaseKept m
  record := (s.releaseThen_roams n).active_map m
  alarm := (s.releaseThen_roams n).alarm m
  same hq := ((State.releaseThen_flows (flowsIn_flowRel (· ≠ m)) hm.symm (State.examine_flows _) s) hq).others m
    (not_not.mpr rfl)

/-- A hold cause at another arm. -/
theorem State.Inv.holdCause_beside (h : s.Inv H W P) (hm : m ≠ n) : Beside m s (s.holdCause n c) := by
  by_cases hold : holdablePhase (s.phase n) = true
  · rw [State.holdCause_holdable hold, State.hold_eq]
    exact ((s.toHeld_aside n c).beside hm).trans
      ((((h.others n).toHeld c).released (s.toHeld_armOk n c)).releaseThen_beside hm)
  · by_cases hfinish : s.phase n = some .finish
    · have hcut := (h.others n).stay (s.toCut_aside n c) rfl rfl
      rw [State.holdCause_finish hfinish, State.cutFinish_eq, State.enterSettle_eq]
      exact ((s.toCut_aside n c).beside hm).trans ((((s.toCut n c).toEndStrokes_flows n).aside.beside hm).trans
        ((hcut.toEndStrokes.released ((s.toCut n c).toEndStrokes_armOk n)).releaseThen_beside hm))
    · rw [State.holdCause_none (by simpa using hold) hfinish]
      exact .refl m s

/-! ## At the arm -/

/-- Nothing flows at the arm, and no request of it waits. -/
structure State.StoppedAt (s : State) (n : ArmId) : Prop where
  phase : s.phase n = none ∨ s.phase n = some .settle
  valve : (s.arm n).valve = .close
  setpoint : (s.ratio n).setpoint = 0
  notQueued : ∀ r ∈ s.queue, r.arm ≠ n

theorem State.StoppedAt.same (h : s.StoppedAt n) (hs : SameAt n s t) : t.StoppedAt n where
  phase := by
    rw [hs.phase]
    exact h.phase
  valve := by
    rw [hs.arm]
    exact h.valve
  setpoint := by
    rw [hs.ratio]
    exact h.setpoint
  notQueued := hs.notQueued h.notQueued

theorem State.StoppedAt.holdCause_eq (h : s.StoppedAt n) (c : HoldCause) : s.holdCause n c = s := by
  rcases h.phase with hp | hp
  · exact State.holdCause_none (by rw [hp]; rfl) (by rw [hp]; decide)
  · exact State.holdCause_none (by rw [hp]; rfl) (by rw [hp]; decide)

/-- What a hold cause makes of the record that was active at the arm (R15). -/
def HoldOutcome (c : HoldCause) (s t : State) (n : ArmId) : Prop :=
  ∀ l, s.active n = some l →
    (flowingPhase (s.phase n) = true → ∃ l', t.active n = some l' ∧ l'.number = l.number ∧ l'.state = .held ∧
      l'.lastCause = some c ∧ l'.holdCount = min 255 (l.holdCount + 1)) ∧
    (s.phase n = some .finish → ∃ l', t.active n = some l' ∧ l'.number = l.number ∧ l'.state = .delivering ∧
      l'.phase = some .settle ∧ l'.flags.finishCut = true ∧ l'.lastCause = some c ∧
      l'.holdCount = min 255 (l.holdCount + 1))

theorem State.hold_notQueued (s : State) (n : ArmId) (c : HoldCause) : ∀ r ∈ (s.hold n c).queue, r.arm ≠ n := by
  rw [State.hold_eq]
  exact State.releaseThen_notQueued _ n

theorem State.cutFinish_notQueued (s : State) (n : ArmId) (c : HoldCause) : ∀ r ∈ (s.cutFinish n c).queue, r.arm ≠ n := by
  rw [State.cutFinish_eq, State.enterSettle_eq]
  exact State.releaseThen_notQueued _ n

theorem State.cutFinish_phase (h : s.phase n = some .finish) (c : HoldCause) : (s.cutFinish n c).phase n = some .settle := by
  obtain ⟨l, hl, hstate, -⟩ := State.phase_eq_some.mp h
  obtain ⟨l', hl', hstill⟩ := State.cutFinish_active hl c
  rw [Load.eq_of_still hstill] at hl'
  exact State.phase_eq_some.mpr ⟨_, hl', hstate, rfl⟩

/-- Nothing flows any more at the arm a hold cause reached. -/
theorem State.Inv.holdCause_stoppedAt (h : s.Inv H W P) (n : ArmId) (c : HoldCause) : (s.holdCause n c).StoppedAt n := by
  by_cases hold : holdablePhase (s.phase n) = true
  · rw [State.holdCause_holdable hold]
    refine ⟨Or.inl ?_, by rw [State.hold_arm], by rw [State.hold_ratio], s.hold_notQueued n c⟩
    rw [State.hold_eq, State.releaseThen_phase, s.toHeld_phase n c]
  · have hold : holdablePhase (s.phase n) = false := by simpa using hold
    by_cases hfinish : s.phase n = some .finish
    · rw [State.holdCause_finish hfinish]
      exact ⟨Or.inr (State.cutFinish_phase hfinish c), by rw [State.cutFinish_arm], by rw [State.cutFinish_ratio],
        s.cutFinish_notQueued n c⟩
    · have harm := h.arms n
      have hphase : s.phase n = none ∨ s.phase n = some .settle := by
        cases hp : s.phase n with
        | none => exact Or.inl rfl
        | some p =>
          rw [hp] at hold hfinish
          cases p with
          | settle => exact Or.inr rfl
          | finish => exact absurd rfl hfinish
          | headerWait | low | high | taper => cases hold
      rw [State.holdCause_none hold hfinish]
      refine ⟨hphase, ?_, ?_, h.notQueued_of_notHoldable hold⟩
      · by_contra hv
        have hflow := harm.valve hv
        rcases hphase with hp | hp <;> rw [hp] at hflow <;> cases hflow
      · by_contra hp
        have hblend := harm.setpoint (Nat.pos_of_ne_zero hp)
        rcases hphase with hp | hp <;> rw [hp] at hblend <;> cases hblend

theorem State.holdCause_outcome (s : State) (n : ArmId) (c : HoldCause) : HoldOutcome c s (s.holdCause n c) n := by
  intro l hl
  refine ⟨fun hflow => ?_, fun hfinish => ?_⟩
  · rw [State.holdCause_holdable (State.holdable_of_flowing hflow), State.hold_active, hl]
    exact ⟨_, rfl, rfl, rfl, rfl, rfl⟩
  · obtain ⟨l', hl', hstill⟩ := State.cutFinish_active hl c
    obtain ⟨k, hk, hstate, -⟩ := State.phase_eq_some.mp hfinish
    rw [hl] at hk
    cases hk
    rw [Load.eq_of_still hstill] at hl'
    rw [State.holdCause_finish hfinish]
    exact ⟨_, hl', rfl, hstate, rfl, rfl, rfl, rfl⟩

/-- A hold cause reaches the record an examination before it may have moved. -/
theorem HoldOutcome.after (hb : Beside n s u) (h : s.Inv H W P) (ho : HoldOutcome c u t n) : HoldOutcome c s t n := by
  intro l hl
  obtain ⟨k, hk, hcore⟩ := hb.active_some hl
  obtain ⟨hflowing, hfinish⟩ := ho k hk
  rw [Load.core_number hcore, Load.core_holdCount hcore] at hflowing hfinish
  refine ⟨fun hflow => hflowing (hb.phase.2 hflow), fun hphase => hfinish ?_⟩
  have hsame := hb.same (h.notQueued_of_notHoldable (by rw [hphase]; rfl))
  rwa [hsame.phase]

theorem HoldOutcome.same (ho : HoldOutcome c s t n) (hs : SameAt n t u) : HoldOutcome c s u n := by
  intro l hl
  rw [hs.active]
  exact ho l hl

/-! ## Arm by arm -/

section
variable {op : State → ArmId → State} (hinv : ∀ s n, s.Inv H W P → (op s n).Inv H W P)
  (hbeside : ∀ s n m, s.Inv H W P → m ≠ n → Beside m s (op s n))
include hinv hbeside

theorem State.Inv.foldl_beside {l : List ArmId} (h : s.Inv H W P) (hn : n ∉ l) :
    Beside n s (l.foldl op s) ∧ (l.foldl op s).Inv H W P := by
  induction l generalizing s with
  | nil => exact ⟨.refl n s, h⟩
  | cons k rest ih =>
    rw [List.mem_cons, not_or] at hn
    obtain ⟨hne, hrest⟩ := hn
    exact (ih (hinv s k h) hrest).imp_left ((hbeside s k n h hne).trans ·)

/-- An operation that takes the arms one after another finds each as the ones before left it, and the ones after leave
it. -/
theorem State.Inv.foldl_reaches {l : List ArmId} (h : s.Inv H W P) (hl : l.Nodup) (hn : n ∈ l) :
    ∃ u, u.Inv H W P ∧ Beside n s u ∧ Beside n (op u n) (l.foldl op s) := by
  obtain ⟨before, behind, rfl⟩ := List.append_of_mem hn
  rw [List.nodup_append, List.nodup_cons] at hl
  obtain ⟨-, ⟨hbehind, -⟩, hbefore⟩ := hl
  have hnot : n ∉ before := fun hm => hbefore n hm n List.mem_cons_self rfl
  obtain ⟨hu, huinv⟩ := h.foldl_beside hinv hbeside hnot
  rw [List.foldl_append, List.foldl_cons]
  exact ⟨_, huinv, hu, ((hinv _ n huinv).foldl_beside hinv hbeside hbehind).1⟩

end

/-! ## Holds of the whole station (R186, R187) -/

theorem MovesOnly.foldl {α : Type} (op : State → α → State) (h : ∀ s a, MovesOnly s (op s a)) (s : State) (l : List α) :
    MovesOnly s (l.foldl op s) := by
  induction l generalizing s with
  | nil => exact .refl s
  | cons a rest ih => exact (h s a).trans (ih (op s a))

theorem State.holdAll_movesOnly (s : State) (c : HoldCause) : MovesOnly s (s.holdAll c) :=
  MovesOnly.foldl _ (fun s n => s.holdCause_movesOnly n c) s _

theorem State.Inv.holdAll_reaches (h : s.Inv H W P) (c : HoldCause) (n : ArmId) :
    (s.holdAll c).StoppedAt n ∧ HoldOutcome c s (s.holdAll c) n := by
  obtain ⟨u, hu, hbefore, hbehind⟩ := h.foldl_reaches (op := fun s n => s.holdCause n c) (fun _ _ h => h.holdCause')
    (fun _ _ _ h hm => h.holdCause_beside hm) nodup_allArms (mem_allArms n)
  have hstop := hu.holdCause_stoppedAt n c
  have hsame := hbehind.same hstop.notQueued
  exact ⟨hstop.same hsame, (HoldOutcome.after hbefore h (u.holdCause_outcome n c)).same hsame⟩

theorem State.DeliveryOk.inv (h : s.DeliveryOk) : s.Inv False False s.permits := (h.sound (H := False) False.elim).inv

theorem exec_linkSilence {s : State} {due : Nat} (h : s.link.silence = some due) : exec .linkSilence s = .next
    (match s.settings.station.silenceAction with
      | .hold => (((s.reach due).withLink { s.link with silence := none }).latchStation .linkSilence).holdAll .linkSilence
      | .carryOn => ((s.reach due).withLink { s.link with silence := none }).latchStation .linkSilence) := by
  show execLinkSilence s = _
  rw [execLinkSilence, h]
  rfl

/-- Settles O15. -/
theorem stationHoldsReachEveryArm : Obligations.StationHoldsReachEveryArm := by
  refine ⟨?_, fun due s hsilence haction => ?_⟩
  · rintro c cause due s hs (⟨rfl, rfl, haccepts⟩ | ⟨rfl, rfl, hsilence, haction⟩)
    · let v := s.withLink (s.linkReceived true)
      have hv : v.Inv False False s.permits := hs.inv.unmoved (s.withLink_unmoved _)
      have hmoves := v.holdAll_movesOnly .broadcast
      refine ⟨v.holdAll .broadcast, congrArg Host.Outcome.next (State.takeBroadcast_accepted haccepts _), fun n => ?_,
        fun n => (hv.holdAll_reaches .broadcast n).2,
        fun _ => ⟨hmoves.keeps.link, hmoves.keeps.now, hmoves.keeps.stationAlarms⟩, nofun, ?_⟩
      · obtain ⟨hphase, hvalve, hsetpoint, -⟩ := (hv.holdAll_reaches .broadcast n).1
        exact ⟨hphase, hvalve, hsetpoint⟩
      · rw [hmoves.keeps.now, hmoves.keeps.link, hmoves.keeps.stationAlarms]
        exact hmoves.eq
    · let v := ((s.reach due).withLink { s.link with silence := none }).latchStation .linkSilence
      have hv : v.Inv False False s.permits := ((hs.inv.unmoved (s.withNow_unmoved _)).unmoved
        (State.withLink_unmoved _ _)).unmoved (State.withStationAlarms_unmoved _ _)
      have hmoves := v.holdAll_movesOnly .linkSilence
      refine ⟨v.holdAll .linkSilence, (exec_linkSilence hsilence).trans (by rw [haction]), fun n => ?_,
        fun n => (hv.holdAll_reaches .linkSilence n).2, nofun,
        fun _ => ⟨hmoves.keeps.link, hmoves.keeps.now, ?_⟩, ?_⟩
      · obtain ⟨hphase, hvalve, hsetpoint, -⟩ := (hv.holdAll_reaches .linkSilence n).1
        exact ⟨hphase, hvalve, hsetpoint⟩
      · rw [hmoves.keeps.stationAlarms]
        exact mem_insertOnce.mpr (Or.inr rfl)
      · rw [hmoves.keeps.now, hmoves.keeps.link, hmoves.keeps.stationAlarms]
        exact hmoves.eq
  · exact (exec_linkSilence hsilence).trans (by rw [haction]; rfl)

/-! ## A loss of a permissive (R164) -/

theorem State.classOf_permitLoss (s : State) : s.classOf .permitLoss = .stop := rfl

/-- A loss that acts holds the record, then latches, and detects nothing more. -/
theorem State.Inv.loseAt_eq (h : s.Inv H W P) {p : Permissive} (hacts : s.lossActs p n = true)
    (hphase : (s.phase n).isSome = true) :
    s.loseAt p n = ((s.holdCause n .permissive).latch n .permitLoss).addSource n (lossSourceOf p) := by
  have hstop : ((s.holdCause n .permissive).latch n .permitLoss).StoppedAt n :=
    (h.holdCause_stoppedAt n .permissive).same ⟨rfl, rfl, rfl, rfl, rfl⟩
  rw [State.loseAt, hacts, hphase, State.detect_stop (State.classOf_permitLoss _), hstop.holdCause_eq]
  rfl

theorem State.loseAt_none {p : Permissive} (h : s.lossActs p n = false ∨ s.phase n = none) : s.loseAt p n = s := by
  rw [State.loseAt]
  rcases h with h | h <;> simp [h]

theorem State.Inv.loseAt_beside (h : s.Inv H W P) (p : Permissive) (hm : m ≠ n) : Beside m s (s.loseAt p n) := by
  by_cases hacts : s.lossActs p n = true ∧ (s.phase n).isSome = true
  · rw [h.loseAt_eq hacts.1 hacts.2]
    exact (h.holdCause_beside hm).trans (((State.modAlarm_aside _ n (·.latch .permitLoss)).beside hm).trans
      ((State.modAlarm_aside _ n _).beside hm))
  · rw [not_and_or, Bool.not_eq_true, Bool.not_eq_true, Option.isSome_eq_false_iff, Option.isNone_iff_eq_none] at hacts
    rw [State.loseAt_none hacts]
    exact .refl m s

/-- The alarms of an arm after a loss that acts on it. -/
structure LossLatched (p : Permissive) (a : ArmAlarms) : Prop where
  latched : AlarmKind.permitLoss ∈ a.latched
  source : lossSourceOf p ∈ a.sources

theorem State.Inv.loseAt_latched (h : s.Inv H W P) {p : Permissive} (hacts : s.lossActs p n = true)
    (hphase : (s.phase n).isSome = true) : LossLatched p ((s.loseAt p n).alarm n) := by
  rw [h.loseAt_eq hacts hphase, State.addSource, State.modAlarm_alarm_self]
  exact ⟨(State.latch_latched _ n .permitLoss .permitLoss).mpr (Or.inr rfl), mem_insertOnce.mpr (Or.inr rfl)⟩

theorem State.Inv.loseAt_stoppedAt (h : s.Inv H W P) {p : Permissive} (hacts : s.lossActs p n = true) :
    (s.loseAt p n).StoppedAt n ∧ HoldOutcome .permissive s (s.loseAt p n) n := by
  have hstop := h.holdCause_stoppedAt n .permissive
  have hout := s.holdCause_outcome n .permissive
  by_cases hphase : (s.phase n).isSome = true
  · rw [h.loseAt_eq hacts hphase]
    have hsame : SameAt n (s.holdCause n .permissive)
        (((s.holdCause n .permissive).latch n .permitLoss).addSource n (lossSourceOf p)) := ⟨rfl, rfl, rfl, rfl, rfl⟩
    exact ⟨hstop.same hsame, hout.same hsame⟩
  · have hnone : s.phase n = none := by simpa using hphase
    rw [State.holdCause_none (by rw [hnone]; rfl) (by rw [hnone]; decide)] at hstop hout
    rw [State.loseAt_none (Or.inr hnone)]
    exact ⟨hstop, hout⟩

theorem Beside.lossActs (h : Beside n s t) (p : Permissive) : t.lossActs p n = s.lossActs p n := by
  have hfraction : (t.active n).map t.fraction = (s.active n).map s.fraction := by
    cases hl : s.active n with
    | none =>
      have hrecord := h.record
      rw [hl, Option.map_none] at hrecord
      rw [Option.map_eq_none_iff.mp hrecord]
      rfl
    | some l =>
      obtain ⟨l', hl', hcore⟩ := h.active_some hl
      rw [hl', Option.map_some, Option.map_some, h.keeps.fraction, State.fraction, State.fraction, Load.core_recipe hcore]
  rw [State.lossActs, State.lossActs, hfraction]

/-- What a loss leaves at an arm. -/
theorem State.Inv.loseAll_reaches (h : s.Inv H W P) (p : Permissive) (n : ArmId) :
    (s.lossActs p n = true → (s.loseAll p).StoppedAt n ∧ HoldOutcome .permissive s (s.loseAll p) n) ∧
    (s.lossActs p n = true → (s.phase n).isSome = true → LossLatched p ((s.loseAll p).alarm n)) ∧
    (s.lossActs p n = false ∨ s.phase n = none → (s.loseAll p).alarm n = s.alarm n) := by
  obtain ⟨u, hu, hbefore, hbehind⟩ := h.foldl_reaches (op := fun s n => s.loseAt p n)
    (fun _ _ h => (h.loseAt p).permit fun _ _ => And.left) (fun _ _ _ h hm => h.loseAt_beside p hm) nodup_allArms
    (mem_allArms n)
  have hacts := hbefore.lossActs p
  have halarm : (s.loseAll p).alarm n = (u.loseAt p n).alarm n := hbehind.alarm
  refine ⟨fun hyes => ?_, fun hyes hphase => ?_, fun hno => ?_⟩
  · obtain ⟨hstop, hout⟩ := hu.loseAt_stoppedAt (hacts.trans hyes)
    have hsame := hbehind.same hstop.notQueued
    exact ⟨hstop.same hsame, (HoldOutcome.after hbefore h hout).same hsame⟩
  · rw [halarm]
    exact hu.loseAt_latched (hacts.trans hyes) (hbefore.phase.1 hphase)
  · have hstill : u.loseAt p n = u := by
      refine State.loseAt_none (hno.imp (fun hno => hacts.trans hno) fun hnone => ?_)
      rw [(hbefore.same (h.notQueued_of_notHoldable (by rw [hnone]; rfl))).phase, hnone]
    rw [halarm, hstill, hbefore.alarm]

theorem State.loseAt_meters (s : State) (p : Permissive) (n : ArmId) : (s.loseAt p n).meters = s.meters := by
  rw [State.loseAt]
  split
  · exact (State.detect_meters _ n .permitLoss).trans (s.holdCause_movesOnly n .permissive).meters
  · rfl

theorem State.loseAll_meters (s : State) (p : Permissive) : (s.loseAll p).meters = s.meters :=
  foldl_keeps (P := fun t => t.meters = s.meters) (fun t n h => (t.loseAt_meters p n).trans h) rfl allArms

/-- Settles O10. -/
theorem lossStopsEveryArmItActsOn : Obligations.LossStopsEveryArmItActsOn := by
  intro p s hs hoperating hlevel
  let v := s.withLevels (setLevel s.levels p false)
  have hv : v.Inv False False s.permits := hs.inv.unmoved (s.withLevels_unmoved _)
  have hkeeps := v.loseAll_keeps p
  refine ⟨v.loseAll p, ?_, hkeeps.levels, fun n hacts => ?_, fun n l hacts => ((hv.loseAll_reaches p n).1 hacts).2 l,
    fun n hacts hphase => ?_, fun n => (hv.loseAll_reaches p n).2.2, ?_⟩
  · show execPermissiveLoss p s = _
    rw [execPermissiveLoss, hoperating, hlevel]
    rfl
  · obtain ⟨hphase, hvalve, hsetpoint, -⟩ := ((hv.loseAll_reaches p n).1 hacts).1
    exact ⟨hphase, hvalve, hsetpoint⟩
  · obtain ⟨hlatched, hsource⟩ := (hv.loseAll_reaches p n).2.1 hacts hphase
    exact ⟨hlatched, hsource⟩
  · rw [hkeeps.levels]
    exact hkeeps.eq_of_meters (v.loseAll_meters p)

end

end Sys2Proof.Machine
end

section
/-! SUPPORT. HOLD LOAD and the stop push-button (R15, R18, R103, R135). -/

namespace Sys2Proof.Machine

section
variable {s t x : State} {n : ArmId} {H W : Prop} {P : ArmId → Nat → Prop} {c : HoldCause}

/-! ## Requests answered with the record's state (R192) -/

theorem State.takeRequest_okState (hs : s.Accepts) {code : Byte} {p : List Byte} (hp : p.length = 2)
    {owner : State → Answer} {l : Load} (h : owner (s.withLink (s.linkReceived false)) = .okState t l.number)
    (hlink : t.link = s.linkReceived false) (hl : t.load? l.number = some l) :
    s.takeRequest code p (fitsLength 3 p) owner = t.withLink (s.linkAnswered code .ok
      (be16 l.number ++ byte1 l.state.code ++ byte1 (phaseCode l.deliveringPhase))) := by
  rw [fitsLength_of_length hp, State.takeRequest_of_effect (t := t) (r := .ok)
    (payload := be16 l.number ++ t.stateAndPhase l.number) hs (frameExists_of_length hp (by decide)) h hlink,
    State.stateAndPhase, hl, List.append_assoc]

theorem State.DeliveryOk.active_load (h : s.DeliveryOk) {l : Load} (hl : s.active n = some l) :
    s.load? l.number = some l := State.load?_of_active h.tables.loadNumbers hl

/-- A station with a record runs. -/
theorem State.DeliveryOk.running_of_active (h : s.DeliveryOk) {l : Load} (hl : s.active n = some l) : s.isRunning = true := by
  by_contra hno
  have hmem := State.active_mem hl
  rw [h.stopped (by simpa using hno)] at hmem
  cases hmem

theorem State.operating_of_running (h : s.isRunning = true) : s.operating = true := by
  rw [State.isRunning, beq_iff_eq] at h
  rw [State.operating, h]

/-! ## What a hold makes of the queue (R135) -/

theorem Aside.released_examined (ha : Aside n s x) (hq : x.queue = s.queue) (hinv : (x.released n).Inv H False P) :
    ∃ granted waiting joined, s.queue.filter (fun r => r.arm != n) = granted ++ waiting ∧
      Examined (fun _ => False) s (x.releaseThen State.examine n) granted waiting joined := by
  obtain ⟨granted, waiting, joined, hsplit, hex⟩ := hinv.released_examined
  rw [hq] at hsplit
  have hsame (r : HeaderRequest) (hr : r ∈ granted ++ waiting) : SameAt r.arm s (x.released n) := by
    rw [← hsplit, List.mem_filter] at hr
    exact (ha.trans (x.released_flows n).aside).others r.arm (by simpa using hr.2)
  refine ⟨granted, waiting, joined, hsplit, hex.queue, hex.low, fun r hr hkind => ?_, fun r hr => ?_, hex.joined⟩
  · rw [← (hsame r (List.mem_append_left _ hr)).resv]
    exact hex.upgrade r hr hkind
  · exact (hsame r (List.mem_append_right _ hr)).trans (hex.waiting r hr)

theorem State.Inv.holdCause_examined (h : s.Inv H W P)
    (hphase : holdablePhase (s.phase n) = true ∨ s.phase n = some .finish) (c : HoldCause) :
    ∃ granted waiting joined, s.queue.filter (fun r => r.arm != n) = granted ++ waiting ∧
      Examined (fun _ => False) s (s.holdCause n c) granted waiting joined := by
  rcases hphase with hold | hfinish
  · rw [State.holdCause_holdable hold, State.hold_eq]
    exact (s.toHeld_aside n c).released_examined (s.toHeld_queue n c)
      (((h.others n).toHeld c).released (s.toHeld_armOk n c))
  · have hcut := (h.others n).stay (s.toCut_aside n c) rfl rfl
    rw [State.holdCause_finish hfinish, State.cutFinish_eq, State.enterSettle_eq]
    exact ((s.toCut_aside n c).trans ((s.toCut n c).toEndStrokes_flows n).aside).released_examined
      ((s.toCut n c).toEndStrokes_queue n) (hcut.toEndStrokes.released ((s.toCut n c).toEndStrokes_armOk n))

/-! ## What it leaves at its arm (R15, R99) -/

/-- The record and the arm after a hold cause that finds the record flowing, waiting or in FINISH. -/
structure HeldOrCut (c : HoldCause) (s t : State) (n : ArmId) (l l' : Load) : Prop where
  record : t.active n = some l'
  number : l'.number = l.number
  holdCount : l'.holdCount = min 255 (l.holdCount + 1)
  lastCause : l'.lastCause = some c
  totals : l'.gasGross = l.gasGross ∧ l'.gasNet = l.gasNet ∧ l'.ethGross = l.ethGross ∧ l'.ethNet = l.ethNet
  held : holdablePhase (s.phase n) = true →
    l'.state = .held ∧ l'.phase = none ∧ l'.upgradePending = none ∧ l'.abortTaken = none ∧ l'.flags = l.flags ∧
      l'.holdTimer = s.holdDue ∧ (t.arm n).holdDrain = 0 ∧ (t.arm n).gasRun = none ∧ (t.arm n).ethRun = none
  cut : s.phase n = some .finish →
    l'.state = .delivering ∧ l'.phase = some .settle ∧ l'.flags.finishCut = true ∧ (t.ratio n).finishTimer = none ∧
      (t.arm n).settle = .running (s.now + 1000 * (s.armCfg n).settle)
  closed : (t.arm n).valve = .close ∧ (t.arm n).gasTarget = 0 ∧ (t.ratio n).setpoint = 0
  released : (t.resv n).level = .none ∧ (t.resv n).amount = 0

theorem State.holdCause_heldOrCut {l : Load} (hl : s.active n = some l)
    (hphase : holdablePhase (s.phase n) = true ∨ s.phase n = some .finish) (c : HoldCause) :
    ∃ l', HeldOrCut c s (s.holdCause n c) n l l' := by
  rcases hphase with hold | hfinish
  · have hnot : s.phase n ≠ some .finish := fun hp => by rw [hp] at hold; cases hold
    rw [State.holdCause_holdable hold]
    refine ⟨l.heldBy c s.holdDue, by rw [State.hold_active, hl]; rfl, rfl, rfl, rfl, ⟨rfl, rfl, rfl, rfl⟩, fun _ => ?_,
      fun hp => absurd hp hnot, ?_, ?_⟩
    · rw [State.hold_arm]
      exact ⟨rfl, rfl, rfl, rfl, rfl, rfl, rfl, rfl, rfl⟩
    · rw [State.hold_arm, State.hold_ratio]
      exact ⟨rfl, rfl, rfl⟩
    · rw [State.hold_resv]
      exact ⟨rfl, rfl⟩
  · have hnot : holdablePhase (s.phase n) ≠ true := fun hp => by rw [hfinish] at hp; cases hp
    obtain ⟨l', hl', hstill⟩ := State.cutFinish_active hl c
    obtain ⟨k, hk, hstate, -⟩ := State.phase_eq_some.mp hfinish
    rw [hl] at hk
    cases hk
    rw [Load.eq_of_still hstill] at hl'
    rw [State.holdCause_finish hfinish]
    refine ⟨_, hl', rfl, rfl, rfl, ⟨rfl, rfl, rfl, rfl⟩, fun hp => absurd hp hnot, fun _ => ?_, ?_, ?_⟩
    · rw [State.cutFinish_arm, State.cutFinish_ratio]
      exact ⟨hstate, rfl, rfl, rfl, rfl⟩
    · rw [State.cutFinish_arm, State.cutFinish_ratio]
      exact ⟨rfl, rfl, rfl⟩
    · rw [State.cutFinish_resv]
      exact ⟨rfl, rfl⟩

/-- A record after a hold cause is in the phase its field names. -/
theorem HeldOrCut.deliveringPhase {l l' : Load} (h : HeldOrCut c s t n l l')
    (hphase : holdablePhase (s.phase n) = true ∨ s.phase n = some .finish) : l'.deliveringPhase = l'.phase := by
  rcases hphase with hold | hfinish
  · obtain ⟨hstate, hnone, -⟩ := h.held hold
    rw [hnone]
    exact Load.deliveringPhase_none (by rw [hstate]; decide)
  · obtain ⟨hstate, -⟩ := h.cut hfinish
    exact Load.deliveringPhase_delivering hstate

/-! ## HOLD LOAD and the stop button -/

theorem State.deliveringPhase_of_holdable {l : Load} (hl : s.active n = some l)
    (hphase : holdablePhase (s.phase n) = true ∨ s.phase n = some .finish) :
    ∃ p, l.deliveringPhase = some p ∧ p ≠ .settle := by
  rw [State.phase_eq hl] at hphase
  cases hp : l.deliveringPhase with
  | none => rw [hp] at hphase; rcases hphase with h | h <;> cases h
  | some p =>
    refine ⟨p, rfl, fun hsettle => ?_⟩
    rw [hp, hsettle] at hphase
    rcases hphase with h | h <;> cases h

theorem State.answerHold_holds {p : List Byte} {l : Load} (hne : fieldAt p 0 2 ≠ 0) (hload : s.load? (fieldAt p 0 2) = some l)
    {q : Phase} (hq : l.deliveringPhase = some q) (hsettle : q ≠ .settle) :
    s.answerHold p = .okState (s.holdCause l.arm .host) l.number := by
  rw [State.answerHold, State.forLoad_found hne hload, hq]
  cases q with
  | settle => exact absurd rfl hsettle
  | headerWait | low | high | taper | finish => rfl

theorem State.answerHold_wrongState {p : List Byte} {l : Load} (hne : fieldAt p 0 2 ≠ 0)
    (hload : s.load? (fieldAt p 0 2) = some l) (h : l.state ≠ .delivering ∨ l.phase = some .settle) :
    s.answerHold p = .refuse s .wrongState := by
  rw [State.answerHold, State.forLoad_found hne hload]
  by_cases hstate : l.state = .delivering
  · rw [Load.deliveringPhase_delivering hstate, h.resolve_left (not_not.mpr hstate)]
  · rw [Load.deliveringPhase_none hstate]

theorem exec_holdLoad_refused (hs : s.Accepts) {p : List Byte} (hp : p.length = 2) {r : Result}
    (h : (s.receiveGood false).answerHold p = .refuse (s.receiveGood false) r) :
    exec (.holdLoad p) s = .next (s.refusedAs 0x12 r) :=
  congrArg Host.Outcome.next (State.takeRequest_forLoad hs hp h)

theorem exec_holdLoad (hs : s.Accepts) (hok : s.DeliveryOk) {p : List Byte} (hp : p.length = 2) {l : Load}
    (hl : s.active n = some l) (hphase : holdablePhase (s.phase n) = true ∨ s.phase n = some .finish)
    (hnumber : fieldAt p 0 2 = l.number) (hne : l.number ≠ 0) {l' : Load}
    (hl' : ((s.withLink (s.linkReceived false)).holdCause n .host).active n = some l') (hsame : l'.number = l.number) :
    exec (.holdLoad p) s = .next (((s.withLink (s.linkReceived false)).holdCause n .host).withLink
      (s.linkAnswered 0x12 .ok (be16 l.number ++ byte1 l'.state.code ++ byte1 (phaseCode l'.deliveringPhase)))) := by
  let u := s.withLink (s.linkReceived false)
  have hkeeps := u.holdCause_keeps n .host
  obtain ⟨q, hq, hsettle⟩ := State.deliveringPhase_of_holdable hl hphase
  have hanswer : u.answerHold p = .okState (u.holdCause n .host) l.number := by
    have hfound := State.answerHold_holds (s := u) (p := p) (l := l) (by rw [hnumber]; exact hne)
      (by rw [hnumber]; exact hok.active_load hl) hq hsettle
    rwa [State.active_arm hl] at hfound
  rw [← hsame] at hanswer ⊢
  exact congrArg Host.Outcome.next (State.takeRequest_okState hs hp hanswer hkeeps.link
    (State.load?_of_active (hkeeps.numbers hok.tables.loadNumbers) hl'))

theorem exec_stopButton_holds (hs : s.operating = true) (hreleased : s.buttons.stop[n] = false)
    (hmode : (s.arm n).mode = .available) : exec (.stopButtonEdge ⟨n, true⟩) s =
      .next ((s.withButtons (s.buttonsAfter (.stopButtonEdge ⟨n, true⟩))).holdCause n .stopButton) := by
  have hedge : isEdge s.buttons.stop[n] true = true := by rw [hreleased]; rfl
  have hstop : (s.withButtons (setStop s.buttons ⟨n, true⟩)).stopEdge n =
      (s.withButtons (setStop s.buttons ⟨n, true⟩)).holdCause n .stopButton := if_pos (beq_iff_eq.mpr hmode)
  refine (exec_stopButtonEdge ⟨n, true⟩ hs).trans ?_
  rw [hedge, if_pos rfl, hstop]
  rfl

/-- A stop edge at an arm that is not available, or whose record no hold cause moves, is ignored. -/
theorem State.stopEdge_ignored (h : (s.arm n).mode ≠ .available ∨ s.phase n = none ∨ s.phase n = some .settle) :
    s.stopEdge n = s := by
  rw [State.stopEdge]
  split
  · rename_i hmode
    rcases h.resolve_left fun hne => hne (beq_iff_eq.mp hmode) with hp | hp
    · exact State.holdCause_none (by rw [hp]; rfl) (by rw [hp]; decide)
    · exact State.holdCause_none (by rw [hp]; rfl) (by rw [hp]; decide)
  · rfl

/-- Settles O14. -/
theorem holdCauseStopsTheFlow : Obligations.HoldCauseStopsTheFlow := by
  refine ⟨fun c cause p n l s hok hl hphase hc => ?_, fun p b l s => ⟨fun hs hp => ⟨fun hzero => ?_, fun hne hnone => ?_,
    fun hne hload hstate => ?_⟩, fun hs hb => ?_, fun hs => ?_⟩⟩
  · have hbase (k : Link) (b : ButtonLevels) : ∃ l' granted waiting joined,
        HeldOrCut cause s (((s.withLink k).withButtons b).holdCause n cause) n l l' ∧
        s.queue.filter (fun r => r.arm != n) = granted ++ waiting ∧
        Examined (fun _ => False) s (((s.withLink k).withButtons b).holdCause n cause) granted waiting joined := by
      have hinv : ((s.withLink k).withButtons b).Inv False False s.permits :=
        (hok.inv.unmoved (s.withLink_unmoved k)).unmoved (State.withButtons_unmoved _ b)
      obtain ⟨l', hheld⟩ := State.holdCause_heldOrCut (s := (s.withLink k).withButtons b) hl hphase cause
      obtain ⟨granted, waiting, joined, hsplit, hex⟩ := hinv.holdCause_examined hphase cause
      exact ⟨l', granted, waiting, joined, ⟨hheld.record, hheld.number, hheld.holdCount, hheld.lastCause, hheld.totals,
        hheld.held, hheld.cut, hheld.closed, hheld.released⟩, hsplit, hex.queue, hex.low, hex.upgrade,
        fun r hr => ⟨(hex.waiting r hr).list, (hex.waiting r hr).arm, (hex.waiting r hr).ratio, (hex.waiting r hr).resv,
          (hex.waiting r hr).requests⟩, hex.joined⟩
    obtain ⟨k, k', l', granted, waiting, joined, hexec, hlink, hheld, hsplit, hex⟩ : ∃ k k' l' granted waiting joined,
        exec c s = .next ((((s.withLink k).withButtons (s.buttonsAfter c)).holdCause n cause).withLink k') ∧
        (c = .holdLoad p → k' = s.linkAnswered 0x12 .ok
          (be16 l.number ++ byte1 l'.state.code ++ byte1 (phaseCode l'.phase))) ∧
        HeldOrCut cause s (((s.withLink k).withButtons (s.buttonsAfter c)).holdCause n cause) n l l' ∧
        s.queue.filter (fun r => r.arm != n) = granted ++ waiting ∧
        Examined (fun _ => False) s (((s.withLink k).withButtons (s.buttonsAfter c)).holdCause n cause)
          granted waiting joined := by
      rcases hc with ⟨rfl, hreleased, rfl, hmode⟩ | ⟨rfl, rfl, haccepts, hp, hnumber, hne⟩
      · obtain ⟨l', granted, waiting, joined, hheld, hrest⟩ := hbase s.link (s.buttonsAfter (.stopButtonEdge ⟨n, true⟩))
        exact ⟨s.link, (((s.withLink s.link).withButtons (s.buttonsAfter (.stopButtonEdge ⟨n, true⟩))).holdCause n
          .stopButton).link, l', granted, waiting, joined,
          exec_stopButton_holds (State.operating_of_running (hok.running_of_active hl)) hreleased hmode, nofun, hheld, hrest⟩
      · obtain ⟨l', granted, waiting, joined, hheld, hrest⟩ := hbase (s.linkReceived false) s.buttons
        exact ⟨s.linkReceived false, _, l', granted, waiting, joined,
          exec_holdLoad haccepts hok hp hl hphase hnumber hne hheld.record hheld.number,
          fun _ => by rw [hheld.deliveringPhase hphase], hheld, hrest⟩
    have hmoves := State.holdCause_movesOnly ((s.withLink k).withButtons (s.buttonsAfter c)) n cause
    obtain ⟨hvalve, htarget, hsetpoint⟩ := hheld.closed
    obtain ⟨hgas, hgasNet, heth, hethNet⟩ := hheld.totals
    refine ⟨_, l', granted, waiting, joined, hexec, hheld.record, hheld.number, hheld.holdCount, hheld.lastCause,
      hgas, hgasNet, heth, hethNet, hheld.held, hheld.cut, hvalve, htarget, hsetpoint, hheld.released.1,
      hheld.released.2, hsplit, hex.queue, fun r hr => ⟨fun hlow hwait => ?_, hex.upgrade r hr⟩,
      fun r hr => ⟨(hex.waiting r hr).phase, (hex.waiting r hr).resv⟩,
      fun r hr => (hex.joined r hr).imp_right fun hj => hj.resolve_left id, hlink, ?_⟩
    · obtain ⟨q, hq, hne⟩ := hex.low r hr hlow
      exact hne (Option.some.inj (hq.symm.trans hwait))
    · have heq := congrArg (State.withLink · k') hmoves.eq
      exact heq
  · exact exec_holdLoad_refused hs hp (State.forLoad_badField hzero)
  · exact exec_holdLoad_refused hs hp (State.forLoad_notFound hne hnone)
  · exact exec_holdLoad_refused hs hp (State.answerHold_wrongState hne hload hstate)
  · rw [exec_stopButtonEdge b hs]
    split
    · rename_i hedge
      have hignored : (s.withButtons (setStop s.buttons b)).stopEdge b.arm = s.withButtons (setStop s.buttons b) := by
        refine State.stopEdge_ignored (s := s.withButtons (setStop s.buttons b)) ?_
        rcases hb with hb | hb | hb
        · rw [isEdge, hb, Bool.and_false] at hedge
          cases hedge
        · rw [isEdge, hb] at hedge
          cases hedge
        · exact hb
      rw [hignored]
      rfl
    · rfl
  · exact if_neg (ne_true_of_eq_false hs)

end

end Sys2Proof.Machine
end

section
/-! SUPPORT. The end of a record, whatever brings it (R25 to R27, R105, R107, R122, R8). -/

namespace Sys2Proof.Machine

section
variable {s t u : State} {n m : ArmId} {l : Load} {r : EndReason}

/-! ## Masks (R149) -/

theorem State.maskArm_injector (s : State) (n : ArmId) (on : Bool) (i : InjId) : (s.maskArm n on).injector i =
    if (s.injCfg i).arm = armNumber n then (s.injector i).command on else s.injector i := by
  have hfold := foldl_get (op := fun s i => if (s.injCfg i).arm == armNumber n then s.modInjector i (·.command on) else s)
    (P := fun t => t.settings = s.settings) (get := State.injector)
    (f := fun i j => if (s.injCfg i).arm = armNumber n then j.command on else j) (s := s)
    (fun t a h => by
      split
      · exact h
      · exact h)
    (fun t a h => by
      have hcfg : t.injCfg a = s.injCfg a := by rw [State.injCfg, State.injCfg, h]
      by_cases harm : (s.injCfg a).arm = armNumber n <;> simp [hcfg, harm])
    (fun t a b _ hne => by
      split
      · rw [State.modInjector_injector, if_neg hne]
      · rfl)
    rfl nodup_allInjectors i
  rwa [if_pos (mem_allInjectors i)] at hfold

theorem State.maskArm_masked (s : State) (n : ArmId) (on : Bool) {i : InjId} (h : (s.injCfg i).arm = armNumber n) :
    ((s.maskArm n on).injector i).mask = on := by
  rw [State.maskArm_injector, if_pos h]
  rfl

/-! ## Detections where nothing flows (R169) -/

/-- Only the alarms are changed. -/
def OnlyAlarms (s t : State) : Prop := t = { s with alarms := t.alarms }

theorem OnlyAlarms.trans (h : OnlyAlarms s t) (k : OnlyAlarms t u) : OnlyAlarms s u := by
  unfold OnlyAlarms at *
  rw [k, h]

section
variable (h : OnlyAlarms s t)
include h

theorem OnlyAlarms.loads : t.loads = s.loads := by rw [h]
theorem OnlyAlarms.active (n : ArmId) : t.active n = s.active n := by rw [h]; rfl
theorem OnlyAlarms.phase (n : ArmId) : t.phase n = s.phase n := State.phase_of_active (h.active n)
theorem OnlyAlarms.arm (n : ArmId) : t.arm n = s.arm n := by rw [h]; rfl
theorem OnlyAlarms.ratio (n : ArmId) : t.ratio n = s.ratio n := by rw [h]; rfl
theorem OnlyAlarms.injector (i : InjId) : t.injector i = s.injector i := by rw [h]; rfl
theorem OnlyAlarms.sameAt (n : ArmId) : SameAt n s t := by
  refine ⟨?_, h.arm n, h.ratio n, ?_, ?_⟩ <;> rw [h] <;> rfl
theorem OnlyAlarms.settings : t.settings = s.settings := by rw [h]
theorem OnlyAlarms.fields : t.reservations = s.reservations ∧ t.queue = s.queue ∧ t.meters = s.meters := by
  rw [h]; exact ⟨rfl, rfl, rfl⟩

end

/-- A detection at an arm without a phase holds nothing. -/
theorem State.detectIf_onlyAlarms (h : s.phase n = none) (b : Bool) (k : AlarmKind) : OnlyAlarms s (s.detectIf b n k) := by
  cases b with
  | true => exact (s.detect_detected n k).noHold (Or.inr ⟨by rw [h]; rfl, by rw [h]; decide⟩)
  | false => rfl

theorem State.detectIf_latched_mono {j : AlarmKind} (h : j ∈ (s.alarm n).latched) (b : Bool) (k : AlarmKind) :
    j ∈ ((s.detectIf b n k).alarm n).latched := by
  have hd := s.detect_detected n k
  rw [State.detectIf]
  split
  · by_cases hoff : s.classOf k = .off
    · rwa [hd.off hoff]
    · by_cases hj : j = k
      · rw [hj]
        exact hd.latched hoff
      · exact (hd.joined j hj).mpr h
  · exact h

theorem State.detectIf_alarm_ne (s : State) (h : m ≠ n) (b : Bool) (k : AlarmKind) :
    (s.detectIf b n k).alarm m = s.alarm m := by
  rw [State.detectIf]
  split
  · exact (s.detect_detected n k).others m h
  · rfl

/-! ## The record ended -/

section
variable (s n l r)

theorem State.toEnded_phase : (s.toEnded n l r).phase n = none := State.phase_none (s.toEnded_active n l r)

theorem State.endDetections_onlyAlarms : OnlyAlarms (s.toEnded n l r) (s.endDetections n l r) := by
  have hfirst := State.detectIf_onlyAlarms (s.toEnded_phase n l r) (l.offRatio (s.fraction l) (s.tolerance l)) .offRatio
  exact hfirst.trans (State.detectIf_onlyAlarms ((hfirst.phase n).trans (s.toEnded_phase n l r)) _ _)

theorem State.toEnded_loads : (s.toEnded n l r).loads = (s.modActive n fun l =>
    l.completed r (s.fraction l) (s.tolerance l) (s.armCfg n).overrunLimit).loads := by
  rw [State.toEnded, State.modRatio_loads, State.modArm_loads, (State.maskArm_onlyInjectors _ n true).loads]

theorem State.endDetections_loads : (s.endDetections n l r).loads = (s.modActive n fun l =>
    l.completed r (s.fraction l) (s.tolerance l) (s.armCfg n).overrunLimit).loads :=
  (s.endDetections_onlyAlarms n l r).loads.trans (s.toEnded_loads n l r)

theorem State.endDetections_arm (k : ArmId) : (s.endDetections n l r).arm k = (s.toEnded n l r).arm k :=
  (s.endDetections_onlyAlarms n l r).arm k

theorem State.endDetections_active : (s.endDetections n l r).active n = none :=
  ((s.endDetections_onlyAlarms n l r).active n).trans (s.toEnded_active n l r)

theorem State.endDetections_aside : Aside n s (s.endDetections n l r) := by
  have ha := s.toEnded_aside n l r
  refine ⟨s.endDetections_keeps n l r, fun m hm =>
    (ha.others m hm).trans ((s.endDetections_onlyAlarms n l r).sameAt m), fun m hm => ?_⟩
  rw [State.endDetections, State.detectIf_alarm_ne _ hm, State.detectIf_alarm_ne _ hm]
  exact ha.alarms m hm

/-- An end makes no STAGED record. -/
theorem State.endDetections_oldestStaged : (s.endDetections n l r).oldestStaged n = s.oldestStaged n := by
  have hkeep (k : Load) : ((if (k.arm == n && k.isActive) = true then
      k.completed r (s.fraction k) (s.tolerance k) (s.armCfg n).overrunLimit else k).arm == n && (if (k.arm == n && k.isActive) = true
      then k.completed r (s.fraction k) (s.tolerance k) (s.armCfg n).overrunLimit else k).state == .staged) =
      (k.arm == n && k.state == .staged) := by
    split
    · rename_i h
      rw [Bool.and_eq_true, Load.isActive_iff] at h
      rcases h.2 with hstate | hstate | hstate <;> rw [hstate] <;> rfl
    · rfl
  rw [State.oldestStaged, s.endDetections_loads n l r, State.modActive, State.withLoads_loads, State.oldestStaged,
    find?_map_of_iff fun k _ => hkeep k]
  cases hk : s.loads.find? fun l => l.arm == n && l.state == .staged with
  | none => rfl
  | some k =>
    have hstaged := List.find?_some hk
    simp only [Bool.and_eq_true, beq_iff_eq] at hstaged
    simp [Load.isActive, hstaged.2]

end

end

end Sys2Proof.Machine
end

section
/-! SUPPORT. What the end of a record leaves (R25 to R27, R105, R107, R122, R8), and the commands that end one. -/

namespace Sys2Proof.Machine

section
variable {s t u : State} {n m : ArmId} {l : Load} {r : EndReason}

/-! ## The completed record -/

theorem Load.achievedFraction_eq (l : Load) : l.achievedFraction = l.endFraction := by
  rw [Load.achievedFraction, Load.endFraction, Load.totalNet, roundUp]
  by_cases h : l.gasNet + l.ethNet = 0
  · rw [if_neg (by omega), if_pos h]
  · rw [if_pos (by omega), if_neg h]

theorem State.offRatio_iff (s : State) (l : Load) : l.offRatio (s.fraction l) (s.tolerance l) = true ↔ s.endsOffRatio l := by
  rw [Load.offRatio, State.endsOffRatio, Load.achievedFraction_eq]
  cases l.endFraction with
  | none => simp
  | some a => simp

theorem Load.teaches_iff (l : Load) (r : EndReason) : l.teaches r = true ↔ r = .complete ∧ l.flags.finishCut = false := by
  simp [Load.teaches]

theorem State.overrunTooHigh_iff (s : State) (n : ArmId) (l : Load) (r : EndReason) :
    l.overrunTooHigh r (s.armCfg n).overrunLimit = true ↔ s.endsHigh n l r := by
  rw [Load.overrunTooHigh, Bool.and_eq_true, Load.teaches_iff, decide_eq_true_eq, State.endsHigh, Load.overrunError,
    Load.totalGross, and_assoc]
  push_cast
  exact Iff.rfl

/-- The record as an end completes it (R25 to R27). -/
def State.completedRecord (s : State) (n : ArmId) (l : Load) (r : EndReason) : Load :=
  l.completed r (s.fraction l) (s.tolerance l) (s.armCfg n).overrunLimit

theorem State.completedRecord_eq (s : State) (n : ArmId) (l : Load) (r : EndReason) : s.completedRecord n l r = { l with
    state := .ended, phase := none, upgradePending := none, abortTaken := none, holdTimer := none
    endReason := some r, achieved := l.endFraction
    overrun := if r = .complete then some ((l.gasGross : Int) + l.ethGross - 1000 * l.preset) else none
    flags := (s.completedRecord n l r).flags } := by
  have hsum : l.overrunError = (l.gasGross : Int) + l.ethGross - 1000 * l.preset := by
    rw [Load.overrunError, Load.totalGross]
    push_cast
    rfl
  rw [State.completedRecord, Load.completed, Load.achievedFraction_eq, hsum]

/-! ## The attention count (R1) -/

theorem State.attention_eq (s : State) : s.attention = s.loads.countP fun l => l.state == .ended := by
  rw [State.attention, List.countP_eq_length_filter]

theorem State.attention_of_cores (h : t.loads.map Load.core = s.loads.map Load.core) : t.attention = s.attention := by
  have hcount (u : State) : u.attention = (u.loads.map Load.core).countP fun l => l.state == .ended := by
    rw [State.attention_eq, List.countP_map]
    rfl
  rw [hcount, h, ← hcount]

/-- One record that ends adds one. -/
theorem countP_completed {ks : List Load} {p : Load → Bool} {f : Load → Load} (hf : ∀ k, (f k).state = .ended)
    (hp : ∀ k, p k = true → k.state ≠ .ended) :
    (ks.map fun k => if p k = true then f k else k).countP (fun l => l.state == .ended) =
      ks.countP (fun l => l.state == .ended) + ks.countP p := by
  induction ks with
  | nil => rfl
  | cons k rest ih =>
    rw [List.map_cons, List.countP_cons, List.countP_cons, List.countP_cons, ih]
    by_cases hk : p k = true
    · have hne : (k.state == .ended) = false := beq_eq_false_iff_ne.mpr (hp k hk)
      simp [hk, hf, hne]
      omega
    · simp [hk]
      omega

theorem State.ListsOk.countP_active (h : s.ListsOk) (hl : s.active n = some l) :
    s.loads.countP (fun k => k.arm == n && k.isActive) = 1 := by
  have hle := h.oneActive n
  rw [State.armList, List.filter_filter] at hle
  have hpos : 0 < s.loads.countP fun k => k.arm == n && k.isActive :=
    List.countP_pos_iff.mpr ⟨l, State.active_mem hl, by
      rw [State.active_arm hl, State.active_isActive hl]
      simp⟩
  rw [List.countP_eq_length_filter] at hpos ⊢
  have hswap : (s.loads.filter fun k => k.isActive && k.arm == n) = s.loads.filter fun k => k.arm == n && k.isActive :=
    List.filter_congr fun k _ => Bool.and_comm _ _
  rw [hswap] at hle
  omega

theorem State.endDetections_attention (h : s.ListsOk) (hl : s.active n = some l) (r : EndReason) :
    (s.endDetections n l r).attention = s.attention + 1 := by
  rw [State.attention_eq, s.endDetections_loads n l r, State.modActive, State.withLoads_loads, State.attention_eq,
    countP_completed (p := fun k => k.arm == n && k.isActive) (fun _ => by rfl) fun k hk => ?_, h.countP_active hl]
  rw [Bool.and_eq_true, Load.isActive_iff] at hk
  rcases hk.2 with hstate | hstate | hstate <;> rw [hstate] <;> decide

/-! ## Promotion beside it (R8) -/

theorem State.promote_rest (s : State) (n : ArmId) : s.promote n = { s with loads := (s.promote n).loads } := by
  rcases s.promote_cases n with h | ⟨l, -, -, -, h⟩
  · rw [h]
  · rw [h]
    rfl

theorem State.promote_arm (s : State) (n k : ArmId) : (s.promote n).arm k = s.arm k := by rw [s.promote_rest n]; rfl
theorem State.promote_ratio (s : State) (n k : ArmId) : (s.promote n).ratio k = s.ratio k := by rw [s.promote_rest n]; rfl
theorem State.promote_alarm (s : State) (n k : ArmId) : (s.promote n).alarm k = s.alarm k := by rw [s.promote_rest n]; rfl
theorem State.promote_injector (s : State) (n : ArmId) (i : InjId) : (s.promote n).injector i = s.injector i := by
  rw [s.promote_rest n]; rfl

/-- A promotion gives the arm its oldest STAGED record. -/
theorem State.promote_active (hn : (s.loads.map (·.number)).Nodup) (hnone : s.active n = none)
    (hmode : (s.arm n).mode = .available) {k : Load} (hk : s.oldestStaged n = some k) :
    (s.promote n).active n = some k.readied := by
  rw [State.promote_eq, hnone, hmode, hk]
  exact State.readied_active hn hnone hk

theorem State.promote_none (h : (s.arm n).mode ≠ .available ∨ s.oldestStaged n = none) : s.promote n = s := by
  rcases s.promote_cases n with hsame | ⟨l, -, hmode, hl, -⟩
  · exact hsame
  · rcases h with h | h
    · exact absurd hmode h
    · rw [h] at hl
      cases hl

/-- A record but the one promoted. -/
theorem State.promote_load? (hn : (s.loads.map (·.number)).Nodup) {k : Load} (hk : k ∈ s.loads)
    (h : (s.arm n).mode ≠ .available ∨ s.oldestStaged n ≠ some k) : (s.promote n).load? k.number = some k := by
  have hfound : s.load? k.number = some k := find?_key hn hk
  rcases s.promote_cases n with hsame | ⟨l, -, hmode, hl, hready⟩
  · rwa [hsame]
  · have hne : k.number ≠ l.number := fun hkl => by
      have hkey := List.inj_on_of_nodup_map hn hk (State.oldestStaged_spec hl).1 hkl
      rw [hkey] at h
      exact h.elim (fun hno => hno hmode) fun hno => hno hl
    rw [hready, State.readied, State.modLoad_load? fun _ => by rfl, hfound, if_neg hne]

theorem State.promote_attention (hn : (s.loads.map (·.number)).Nodup) (n : ArmId) : (s.promote n).attention = s.attention := by
  rcases s.promote_cases n with hsame | ⟨l, -, -, hl, hready⟩
  · rw [hsame]
  · obtain ⟨hmem, -, hstaged⟩ := State.oldestStaged_spec hl
    rw [hready, State.attention_eq, State.attention_eq, State.readied, State.modLoad, State.withLoads_loads, List.countP_map]
    refine List.countP_congr fun k hk => ?_
    by_cases hkl : k.number = l.number
    · rw [List.inj_on_of_nodup_map hn hk hmem hkl]
      simp [Load.readied, hstaged]
    · simp [hkl]

theorem State.promote_aside (hn : (s.loads.map (·.number)).Nodup) (n : ArmId) : Aside n s (s.promote n) := by
  refine ⟨s.promote_keeps n, fun m hm => ?_, fun m _ => ?_⟩
  · rcases s.promote_cases n with hsame | ⟨l, -, -, hl, hready⟩
    · rw [hsame]
      exact .refl m s
    · rw [hready]
      exact ⟨State.readied_armList_ne hn hl hm, rfl, rfl, rfl, rfl⟩
  · rw [s.promote_rest n]
    rfl

/-! ## The end (R25) -/

theorem State.toEnded_masked (s : State) (n : ArmId) (l : Load) (r : EndReason) {i : InjId}
    (hi : (s.injCfg i).arm = armNumber n) : ((s.toEnded n l r).injector i).mask = true := by
  rw [State.toEnded, State.modRatio_injector, State.modArm_injector]
  exact State.maskArm_masked _ n true hi

section
variable (hn : (s.loads.map (·.number)).Nodup) (hl : s.active n = some l) (r : EndReason)
include hn hl

theorem State.endDetections_load?_self : (s.endDetections n l r).load? l.number = some (s.completedRecord n l r) := by
  have hfound := State.modActive_load? (s := s) (n := n) (f := fun k => s.completedRecord n k r) (fun _ => by rfl) l.number
  rw [State.load?_of_active hn hl, Option.map_some, if_pos (by rw [State.active_arm hl, State.active_isActive hl]; simp)] at hfound
  rw [State.load?, s.endDetections_loads n l r]
  exact hfound

omit hn in
/-- The records beside the active one. -/
theorem State.endDetections_load?_ne (h : s.ListsOk) {k : Load} (hk : k ∈ s.loads) (hne : k.number ≠ l.number) :
    k ∈ (s.endDetections n l r).loads := by
  rw [s.endDetections_loads n l r, State.modActive, State.withLoads_loads]
  refine List.mem_map.mpr ⟨k, hk, if_neg fun hactive => hne ?_⟩
  rw [Bool.and_eq_true, beq_iff_eq] at hactive
  have hsame := h.active_of_mem hk hactive.2
  rw [hactive.1, hl] at hsame
  rw [Option.some.inj hsame]

theorem State.endRecord_aside : Aside n s (s.endRecord n r) := by
  rw [State.endRecord_eq hl]
  exact (s.endDetections_aside n l r).trans (State.promote_aside ((s.endDetections_keeps n l r).numbers hn) n)

theorem State.endRecord_load? (h : s.ListsOk) {k : Load} (hk : k ∈ s.loads) (hne : k.number ≠ l.number)
    (hnot : (s.arm n).mode ≠ .available ∨ s.oldestStaged n ≠ some k) : (s.endRecord n r).load? k.number = some k := by
  rw [State.endRecord_eq hl]
  refine State.promote_load? ((s.endDetections_keeps n l r).numbers hn) (State.endDetections_load?_ne hl r h hk hne) ?_
  rw [s.endDetections_oldestStaged, s.endDetections_arm, s.toEnded_arm]
  exact hnot

omit hn in
/-- What an end touches. -/
theorem State.endRecord_frame : s.endRecord n r = { s with
    loads := (s.endRecord n r).loads, arms := (s.endRecord n r).arms, ratios := (s.endRecord n r).ratios
    injectors := (s.endRecord n r).injectors, alarms := (s.endRecord n r).alarms } := by
  have hended : (s.toEnded n l r).reservations = s.reservations ∧ (s.toEnded n l r).queue = s.queue ∧
      (s.toEnded n l r).meters = s.meters := by
    rw [State.toEnded, State.maskArm_onlyInjectors _ n true]
    exact ⟨rfl, rfl, rfl⟩
  obtain ⟨hresv, hqueue, hmeters⟩ := hended
  obtain ⟨hresv', hqueue', hmeters'⟩ := (s.endDetections_onlyAlarms n l r).fields
  have hrest : (s.endRecord n r).reservations = s.reservations ∧ (s.endRecord n r).queue = s.queue ∧
      (s.endRecord n r).meters = s.meters := by
    rw [State.endRecord_eq hl, State.promote_rest]
    exact ⟨hresv'.trans hresv, hqueue'.trans hqueue, hmeters'.trans hmeters⟩
  obtain ⟨hresv, hqueue, hmeters⟩ := hrest
  have heq := (s.endRecord_keeps n r).eq_of_meters hmeters
  rwa [hresv, hqueue] at heq

theorem State.endRecord_endedAs (h : s.ListsOk) : s.EndedAs (s.endRecord n r) n l r := by
  obtain ⟨e, he⟩ : ∃ e, e = s.endDetections n l r := ⟨_, rfl⟩
  have hkeeps : Keeps s e := he ▸ s.endDetections_keeps n l r
  have hnumbers := hkeeps.numbers hn
  have hself : e.load? l.number = some (s.completedRecord n l r) := he ▸ State.endDetections_load?_self hn hl r
  have harm : e.arm n = (s.toEnded n l r).arm n := he ▸ s.endDetections_arm n l r n
  have hratio : e.ratio n = (s.toEnded n l r).ratio n := he ▸ (s.endDetections_onlyAlarms n l r).ratio n
  have hmode : (e.arm n).mode = (s.arm n).mode := by rw [harm, s.toEnded_arm]
  have hstaged : e.oldestStaged n = s.oldestStaged n := he ▸ s.endDetections_oldestStaged n l r
  have hnone : e.active n = none := he ▸ s.endDetections_active n l r
  have hend : s.endRecord n r = e.promote n := he ▸ State.endRecord_eq hl r
  have hrecord : e.load? l.number = some (s.completedRecord n l r) → (e.promote n).load? l.number =
      some (s.completedRecord n l r) := fun hfound => by
    have hnumber : (s.completedRecord n l r).number = l.number := rfl
    rw [← hnumber]
    refine State.promote_load? hnumbers (List.mem_of_find?_eq_some hfound) (Or.inr fun hold => ?_)
    cases (State.oldestStaged_spec hold).2.2
  rw [hend]
  refine ⟨⟨_, hrecord hself, s.completedRecord_eq n l r, rfl, rfl, ?_, ?_, ?_⟩, ?_, ?_, fun i hi => ?_, fun hr hcut => ?_,
    fun hno => ?_, fun hoff hclass => ?_, fun hhigh hclass => ?_, fun k hk hold => ?_, fun hno => ?_⟩
  · rw [← s.offRatio_iff l, ← Bool.or_eq_true]
    rfl
  · simp [State.completedRecord, Load.completed]
  · rw [← s.overrunTooHigh_iff n l r, ← Bool.or_eq_true]
    rfl
  · rw [State.promote_attention hnumbers, he, State.endDetections_attention h hl]
  · rw [e.promote_arm, e.promote_ratio, harm, hratio, s.toEnded_arm, s.toEnded_ratio]
    exact ⟨rfl, rfl, rfl, rfl⟩
  · rw [e.promote_injector, he, (s.endDetections_onlyAlarms n l r).injector]
    exact s.toEnded_masked n l r hi
  · rw [e.promote_arm, harm, s.toEnded_arm, if_pos ((l.teaches_iff r).mpr ⟨hr, hcut⟩), History.teach, Load.overrunError,
      Load.totalGross]
    push_cast
    rfl
  · have hteach : l.teaches r = false := by
      rw [Bool.eq_false_iff, ne_eq, l.teaches_iff, not_and_or]
      exact hno.imp_right fun hcut hfalse => by rw [hcut] at hfalse; cases hfalse
    rw [e.promote_arm, harm, s.toEnded_arm, hteach]
    rfl
  · rw [e.promote_alarm, he, State.endDetections, (s.offRatio_iff l).mpr hoff, State.detectIf_true]
    exact State.detectIf_latched_mono ((State.detect_detected _ n .offRatio).latched
      (by rwa [(s.toEnded_aside n l r).keeps.classOf])) _ _
  · rw [e.promote_alarm, he, State.endDetections, (s.overrunTooHigh_iff n l r).mpr hhigh, State.detectIf_true]
    refine (State.detect_detected _ n .overrunHigh).latched ?_
    rwa [(State.detectIf_keeps _ _ n _).classOf, (s.toEnded_aside n l r).keeps.classOf]
  · exact State.promote_active hnumbers hnone (hmode.trans hk) (hstaged.trans hold)
  · rw [State.promote_none (by rwa [hmode, hstaged])]
    exact hnone

end

end

end Sys2Proof.Machine
end

section
/-! SUPPORT. The commands that end a record or send it to SETTLE: SETTLE_EXPIRY, HOLD_LIMIT_EXPIRY, FINISH_TIMEOUT and
ABORT LOAD (R17, R19, R93, R101, R121). -/

namespace Sys2Proof.Machine

section
variable {s t u v : State} {n : ArmId} {l : Load} {r : EndReason}

/-! ## An end after other steps of its command -/

/-- An end judged in a state that gives it what `s` gives it. -/
theorem State.EndedAs.of_before (h : u.EndedAs t n l r) (hsettings : u.settings = s.settings)
    (hrecipes : u.recipes = s.recipes) (hattention : u.attention = s.attention)
    (hhistory : (u.arm n).history = (s.arm n).history) (hmode : (u.arm n).mode = (s.arm n).mode)
    (hstaged : u.oldestStaged n = s.oldestStaged n) : s.EndedAs t n l r := by
  have hfraction : u.fraction l = s.fraction l := by rw [State.fraction, State.recipe?, hrecipes]; rfl
  have htolerance : u.tolerance l = s.tolerance l := by rw [State.tolerance, State.recipe?, hrecipes]; rfl
  have hoff : u.endsOffRatio l ↔ s.endsOffRatio l := by rw [State.endsOffRatio, State.endsOffRatio, hfraction, htolerance]
  have hhigh : u.endsHigh n l r ↔ s.endsHigh n l r := by
    rw [State.endsHigh, State.endsHigh, State.armCfg, State.armCfg, hsettings]
  have hclass (k : AlarmKind) : u.classOf k = s.classOf k := by rw [State.classOf, State.classOf, hsettings]
  obtain ⟨l', hload, hrecord, hcut, hheld, hoffRatio, hshort, hover⟩ := h.record
  refine ⟨⟨l', hload, hrecord, hcut, hheld, hoffRatio.trans (or_congr_right hoff), hshort,
    hover.trans (or_congr_right hhigh)⟩, by rw [h.attention, hattention], h.closed, fun i hi => h.masked i ?_,
    fun hr hno => ?_, fun hno => (h.untaught hno).trans hhistory, fun ho hc => h.offRatio (hoff.mpr ho) (by rwa [hclass]),
    fun ho hc => h.high (hhigh.mpr ho) (by rwa [hclass]), fun k hk hs => h.promoted k (hmode.trans hk) (hstaged.trans hs),
    fun hno => h.unpromoted ?_⟩
  · rw [State.injCfg, hsettings]
    exact hi
  · rw [← hhistory]
    exact h.taught hr hno
  · rwa [hmode, hstaged]

theorem State.EndedAs.withLink (h : s.EndedAs t n l r) (k : Link) : s.EndedAs (t.withLink k) n l r :=
  ⟨h.record, h.attention, h.closed, h.masked, h.taught, h.untaught, h.offRatio, h.high, h.promoted, h.unpromoted⟩

/-- The state in which a command ends the record of the arm: the time, the link and the arm's settle timer may have
moved. -/
structure EndsFrom (s v : State) (n : ArmId) : Prop where
  frame : v = { s with now := v.now, link := v.link, arms := v.arms }
  others : ∀ m, m ≠ n → v.arm m = s.arm m
  history : (v.arm n).history = (s.arm n).history
  mode : (v.arm n).mode = (s.arm n).mode

theorem EndsFrom.loads (h : EndsFrom s v n) : v.loads = s.loads := by rw [h.frame]

theorem EndsFrom.lists (h : EndsFrom s v n) (hs : s.ListsOk) : v.ListsOk := (Placed.of_loads h.loads).lists hs

/-- What a command that ends a record leaves. -/
structure EndsCleanly (s t : State) (n : ArmId) (l : Load) (r : EndReason) : Prop where
  ended : s.EndedAs t n l r
  others : ∀ m : ArmId, m ≠ n → t.arm m = s.arm m ∧ t.armList m = s.armList m ∧ t.alarm m = s.alarm m
  records : ∀ k ∈ s.loads, k.number ≠ l.number → (s.arm n).mode ≠ .available ∨ s.oldestStaged n ≠ some k →
    t.load? k.number = some k
  numbers : t.loads.map (·.number) = s.loads.map (·.number)
  frame : t = { s with
    now := t.now, link := t.link, loads := t.loads, arms := t.arms, ratios := t.ratios, injectors := t.injectors
    alarms := t.alarms }

theorem EndsFrom.endRecord (h : EndsFrom s v n) (hs : s.DeliveryOk) (hl : s.active n = some l) (r : EndReason) :
    EndsCleanly s (v.endRecord n r) n l r := by
  have hloads := h.loads
  have hactive : v.active n = some l := by rw [State.active, hloads]; exact hl
  have hn : (v.loads.map (·.number)).Nodup := by rw [hloads]; exact hs.tables.loadNumbers
  have hlists := h.lists hs.lists
  have hstaged : v.oldestStaged n = s.oldestStaged n := by rw [State.oldestStaged, hloads]; rfl
  have haside := State.endRecord_aside hn hactive r
  refine ⟨(State.endRecord_endedAs hn hactive r hlists).of_before ?_ ?_ ?_ h.history h.mode hstaged, fun m hm => ⟨?_, ?_, ?_⟩,
    fun k hk hne hnot => State.endRecord_load? hn hactive r hlists (hloads ▸ hk) hne (by rwa [h.mode, hstaged]), ?_, ?_⟩
  · rw [h.frame]
  · rw [h.frame]
  · rw [State.attention, hloads, State.attention]
  · rw [(haside.others m hm).arm, h.others m hm]
  · rw [(haside.others m hm).list, State.armList, hloads, State.armList]
  · rw [haside.alarms m hm, h.frame]
    rfl
  · have hnumber (u : State) : u.loads.map (·.number) = (u.loads.map Load.key).map (·.1) := by
      rw [List.map_map]
      rfl
    rw [hnumber, haside.keeps.keys, ← hnumber, hloads]
  · have hframe := State.endRecord_frame hactive r
    obtain ⟨x, hx⟩ : ∃ x, x = v.endRecord n r := ⟨_, rfl⟩
    rw [← hx] at hframe ⊢
    have hnow : x.now = v.now := by rw [hframe]
    have hlink : x.link = v.link := by rw [hframe]
    have hback := h.frame
    rw [hnow, hlink]
    rw [hback] at hframe
    exact hframe

theorem EndsCleanly.withLink (h : EndsCleanly s t n l r) (k : Link) : EndsCleanly s (t.withLink k) n l r where
  ended := h.ended.withLink k
  others := h.others
  records := h.records
  numbers := h.numbers
  frame := by
    have heq := congrArg (State.withLink · k) h.frame
    exact heq

/-! ## SETTLE_EXPIRY and HOLD_LIMIT_EXPIRY (R17, R93) -/

theorem State.settleOver_iff (hl : s.active n = some l) : s.settleOver n = true ↔
    l.deliveringPhase = some .settle ∧ (s.arm n).settle = .expired ∧ ∀ e ∈ l.entries, s.injectorDone l e = true := by
  rw [State.settleOver, hl]
  simp only [Bool.and_eq_true, decide_eq_true_eq, beq_iff_eq, List.all_eq_true, and_assoc]

theorem State.endSettleIfOver_over (hl : s.active n = some l) (h : s.settleOver n = true) : s.endSettleIfOver n =
    s.endRecord n (if l.abortTaken = some true then .aborted else .complete) := by
  rw [State.endSettleIfOver, if_pos h, hl]
  rfl

theorem State.endSettleIfOver_not (h : s.settleOver n ≠ true) : s.endSettleIfOver n = s := if_neg h

theorem exec_settleExpiry {due : Nat} (h : (s.arm n).settle = .running due) : exec (.settleExpiry n) s =
    .next (((s.reach due).modArm n fun a => { a with settle := .expired }).endSettleIfOver n) := by
  show execSettleExpiry n s = _
  rw [execSettleExpiry, h]

theorem State.settleExpired_endsFrom (s : State) (due : Nat) (n : ArmId) :
    EndsFrom s ((s.reach due).modArm n fun a => { a with settle := .expired }) n where
  frame := rfl
  others m hm := by
    rw [State.modArm_arm, if_neg hm]
    rfl
  history := by rw [State.modArm_arm_self]; rfl
  mode := by rw [State.modArm_arm_self]; rfl

theorem exec_holdLimitExpiry {due : Nat} (hload : s.load? l.number = some l) (hstate : l.state = .held)
    (htimer : l.holdTimer = some due) : exec (.holdLimitExpiry l.number) s =
    .next ((s.reach due).endRecord l.arm .holdExpired) := by
  show execHoldLimitExpiry l.number s = _
  rw [execHoldLimitExpiry, hload]
  dsimp only
  rw [hstate, htimer]

/-! ## ABORT LOAD (R19) -/

theorem exec_abortLoad_refused (hs : s.Accepts) {p : List Byte} (hp : p.length = 2) {x : Result}
    (h : (s.receiveGood false).answerAbort p = .refuse (s.receiveGood false) x) :
    exec (.abortLoad p) s = .next (s.refusedAs 0x15 x) :=
  congrArg Host.Outcome.next (State.takeRequest_forLoad hs hp h)

theorem State.answerAbort_aborts {p : List Byte} (hne : fieldAt p 0 2 ≠ 0) (hload : s.load? (fieldAt p 0 2) = some l)
    (hstate : l.state = .delivering ∨ l.state = .held) : s.answerAbort p = .okState (s.abort l.arm) l.number := by
  rw [State.answerAbort, State.forLoad_found hne hload]
  rcases hstate with h | h <;> rw [h]

/-- An ABORT taken, with the record as it leaves it. -/
theorem exec_abortLoad (hs : s.Accepts) {p : List Byte} (hp : p.length = 2) (hload : s.load? l.number = some l)
    (harm : l.arm = n) (hstate : l.state = .delivering ∨ l.state = .held) (hnumber : fieldAt p 0 2 = l.number)
    (hne : l.number ≠ 0) (habort : (s.withLink (s.linkReceived false)).abort n = t) {l' : Load}
    (hl' : t.load? l.number = some l') (hsame : l'.number = l.number) {b : List Byte}
    (hbytes : byte1 l'.state.code ++ byte1 (phaseCode l'.deliveringPhase) = b) :
    exec (.abortLoad p) s = .next (t.withLink (s.linkAnswered 0x15 .ok (be16 l.number ++ b))) := by
  let u := s.withLink (s.linkReceived false)
  have hanswer : u.answerAbort p = .okState t l.number := by
    rw [State.answerAbort_aborts (s := u) (by rw [hnumber]; exact hne) (by rw [hnumber]; exact hload) hstate, harm,
      show u.abort n = t from habort]
  have hlink : t.link = s.linkReceived false := by
    rw [← habort]
    exact (u.abort_keeps n).link
  rw [← hsame] at hanswer hl' ⊢
  rw [← hbytes, ← List.append_assoc]
  exact congrArg Host.Outcome.next (State.takeRequest_okState hs hp hanswer hlink hl')

theorem State.abort_none (h : s.phase n = none) : s.abort n = s.endRecord n .aborted := by rw [State.abort, h]

/-- The state and phase bytes of a record that ended. -/
theorem ended_bytes {l' : Load} (hstate : l'.state = .ended) :
    byte1 l'.state.code ++ byte1 (phaseCode l'.deliveringPhase) = [5, 0] := by
  rw [Load.deliveringPhase_none (by rw [hstate]; decide), hstate]
  rfl

/-- Settles O33. -/
theorem recordsEndWithTheirReason : Obligations.RecordsEndWithTheirReason := by
  refine ⟨fun c p n l r due s hs hl hc => ?_, fun n l e due s hl hphase hsettle he hdone => ?_⟩
  · have hload := hs.active_load hl
    obtain ⟨t, hexec, hend, hnow, hlink⟩ : ∃ t, exec c s = .next t ∧ EndsCleanly s t n l r ∧ t.now = max s.now due ∧
        (c = .abortLoad p → t.link = s.linkAnswered 0x15 .ok (be16 l.number ++ [5, 0])) := by
      rcases hc with ⟨rfl, hphase, hsettle, hdone, rfl⟩ | ⟨rfl, hstate, htimer, rfl⟩ |
        ⟨rfl, hstate, haccepts, hp, hnumber, hne, rfl, rfl⟩
      · let v := (s.reach due).modArm n fun a => { a with settle := .expired }
        have hover : v.settleOver n = true := (State.settleOver_iff (s := v) hl).mpr
          ⟨(State.phase_eq hl).symm.trans hphase, by rw [State.modArm_arm_self], hdone⟩
        refine ⟨_, (exec_settleExpiry hsettle).trans (congrArg Host.Outcome.next
          (State.endSettleIfOver_over (s := v) hl hover)), (s.settleExpired_endsFrom due n).endRecord hs hl _,
          (v.endRecord_keeps n _).now, nofun⟩
      · have hexec := exec_holdLimitExpiry hload hstate htimer
        rw [State.active_arm hl] at hexec
        have hfrom : EndsFrom s (s.reach due) n := ⟨rfl, fun _ _ => rfl, rfl, rfl⟩
        exact ⟨_, hexec, hfrom.endRecord hs hl _, ((s.reach due).endRecord_keeps n _).now, nofun⟩
      · let v := s.withLink (s.linkReceived false)
        have hfrom : EndsFrom s v n := ⟨rfl, fun _ _ => rfl, rfl, rfl⟩
        have hend := hfrom.endRecord hs hl .aborted
        have hphase : v.phase n = none := by
          rw [State.phase_eq (s := v) hl, Load.deliveringPhase_none (by rw [hstate]; decide)]
        obtain ⟨l', hfound, hrecord, -⟩ := hend.ended.record
        exact ⟨_, exec_abortLoad haccepts hp hload (State.active_arm hl) (Or.inr hstate) hnumber hne
          (State.abort_none (s := v) hphase) hfound (by rw [hrecord]) (ended_bytes (by rw [hrecord])), hend.withLink _,
          (v.endRecord_keeps n .aborted).now.trans (max_self s.now).symm, fun _ => rfl⟩
    exact ⟨t, hexec, hend.ended, hnow, hlink, hend.others, hend.records, hend.numbers, hend.frame⟩
  · have hnot : ((s.reach due).modArm n fun a => { a with settle := .expired }).settleOver n ≠ true := fun hover => by
      obtain ⟨-, -, hall⟩ := (State.settleOver_iff (s := (s.reach due).modArm n fun a => { a with settle := .expired })
        hl).mp hover
      exact absurd (hall e he) (ne_true_of_eq_false hdone)
    exact (exec_settleExpiry hsettle).trans (congrArg Host.Outcome.next (State.endSettleIfOver_not hnot))

end

end Sys2Proof.Machine
end

section
/-! SUPPORT. The entries to SETTLE and their end strokes: FINISH_TIMEOUT and ABORT LOAD (R19, R92, R101, R121, R156). -/

namespace Sys2Proof.Machine

section
variable {s t u v : State} {n : ArmId} {l : Load}

/-! ## Entries but for the strokes issued (R150, R156) -/

def AddEntry.unissued (e : AddEntry) : AddEntry := { e with issued := 0 }

def Load.unissued (l : Load) : Load := { l with entries := l.entries.map AddEntry.unissued }

theorem Load.entryOf_map_entries (l : Load) {g : AddEntry → AddEntry} (hg : ∀ e, (g e).injector = e.injector) (i : InjId) :
    Load.entryOf { l with entries := l.entries.map g } i = (l.entryOf i).map g :=
  find?_map_of_iff fun e _ => by rw [hg]

theorem Load.unissued_modEntry (l : Load) (i : InjId) {f : AddEntry → AddEntry} (hf : ∀ e, (f e).unissued = e.unissued) :
    (l.modEntry i f).unissued = l.unissued := by
  have hentries : (l.entries.map fun e => if e.injector == i then f e else e).map AddEntry.unissued =
      l.entries.map AddEntry.unissued := by
    rw [List.map_map]
    refine List.map_congr_left fun e _ => ?_
    simp only [Function.comp_apply, apply_ite AddEntry.unissued, hf, ite_self]
  rw [Load.unissued, Load.modEntry, hentries, Load.unissued]

theorem State.tryIssue_unissued (s : State) (n : ArmId) (i : InjId) :
    ((s.tryIssue n i).active n).map Load.unissued = (s.active n).map Load.unissued := by
  rw [State.tryIssue]
  split
  · rfl
  · split
    · rfl
    · split
      · refine (congrArg _ (State.modActive_active_self (fun _ => by rfl) fun _ h => by exact h)).trans ?_
        rw [Option.map_map]
        congr 1
        funext k
        exact k.unissued_modEntry i fun _ => rfl
      · rfl

/-- An issue leaves every entry but for its strokes issued. -/
theorem State.issueArm_unissued (s : State) (n : ArmId) :
    ((s.issueArm n).active n).map Load.unissued = (s.active n).map Load.unissued := by
  rw [State.issueArm]
  split
  · rfl
  · rename_i l _
    exact foldl_keeps (P := fun t => (t.active n).map Load.unissued = (s.active n).map Load.unissued)
      (op := fun t e => t.tryIssue n e.injector) (fun t e h => (t.tryIssue_unissued n e.injector).trans h) rfl l.entries

/-- The strokes due as an entry to SETTLE sets them up (R156). -/
def Load.withEndStrokes (l : Load) : Load :=
  { l with entries := l.entries.map fun e => { e with due := max e.due (min u32Max (endStrokes l.totalNet e.interval)) } }

theorem State.setUpEndStrokes_active (s : State) (n : ArmId) :
    (s.setUpEndStrokes n).active n = (s.active n).map Load.withEndStrokes := by
  cases hl : s.active n with
  | none => rw [State.setUpEndStrokes, hl]; exact hl
  | some l =>
    have hfold : OnlyInjectors s (l.entries.foldl (fun s e => s.modInjector e.injector fun j => { j with endIssued := 0 }) s) :=
      OnlyInjectors.foldl _ (fun s _ => s.modInjector_onlyInjectors _ _) s l.entries
    rw [State.setUpEndStrokes, hl]
    dsimp only
    refine (State.modActive_active_self (f := Load.withEndStrokes) (fun _ => rfl) fun _ h => h).trans ?_
    rw [hfold.active n, hl]

/-- With abort taken no, an entry to SETTLE sets up the end strokes; it may then issue some. -/
theorem State.enterSettle_endStrokes (hl : s.active n = some l) (habort : l.abortTaken = some false) :
    ∃ l', (s.enterSettle State.examine n).active n = some l' ∧ l'.unissued = l.settled.withEndStrokes.unissued := by
  have hcond : (s.active n).bind (·.abortTaken) = some false := by rw [hl]; exact habort
  have hactive : ((s.toSettle n).setUpEndStrokes n).active n = some l.settled.withEndStrokes := by
    rw [State.setUpEndStrokes_active, s.toSettle_active n, hl]
    rfl
  have hissued := State.issueArm_unissued ((s.toSettle n).setUpEndStrokes n) n
  rw [hactive, Option.map_some] at hissued
  obtain ⟨l', hl', hsame⟩ := Option.map_eq_some_iff.mp hissued
  rw [State.enterSettle_eq, State.releaseThen_active, State.toEndStrokes, if_pos hcond]
  exact ⟨l', hl', hsame⟩

/-- Under an abort no stroke is set up or issued: the record is as it was but for its phase (R101). -/
theorem State.enterSettle_aborted (hl : s.active n = some l) (habort : l.abortTaken = some true) :
    (s.enterSettle State.examine n).active n = some l.settled := by
  have hcond : (s.active n).bind (·.abortTaken) ≠ some false := by
    rw [hl, Option.bind_some, habort]
    decide
  rw [State.enterSettle_eq, State.releaseThen_active, State.toEndStrokes, if_neg hcond, s.toSettle_active n, hl]
  rfl

/-- The end strokes of an entry (R156). -/
theorem Load.withEndStrokes_entryOf {l' : Load} (h : l'.unissued = l.settled.withEndStrokes.unissued) {i : InjId} {e : AddEntry}
    (he : l.entryOf i = some e) : ∃ e', l'.entryOf i = some e' ∧
      e'.due = max e.due (min u32Max (endStrokes l.totalNet e.interval)) := by
  have hentry := congrArg (Load.entryOf · i) h
  simp only [Load.unissued] at hentry
  rw [Load.entryOf_map_entries _ (fun _ => by rfl), Load.entryOf_map_entries _ (fun _ => by rfl), Load.withEndStrokes,
    Load.entryOf_map_entries _ (fun _ => by rfl), show l.settled.entryOf i = some e from he] at hentry
  obtain ⟨e', he', hsame⟩ := Option.map_eq_some_iff.mp hentry
  exact ⟨e', he', congrArg AddEntry.due hsame⟩

theorem exec_finishTimeout {due : Nat} (hphase : s.phase n = some .finish) (htimer : (s.ratio n).finishTimer = some due) :
    exec (.finishTimeout n) s =
      .next (((s.reach due).modRatio n fun r => { r with finishTimer := none }).enterSettle State.examine n) := by
  show execFinishTimeout n s = _
  rw [execFinishTimeout, htimer]
  dsimp only
  rw [if_pos hphase]

/-- Settles O34. -/
theorem finishTimesOut : Obligations.FinishTimesOut := by
  intro n l due s hl hphase htimer
  let v := (s.reach due).modRatio n fun r => { r with finishTimer := none }
  obtain ⟨k, hk, hstate, -⟩ := State.phase_eq_some.mp hphase
  rw [hl] at hk
  cases hk
  have hmoves := (v.enterSettle_roams n).movesOnly
  obtain ⟨l', hl', hstill⟩ := State.enterSettle_active (s := v) (n := n) hl
  have hrecord := Load.eq_of_still hstill
  refine ⟨_, l', exec_finishTimeout hphase htimer, hmoves.keeps.now, hl', by rw [hrecord]; rfl, by rw [hrecord]; exact hstate,
    by rw [hrecord]; rfl, by rw [hrecord]; rfl, by rw [hrecord]; rfl, by rw [hrecord]; rfl, by rw [hrecord]; rfl,
    by rw [hrecord]; rfl, by rw [hrecord]; rfl, by rw [hrecord]; rfl, v.enterSettle_ratio n, ?_, ?_, ?_, ?_, ?_,
    fun habort i e he => ?_, ?_⟩
  · rw [State.enterSettle_resv]
  · rw [State.enterSettle_resv]
  · rw [State.enterSettle_arm]
  · rw [State.enterSettle_arm]
  · rw [State.enterSettle_arm]
    rfl
  · obtain ⟨k, hk, hstrokes⟩ := State.enterSettle_endStrokes (s := v) hl habort
    rw [hl'] at hk
    cases hk
    exact Load.withEndStrokes_entryOf hstrokes he
  · rw [hmoves.keeps.now]
    exact hmoves.eq

/-! ## ABORT LOAD by the phase (R19, R101) -/

/-- A record under an abort. -/
def Load.aborting (l : Load) : Load := { l with abortTaken := some true }

theorem State.setAbort_active (hl : s.active n = some l) : (s.setAbort n).active n = some l.aborting := by
  refine (State.modActive_active_self (f := Load.aborting) (fun _ => rfl) fun _ h => h).trans ?_
  rw [hl]
  rfl

theorem State.setAbort_movesOnly (s : State) (n : ArmId) : MovesOnly s (s.setAbort n) := ⟨s.setAbort_keeps n, rfl, rfl⟩

theorem State.abort_blending (h : blendingPhase (s.phase n) = true) :
    s.abort n = (s.setAbort n).enterSettle State.examine n := by
  rw [State.abort]
  cases hp : s.phase n with
  | none => rw [hp] at h; cases h
  | some p =>
    rw [hp] at h
    cases p with
    | low | high | taper | finish => rfl
    | headerWait | settle => cases h

theorem State.abort_settle (h : s.phase n = some .settle) : s.abort n = s.setAbort n := by rw [State.abort, h]

theorem State.abort_headerWait (h : s.phase n = some .headerWait) :
    s.abort n = (s.releaseThen State.examine n).endRecord n .aborted := by rw [State.abort, h]

/-- The state and phase bytes of a record in SETTLE. -/
theorem settle_bytes {k : Load} (hstate : k.state = .delivering) (hphase : k.phase = some .settle) :
    byte1 k.state.code ++ byte1 (phaseCode k.deliveringPhase) = [3, 6] := by
  rw [Load.deliveringPhase_delivering hstate, hstate, hphase]
  rfl

theorem State.answerAbort_wrongState {p : List Byte} (hne : fieldAt p 0 2 ≠ 0) (hload : s.load? (fieldAt p 0 2) = some l)
    (hstate : l.state = .staged ∨ l.state = .ready ∨ l.state = .ended) : s.answerAbort p = .refuse s .wrongState := by
  rw [State.answerAbort, State.forLoad_found hne hload]
  rcases hstate with h | h | h <;> rw [h]

/-- The record of a release that ends: its request gone, the end as it was judged before. -/
theorem State.DeliveryOk.release_ended (hs : s.DeliveryOk) (hl : s.active n = some l) :
    s.EndedAs ((s.releaseThen State.examine n).endRecord n .aborted) n l .aborted := by
  have hroams := s.releaseThen_roams n
  have hsame := s.releaseThen_sameAt n
  have hactive := (s.releaseThen_active n).trans hl
  have hstaged : (s.releaseThen State.examine n).oldestStaged n = s.oldestStaged n := by
    have hfind (u : State) : u.oldestStaged n = (u.armList n).find? fun l => l.state == .staged := by
      rw [State.armList, List.find?_filter, State.oldestStaged]
      congr 1
      funext k
      rw [Bool.decide_and, Bool.decide_eq_true, Bool.decide_eq_true]
    rw [hfind, hsame.list, ← hfind]
    rfl
  exact (State.endRecord_endedAs (hroams.keeps.numbers hs.tables.loadNumbers) hactive .aborted
    (hroams.placed.lists hs.lists)).of_before hroams.keeps.settings hroams.keeps.recipes
    (State.attention_of_cores hroams.loads) (by rw [s.releaseThen_arm n]) (by rw [s.releaseThen_arm n]) hstaged

theorem State.endRecord_meters (s : State) (n : ArmId) (r : EndReason) : (s.endRecord n r).meters = s.meters := by
  cases hl : s.active n with
  | none => rw [State.endRecord_none hl]
  | some l => rw [State.endRecord_frame hl]

theorem State.endRecord_queue (s : State) (n : ArmId) (r : EndReason) : (s.endRecord n r).queue = s.queue := by
  cases hl : s.active n with
  | none => rw [State.endRecord_none hl]
  | some l => rw [State.endRecord_frame hl]

/-- Settles O35. -/
theorem abortSendsTheRecordToSettle : Obligations.AbortSendsTheRecordToSettle := by
  refine ⟨fun p n l s hs hl haccepts hp hnumber hne => ?_, fun p l s haccepts hp => ⟨fun hzero => ?_, fun hne hnone => ?_,
    fun hne hload hstate => ?_⟩⟩
  · have hload := hs.active_load hl
    have hn := hs.tables.loadNumbers
    let v := s.withLink (s.linkReceived false)
    have harm := State.active_arm hl
    refine ⟨fun hblend => ?_, fun hsettle => ?_, fun hwait => ?_⟩
    · have hstate : l.state = .delivering := by
        rw [State.phase_eq hl] at hblend
        by_contra hno
        rw [Load.deliveringPhase_none hno] at hblend
        cases hblend
      have habort : v.abort n = (v.setAbort n).enterSettle State.examine n := State.abort_blending hblend
      have hactive := State.enterSettle_aborted (State.setAbort_active (s := v) hl) rfl
      have hmoves : MovesOnly v ((v.setAbort n).enterSettle State.examine n) :=
        (v.setAbort_movesOnly n).trans (State.enterSettle_roams _ n).movesOnly
      have hexec := exec_abortLoad haccepts hp hload harm (Or.inl hstate) hnumber hne habort
        (l' := l.aborting.settled) (State.load?_of_active (hmoves.keeps.numbers hn) hactive) rfl
        (settle_bytes (k := l.aborting.settled) hstate rfl)
      refine ⟨_, hexec, hactive, ?_, ?_, State.enterSettle_ratio _ n, ?_, ?_, rfl, ?_⟩
      · exact congrArg ArmSeq.valve (State.enterSettle_arm (v.setAbort n) n)
      · exact congrArg ArmSeq.settle (State.enterSettle_arm (v.setAbort n) n)
      · exact congrArg Reservation.level (State.enterSettle_resv (v.setAbort n) n)
      · exact congrArg Reservation.amount (State.enterSettle_resv (v.setAbort n) n)
      · have heq := congrArg (State.withLink · (s.linkAnswered 0x15 .ok (be16 l.number ++ [3, 6]))) hmoves.eq
        exact heq
    · obtain ⟨k, hk, hstate, hphase⟩ := State.phase_eq_some.mp hsettle
      rw [hl] at hk
      cases hk
      have habort : v.abort n = v.setAbort n := State.abort_settle hsettle
      have hactive := State.setAbort_active (s := v) hl
      have hexec := exec_abortLoad haccepts hp hload harm (Or.inl hstate) hnumber hne habort
        (l' := l.aborting) (State.load?_of_active ((v.setAbort_keeps n).numbers hn) hactive) rfl
        (settle_bytes (k := l.aborting) hstate hphase)
      exact ⟨_, hexec, hactive, fun m hm => State.modActive_armList_ne (s := v) (fun _ => by rfl) hm, rfl⟩
    · obtain ⟨k, hk, hstate, -⟩ := State.phase_eq_some.mp hwait
      rw [hl] at hk
      cases hk
      have habort : v.abort n = (v.releaseThen State.examine n).endRecord n .aborted := State.abort_headerWait hwait
      have hvok : v.DeliveryOk := ((hs.sound (H := False) False.elim).withLink _).delivery
      have hend := hvok.release_ended (n := n) hl
      obtain ⟨l', hfound, hrecord, -⟩ := hend.record
      have hexec := exec_abortLoad haccepts hp hload harm (Or.inl hstate) hnumber hne habort hfound (by rw [hrecord])
        (ended_bytes (by rw [hrecord]))
      have hkeeps := (v.releaseThen_roams n).keeps.trans (State.endRecord_keeps _ n .aborted)
      refine ⟨_, hexec, (hend.of_before (s := s) rfl rfl rfl rfl rfl rfl).withLink _, fun r hr => ?_, rfl, ?_⟩
      · rw [State.withLink_queue, State.endRecord_queue] at hr
        exact v.releaseThen_notQueued n r hr
      · have hmeters := (State.endRecord_meters (v.releaseThen State.examine n) n .aborted).trans
          (v.releaseThen_roams n).meters
        have heq := congrArg (State.withLink · (s.linkAnswered 0x15 .ok (be16 l.number ++ [5, 0])))
          (hkeeps.eq_of_meters hmeters)
        exact heq
  · exact exec_abortLoad_refused haccepts hp (State.forLoad_badField hzero)
  · exact exec_abortLoad_refused haccepts hp (State.forLoad_notFound hne hnone)
  · exact exec_abortLoad_refused haccepts hp (State.answerAbort_wrongState hne hload hstate)

end

end Sys2Proof.Machine
end

section
/-! SUPPORT. The judgement of a stroke and what follows it at the arm (R152, R157, R158, R93). -/

namespace Sys2Proof.Machine

section
variable {s t u : State} {n : ArmId} {i j : InjId} {l : Load}

/-! ## Accounts of strokes -/

/-- A record's number and its entries but for the strokes issued. -/
def Load.account (l : Load) : Nat × List AddEntry := (l.number, l.entries.map AddEntry.unissued)

/-- Every record's account is as it was. -/
def SameAccounts (s t : State) : Prop := t.loads.map Load.account = s.loads.map Load.account

theorem SameAccounts.trans (h : SameAccounts s t) (k : SameAccounts t u) : SameAccounts s u := Eq.trans k h

theorem SameAccounts.of_loads (h : t.loads = s.loads) : SameAccounts s t := congrArg _ h

/-- A record of the table changed. -/
theorem SameAccounts.of_map {p : Load → Bool} {f : Load → Load} (hf : ∀ l, (f l).account = l.account)
    (h : t.loads = s.loads.map fun l => if p l = true then f l else l) : SameAccounts s t := by
  rw [SameAccounts, h, List.map_map]
  refine List.map_congr_left fun l _ => ?_
  simp only [Function.comp_apply, apply_ite Load.account, hf, ite_self]

theorem SameAccounts.entry (h : SameAccounts s t) {k : Nat} (hl : s.load? k = some l) {e : AddEntry}
    (he : l.entryOf i = some e) :
    ∃ l' e', t.load? k = some l' ∧ l'.entryOf i = some e' ∧ e'.unissued = e.unissued := by
  have hfind (u : State) : (u.load? k).map Load.account = (u.loads.map Load.account).find? fun a => a.1 == k := by
    rw [List.find?_map]
    rfl
  have hload := hfind t
  rw [h, ← hfind s, hl, Option.map_some] at hload
  obtain ⟨l', hl', haccount⟩ := Option.map_eq_some_iff.mp hload
  have hentries : l'.entries.map AddEntry.unissued = l.entries.map AddEntry.unissued := congrArg Prod.snd haccount
  have hentry (x : Load) : (x.entryOf i).map AddEntry.unissued =
      (x.entries.map AddEntry.unissued).find? fun e => e.injector == i := by
    rw [List.find?_map]
    rfl
  have hsame := hentry l'
  rw [hentries, ← hentry l, he, Option.map_some] at hsame
  obtain ⟨e', he', hunissued⟩ := Option.map_eq_some_iff.mp hsame
  exact ⟨l', e', hl', he', hunissued⟩

theorem Load.account_modEntry (l : Load) (i : InjId) {f : AddEntry → AddEntry} (hf : ∀ e, (f e).unissued = e.unissued) :
    (l.modEntry i f).account = l.account :=
  congrArg (fun x : Load => (x.number, x.entries)) (l.unissued_modEntry i hf)

theorem State.tryIssue_accounts (s : State) (n : ArmId) (i : InjId) : SameAccounts s (s.tryIssue n i) := by
  rw [State.tryIssue]
  split
  · exact .of_loads rfl
  · split
    · exact .of_loads rfl
    · split
      · exact .of_map (f := fun l => l.modEntry i fun e => { e with issued := satAdd u32Max e.issued 1 })
          (fun l => l.account_modEntry i fun _ => rfl) rfl
      · exact .of_loads rfl

theorem State.markShort_accounts (s : State) (n : ArmId) (i : InjId) : SameAccounts s (s.markShort n i) := by
  rw [State.markShort]
  split
  · exact .of_loads rfl
  · split
    · exact .of_loads rfl
    · split
      · exact .of_map (f := fun l => { l with flags := { l.flags with additiveShort := true } }) (fun _ => rfl) rfl
      · exact .of_loads rfl

theorem State.promote_accounts (s : State) (n : ArmId) : SameAccounts s (s.promote n) := by
  rcases s.promote_cases n with h | ⟨l, -, -, -, h⟩
  · exact .of_loads (by rw [h])
  · rw [h]
    exact .of_map (f := Load.readied) (fun _ => rfl) rfl

theorem State.endRecord_accounts (s : State) (n : ArmId) (r : EndReason) : SameAccounts s (s.endRecord n r) := by
  cases hl : s.active n with
  | none => exact .of_loads (by rw [State.endRecord_none hl])
  | some l =>
    rw [State.endRecord_eq hl]
    exact SameAccounts.trans (.of_map (fun _ => by rfl) (s.endDetections_loads n l r)) (State.promote_accounts _ n)

theorem State.endSettleIfOver_accounts (s : State) (n : ArmId) : SameAccounts s (s.endSettleIfOver n) := by
  rw [State.endSettleIfOver]
  split
  · exact s.endRecord_accounts n _
  · exact .of_loads rfl

/-- What follows a judgement leaves the accounts. -/
theorem State.afterJudgement_accounts (s : State) (i : InjId) : SameAccounts s (s.afterJudgement i) := by
  rw [State.afterJudgement]
  split
  · exact ((s.tryIssue_accounts _ i).trans (State.markShort_accounts _ _ i)).trans (State.endSettleIfOver_accounts _ _)
  · exact .of_loads rfl

/-! ## Injectors -/

theorem State.judge_injector (s : State) (i : InjId) : (s.judge i).injector i = (s.injector i).afterJudgement := by
  rw [State.judge]
  refine (State.modInjector_injector_self _ i _).trans ?_
  split <;> rfl

theorem State.judge_injector_ne (s : State) (h : j ≠ i) : (s.judge i).injector j = s.injector j := by
  rw [State.judge]
  refine (State.modInjector_injector _ i j _).trans ((if_neg h).trans ?_)
  split <;> rfl

/-- An injector that may not issue stands still; one that issues is STROKING. -/
theorem State.tryIssue_cases (s : State) (n : ArmId) (i : InjId) : s.tryIssue n i = s ∨
    (s.injector i).state = .idle ∧ (s.injector i).mask = false ∧ ((s.tryIssue n i).injector i).state = .stroking := by
  rw [State.tryIssue]
  split
  · exact Or.inl rfl
  · rename_i l _
    split
    · exact Or.inl rfl
    · rename_i e he
      split
      · rename_i hmay
        have hinj : e.injector = i := by simpa using List.find?_some he
        simp only [State.mayIssue, hinj, Bool.and_eq_true, beq_iff_eq, Bool.not_eq_true'] at hmay
        obtain ⟨⟨⟨hidle, hmask⟩, -⟩, -⟩ := hmay
        refine Or.inr ⟨hidle, hmask, ?_⟩
        rw [State.issueStroke, State.modInjector_injector_self]
      · exact Or.inl rfl

theorem State.markShort_injectors (s : State) (n : ArmId) (i : InjId) : (s.markShort n i).injectors = s.injectors := by
  rw [State.markShort]
  split
  · rfl
  · split
    · rfl
    · split <;> rfl

theorem State.endRecord_injector (s : State) (n : ArmId) (r : EndReason) (j : InjId) :
    (s.endRecord n r).injector j = s.injector j ∨ (s.endRecord n r).injector j = (s.injector j).command true := by
  cases hl : s.active n with
  | none => exact Or.inl (by rw [State.endRecord_none hl])
  | some l =>
    rw [State.endRecord_eq hl, State.promote_injector, (s.endDetections_onlyAlarms n l r).injector, State.toEnded,
      State.modRatio_injector, State.modArm_injector, State.maskArm_injector]
    split
    · exact Or.inr rfl
    · exact Or.inl rfl

theorem State.endSettleIfOver_injector (s : State) (n : ArmId) (j : InjId) :
    (s.endSettleIfOver n).injector j = s.injector j ∨ (s.endSettleIfOver n).injector j = (s.injector j).command true := by
  rw [State.endSettleIfOver]
  split
  · exact s.endRecord_injector n _ j
  · exact Or.inl rfl

theorem Injector.command_masked {x : Injector} (hstate : x.state = .masked) (hmask : x.mask = true) : x.command true = x := by
  cases x
  subst hstate hmask
  rfl

theorem Injector.command_not_verifying {x : Injector} (h : x.state ≠ .verifying) (on : Bool) :
    (x.command on).state ≠ .verifying := by
  unfold Injector.command
  dsimp only
  split
  · decide
  · decide
  · exact h

theorem Injector.afterJudgement_state (x : Injector) :
    x.afterJudgement.state = if x.mask = true then .masked else .idle := rfl

/-- After a judgement and what follows it the injector is not VERIFYING; with its mask on it is MASKED. -/
theorem State.afterJudgement_injector (s : State) (h : (s.injector i).state ≠ .verifying) :
    ((s.afterJudgement i).injector i).state ≠ .verifying ∧
      ((s.injector i).state = .masked → (s.injector i).mask = true → (s.afterJudgement i).injector i = s.injector i) := by
  rw [State.afterJudgement]
  split
  · rename_i n _
    have hmark : ((s.tryIssue n i).markShort n i).injector i = (s.tryIssue n i).injector i := by
      rw [State.injector, State.markShort_injectors]
      rfl
    have hstate : ((s.tryIssue n i).injector i).state ≠ .verifying := by
      rcases s.tryIssue_cases n i with hsame | ⟨-, -, hissued⟩
      · rwa [hsame]
      · rw [hissued]
        decide
    refine ⟨?_, fun hmasked hmask => ?_⟩
    · rcases ((s.tryIssue n i).markShort n i).endSettleIfOver_injector n i with hend | hend
      · rw [hend, hmark]
        exact hstate
      · rw [hend, hmark]
        exact Injector.command_not_verifying hstate true
    · have hsame : s.tryIssue n i = s := by
        rcases s.tryIssue_cases n i with hsame | ⟨hidle, -⟩
        · exact hsame
        · rw [hmasked] at hidle
          cases hidle
      rw [hsame] at hmark ⊢
      rcases (s.markShort n i).endSettleIfOver_injector n i with hend | hend
      · rw [hend, hmark]
      · rw [hend, hmark, Injector.command_masked hmasked hmask]
  · exact ⟨h, fun _ _ => rfl⟩

/-! ## The judgement (R152) -/

/-- The record a judgement of the injector's stroke writes into, if it writes. -/
def Load.judgedBy (l : Load) (s : State) (i : InjId) (k : Stroke) : Load :=
  if k.load = some l.number then l.modEntry i fun e => e.judged (s.injCfg i) (s.injector i).pulses else l

theorem State.judge_loads {k : Stroke} (h : (s.injector i).stroke = some k) :
    (s.judge i).loads = s.loads.map fun l => l.judgedBy s i k := by
  obtain ⟨number | number⟩ := k
  · rw [State.judge, h]
    exact (List.map_id' s.loads).symm
  · rw [State.judge, h]
    refine List.map_congr_left fun l _ => ?_
    by_cases hl : l.number = number
    · simp [Load.judgedBy, hl]
    · simp [Load.judgedBy, hl, Ne.symm hl]

theorem Load.judgedBy_number (l : Load) (s : State) (i : InjId) (k : Stroke) : (l.judgedBy s i k).number = l.number := by
  rw [Load.judgedBy]
  split <;> rfl

theorem State.judge_load? {k : Stroke} (h : (s.injector i).stroke = some k) (number : Nat) :
    (s.judge i).load? number = (s.load? number).map fun l => l.judgedBy s i k := by
  rw [State.load?, State.judge_loads h]
  exact find?_map_of_iff fun l _ => by rw [Load.judgedBy_number]

theorem State.judge_active {k : Stroke} (h : (s.injector i).stroke = some k) (n : ArmId) :
    (s.judge i).active n = (s.active n).map fun l => l.judgedBy s i k := by
  rw [State.active, State.judge_loads h]
  refine find?_map_of_iff fun l _ => ?_
  rw [Load.judgedBy]
  split <;> rfl

theorem Load.entryOf_modEntry (l : Load) {f : AddEntry → AddEntry} (hf : ∀ e, (f e).injector = e.injector) (i j : InjId) :
    (l.modEntry i f).entryOf j = (l.entryOf j).map fun e => if e.injector == i then f e else e :=
  l.entryOf_map_entries (fun e => by rw [apply_ite AddEntry.injector, hf, ite_self]) j

theorem AddEntry.judged_kept (e : AddEntry) (c : InjSettings) (x : Nat) : (e.judged c x).injector = e.injector ∧
    (e.judged c x).due = e.due ∧ (e.judged c x).interval = e.interval ∧ (e.judged c x).code = e.code := by
  rw [AddEntry.judged]
  split <;> exact ⟨rfl, rfl, rfl, rfl⟩

theorem Load.entryOf_injector {e : AddEntry} (h : l.entryOf i = some e) : e.injector = i := by
  simpa using List.find?_some h

/-- The entry as the judgement leaves it. -/
theorem Load.judgedBy_entryOf {k : Stroke} {e : AddEntry} (he : l.entryOf i = some e) :
    (l.judgedBy s i k).entryOf i =
      some (if k.load = some l.number then e.judged (s.injCfg i) (s.injector i).pulses else e) := by
  rw [Load.judgedBy]
  split
  · rw [Load.entryOf_modEntry l (fun e => (e.judged_kept _ _).1), he, Option.map_some, Load.entryOf_injector he,
      if_pos (beq_self_eq_true i)]
  · exact he

theorem exec_verifyTailEnd {due : Nat} (hstate : (s.injector i).state = .verifying)
    (htimer : (s.injector i).timer = some due) :
    exec (.verifyTailEnd i) s = .next (((s.reach due).judge i).afterJudgement i) := by
  show execVerifyTailEnd i s = _
  rw [execVerifyTailEnd, hstate, htimer]

end

end Sys2Proof.Machine
end

section
/-! SUPPORT. What a judgement in SETTLE leaves of the record (R152, R157, R158, R93), and VERIFY_TAIL_END. -/

namespace Sys2Proof.Machine

section
variable {s t u w : State} {n : ArmId} {i j : InjId} {l lw : Load} {e ew : AddEntry}

theorem State.injectorDone_congr {l' : Load} (hinj : t.injector e.injector = s.injector e.injector)
    (hsettings : t.settings = s.settings) (hnumber : l'.number = l.number) (habort : l'.abortTaken = l.abortTaken) :
    t.injectorDone l' e = s.injectorDone l e := by
  rw [State.injectorDone, State.injectorDone, State.outstanding, State.outstanding, State.inFlight, State.inFlight, hinj,
    hnumber, habort, State.injCfg, State.injCfg, hsettings]

/-- The stroke counts behind, with no stroke in flight. -/
theorem State.outstanding_idle (hstroke : (s.injector e.injector).stroke = none) (l : Load) :
    s.outstanding l e = e.due - e.verified := by
  rw [State.outstanding, State.inFlight, hstroke, Nat.sub_zero]

/-- The active record is in SETTLE, its entry's injector without a stroke and MASKED or IDLE by its mask. -/
structure State.Judged (w : State) (n : ArmId) (i : InjId) (lw : Load) (ew : AddEntry) : Prop where
  active : w.active n = some lw
  phase : lw.deliveringPhase = some .settle
  entry : lw.entryOf i = some ew
  state : (w.injector i).state = if (w.injector i).mask = true then .masked else .idle
  stroke : (w.injector i).stroke = none

/-- The injector may issue a stroke of the end strokes (R150, R156). -/
def State.mayIssueEnd (w : State) (i : InjId) (lw : Load) (ew : AddEntry) : Prop :=
  (w.injector i).mask = false ∧ lw.abortTaken = some false ∧ (w.injector i).endIssued < (w.injCfg i).catchUp ∧
    ew.verified < ew.due

section
variable (h : w.Judged n i lw ew)
include h

theorem State.Judged.mayIssue_iff : w.mayIssue lw ew = true ↔ w.mayIssueEnd i lw ew := by
  have hinj := Load.entryOf_injector h.entry
  have hout : w.outstanding lw ew = ew.due - ew.verified := State.outstanding_idle (by rw [hinj]; exact h.stroke) lw
  have hstate : (w.injector i).state = .idle ↔ (w.injector i).mask = false := by
    rw [h.state]
    cases (w.injector i).mask <;> simp
  rw [State.mayIssue, State.phaseAdmits, h.phase, hout, hinj]
  simp only [Bool.and_eq_true, beq_iff_eq, Bool.not_eq_true', decide_eq_true_eq, hstate, State.mayIssueEnd, Nat.sub_pos_iff_lt]
  tauto

/-- The injector is done: idle, and under an abort, with nothing owed, or at the cap of end strokes (R157). -/
theorem State.Judged.done_iff : w.injectorDone lw ew = true ↔ (w.injector i).mask = false ∧
    (lw.abortTaken = some true ∨ ew.due ≤ ew.verified ∨ (w.injCfg i).catchUp ≤ (w.injector i).endIssued) := by
  have hinj := Load.entryOf_injector h.entry
  have hout : w.outstanding lw ew = ew.due - ew.verified := State.outstanding_idle (by rw [hinj]; exact h.stroke) lw
  have hstate : (w.injector i).state = .idle ↔ (w.injector i).mask = false := by
    rw [h.state]
    cases (w.injector i).mask <;> simp
  rw [State.injectorDone, hout, hinj]
  simp only [Bool.and_eq_true, Bool.or_eq_true, beq_iff_eq, decide_eq_true_eq, hstate, Nat.sub_eq_zero_iff_le, or_assoc]

theorem State.Judged.tryIssue_not (hno : ¬ w.mayIssueEnd i lw ew) : w.tryIssue n i = w := by
  rw [State.tryIssue, h.active]
  dsimp only
  rw [h.entry]
  exact if_neg fun hmay => hno (h.mayIssue_iff.mp hmay)

theorem State.Judged.tryIssue_issues (hmay : w.mayIssueEnd i lw ew) : w.tryIssue n i = w.issueStroke n lw i := by
  rw [State.tryIssue, h.active]
  dsimp only
  rw [h.entry]
  exact if_pos (h.mayIssue_iff.mpr hmay)

/-- The record is marked short exactly when strokes stay owed at the cap (R158). -/
theorem State.Judged.markShort_eq : w.markShort n i =
    if (w.injector i).mask = false ∧ lw.abortTaken = some false ∧ (w.injCfg i).catchUp ≤ (w.injector i).endIssued ∧
        ew.verified < ew.due then
      w.modActive n fun l => { l with flags := { l.flags with additiveShort := true } }
    else w := by
  have hout : w.outstanding lw ew = ew.due - ew.verified :=
    State.outstanding_idle (by rw [Load.entryOf_injector h.entry]; exact h.stroke) lw
  rw [State.markShort, h.active]
  dsimp only
  rw [h.entry]
  refine if_congr ?_ rfl rfl
  rw [h.done_iff, hout, Nat.sub_pos_iff_lt]
  constructor
  · rintro ⟨-, habort, ⟨hmask, hdone⟩, howed⟩
    refine ⟨hmask, habort, ?_, howed⟩
    rcases hdone with hdone | hdone | hdone
    · rw [habort] at hdone
      cases hdone
    · omega
    · exact hdone
  · rintro ⟨hmask, habort, hcapped, howed⟩
    exact ⟨h.phase, habort, ⟨hmask, Or.inr (Or.inr hcapped)⟩, howed⟩

end

/-! ## What follows at the arm -/

/-- What a judgement in SETTLE makes of the record. -/
structure SettleOutcome (w t : State) (n : ArmId) (i : InjId) (lw l' : Load) (ew : AddEntry) : Prop where
  load : t.load? lw.number = some l'
  entry : ∃ e', l'.entryOf i = some e' ∧ e'.due = ew.due ∧ e'.verified = ew.verified
  short : (w.injector i).mask = false → lw.abortTaken = some false → (w.injCfg i).catchUp ≤ (w.injector i).endIssued →
    ew.verified < ew.due → l'.flags.additiveShort = true
  onlyShort : l'.flags.additiveShort = true → l'.state = .delivering → lw.flags.additiveShort = true ∨
    ((w.injector i).mask = false ∧ lw.abortTaken = some false ∧ (w.injCfg i).catchUp ≤ (w.injector i).endIssued ∧
      ew.verified < ew.due)
  ends : (w.arm n).settle = .expired → (∀ x ∈ lw.entries, w.injectorDone lw x = true) →
    l'.state = .ended ∧ t.attention = w.attention + 1 ∧
      l'.endReason = some (if lw.abortTaken = some true then .aborted else .complete)
  goesOn : (w.arm n).settle ≠ .expired ∨ (∃ x ∈ lw.entries, x.injector ≠ i ∧ w.injectorDone lw x = false) →
    l'.state = .delivering ∧ l'.phase = some .settle

/-- The injector issues another end stroke: the record stays in SETTLE. -/
theorem State.Judged.outcome_issued (h : w.Judged n i lw ew) (hn : (w.loads.map (·.number)).Nodup)
    (hmay : w.mayIssueEnd i lw ew) :
    ∃ l', SettleOutcome w (((w.tryIssue n i).markShort n i).endSettleIfOver n) n i lw l' ew := by
  obtain ⟨u, hu⟩ : ∃ u, u = w.issueStroke n lw i := ⟨_, rfl⟩
  let lu := lw.modEntry i fun e => { e with issued := satAdd u32Max e.issued 1 }
  have hactive : u.active n = some lu := by
    rw [hu, State.issueStroke, State.modInjector_active]
    refine (State.modActive_active_self (fun _ => by rfl) fun _ h => by exact h).trans ?_
    rw [h.active]
    rfl
  have hentry : lu.entryOf i = some { ew with issued := satAdd u32Max ew.issued 1 } := by
    rw [Load.entryOf_modEntry lw (fun _ => by rfl), h.entry, Option.map_some, Load.entryOf_injector h.entry,
      if_pos (beq_self_eq_true i)]
  have hstroking : (u.injector i).state = .stroking := by
    rw [hu, State.issueStroke, State.modInjector_injector_self]
  have hnot : u.injectorDone lu { ew with issued := satAdd u32Max ew.issued 1 } = false := by
    have hinj := Load.entryOf_injector hentry
    rw [State.injectorDone, hinj, hstroking]
    rfl
  have hmark : u.markShort n i = u := by
    rw [State.markShort, hactive]
    dsimp only
    rw [hentry]
    exact if_neg fun hcond => by
      obtain ⟨-, -, hdone, -⟩ := hcond
      rw [hnot] at hdone
      cases hdone
  have hover : u.settleOver n ≠ true := fun hover => by
    obtain ⟨-, -, hall⟩ := (State.settleOver_iff hactive).mp hover
    rw [hall _ (List.mem_of_find?_eq_some hentry)] at hnot
    cases hnot
  rw [h.tryIssue_issues hmay, ← hu, hmark, State.endSettleIfOver_not hover]
  obtain ⟨hmask, habort, hcap, howed⟩ := hmay
  obtain ⟨hstate, hphase⟩ := Load.delivering_of_phase h.phase
  have hkeeps : Keeps w u := hu ▸ w.issueStroke_keeps n lw i
  refine ⟨lu, State.load?_of_active (hkeeps.numbers hn) hactive, ⟨_, hentry, rfl, rfl⟩, fun _ _ hcapped => by omega,
    fun hshort _ => Or.inl hshort, fun _ hall => ?_, fun _ => ⟨hstate, hphase⟩⟩
  have hdone := hall ew (List.mem_of_find?_eq_some h.entry)
  obtain ⟨-, hdone⟩ := h.done_iff.mp hdone
  rcases hdone with hdone | hdone | hdone
  · rw [habort] at hdone
    cases hdone
  · omega
  · omega

theorem State.attention_of_map {p : Load → Bool} {f : Load → Load} (hf : ∀ l, (f l).state = l.state)
    (h : t.loads = s.loads.map fun l => if p l = true then f l else l) : t.attention = s.attention := by
  rw [State.attention_eq, State.attention_eq, h, List.countP_map]
  refine List.countP_congr fun l _ => ?_
  simp only [Function.comp_apply, apply_ite Load.state, hf, ite_self]

/-- The record as SETTLE leaves it when the injector issues nothing more. -/
def Load.shortIf (l : Load) (b : Prop) [Decidable b] : Load :=
  if b then { l with flags := { l.flags with additiveShort := true } } else l

theorem Load.shortIf_kept (l : Load) (b : Prop) [Decidable b] : (l.shortIf b).number = l.number ∧
    (l.shortIf b).state = l.state ∧ (l.shortIf b).phase = l.phase ∧ (l.shortIf b).abortTaken = l.abortTaken ∧
    (l.shortIf b).entries = l.entries := by
  rw [Load.shortIf]
  split <;> exact ⟨rfl, rfl, rfl, rfl, rfl⟩

theorem Load.shortIf_flag (l : Load) (b : Prop) [Decidable b] :
    (l.shortIf b).flags.additiveShort = true ↔ b ∨ l.flags.additiveShort = true := by
  rw [Load.shortIf]
  split
  · rename_i h
    simp [h]
  · rename_i h
    simp [h]

/-- The injector issues nothing more: the record may be marked short and may end. -/
theorem State.Judged.outcome_settled (h : w.Judged n i lw ew) (hlists : w.ListsOk) (hn : (w.loads.map (·.number)).Nodup)
    (hno : ¬ w.mayIssueEnd i lw ew) :
    ∃ l', SettleOutcome w (((w.tryIssue n i).markShort n i).endSettleIfOver n) n i lw l' ew := by
  obtain ⟨short, hshort⟩ : ∃ short : Prop, short = ((w.injector i).mask = false ∧ lw.abortTaken = some false ∧
    (w.injCfg i).catchUp ≤ (w.injector i).endIssued ∧ ew.verified < ew.due) := ⟨_, rfl⟩
  have : Decidable short := by rw [hshort]; infer_instance
  obtain ⟨x, hx⟩ : ∃ x, x = w.markShort n i := ⟨_, rfl⟩
  have hactive : x.active n = some (lw.shortIf short) := by
    have hmark := h.markShort_eq
    rw [hx, hmark, Load.shortIf]
    by_cases hs : short
    · rw [if_pos hs, if_pos (hshort ▸ hs)]
      refine (State.modActive_active_self (fun _ => by rfl) fun _ h => by exact h).trans ?_
      rw [h.active]
      rfl
    · rw [if_neg hs, if_neg (hshort ▸ hs)]
      exact h.active
  have hrest : x = { w with loads := x.loads } := by
    rw [hx, h.markShort_eq]
    split <;> rfl
  have harm : (x.arm n).settle = (w.arm n).settle := by rw [hrest]; rfl
  have hinjector (j : InjId) : x.injector j = w.injector j := by rw [hrest]; rfl
  have hkeeps : Keeps w x := hx ▸ w.markShort_keeps n i
  have hlists' : x.ListsOk := (hx ▸ w.markShort_placed n i : Placed w x).lists hlists
  have hn' := hkeeps.numbers hn
  have hattention : x.attention = w.attention := by
    rw [hx, h.markShort_eq]
    split
    · exact State.attention_of_map (p := fun l => l.arm == n && l.isActive)
        (f := fun l => { l with flags := { l.flags with additiveShort := true } }) (fun _ => rfl) rfl
    · rfl
  obtain ⟨hnumber, hstate, hphase, habort, hentries⟩ := lw.shortIf_kept short
  obtain ⟨hdelivering, hsettle⟩ := Load.delivering_of_phase h.phase
  have hdone (y : AddEntry) : x.injectorDone (lw.shortIf short) y = w.injectorDone lw y :=
    State.injectorDone_congr (hinjector _) hkeeps.settings hnumber habort
  have hover : x.settleOver n = true ↔ (w.arm n).settle = .expired ∧ ∀ y ∈ lw.entries, w.injectorDone lw y = true := by
    rw [State.settleOver_iff hactive, harm, hentries]
    simp only [hdone]
    exact and_iff_right (by rw [Load.deliveringPhase_delivering (hstate.trans hdelivering), hphase, hsettle])
  have hentry : (lw.shortIf short).entryOf i = some ew := by
    rw [Load.entryOf, hentries]
    exact h.entry
  rw [h.tryIssue_not hno, ← hx]
  by_cases hends : x.settleOver n = true
  · obtain ⟨hexpired, hall⟩ := hover.mp hends
    have hended := State.endRecord_endedAs hn' hactive (if (lw.shortIf short).abortTaken = some true then .aborted else .complete)
      hlists'
    rw [State.endSettleIfOver_over hactive hends]
    obtain ⟨l', hload, hrecord, -, -, -, hflag, -⟩ := hended.record
    have hstate' : l'.state = .ended := by rw [hrecord]
    rw [hnumber] at hload
    refine ⟨l', hload, ⟨ew, ?_, rfl, rfl⟩, fun hmask hab hcap howed => ?_, fun _ hlive => ?_, fun _ _ => ⟨hstate', ?_, ?_⟩,
      fun hlive => ?_⟩
    · rw [hrecord]
      exact hentry
    · exact hflag.mpr (Or.inl ((lw.shortIf_flag short).mpr (Or.inl (hshort ▸ ⟨hmask, hab, hcap, howed⟩))))
    · rw [hstate'] at hlive
      cases hlive
    · rw [hended.attention, hattention]
    · rw [hrecord, habort]
    · rcases hlive with hlive | ⟨y, hy, -, hnot⟩
      · exact absurd hexpired hlive
      · rw [hall y hy] at hnot
        cases hnot
  · rw [State.endSettleIfOver_not hends]
    refine ⟨lw.shortIf short, ?_, ⟨ew, hentry, rfl, rfl⟩, fun hmask hab hcap howed => ?_, fun hflag _ => ?_,
      fun hexpired hall => absurd (hover.mpr ⟨hexpired, hall⟩) hends, fun _ => ⟨hstate.trans hdelivering, hphase.trans hsettle⟩⟩
    · rw [← hnumber]
      exact State.load?_of_active hn' hactive
    · exact (lw.shortIf_flag short).mpr (Or.inl (hshort ▸ ⟨hmask, hab, hcap, howed⟩))
    · rw [← hshort]
      exact ((lw.shortIf_flag short).mp hflag).symm

/-! ## VERIFY_TAIL_END -/

theorem armNumbered_of_arm {k : Nat} (h : k = armNumber n) : armNumbered k = some n := by
  rw [h]
  exact armNumbered_armNumber n

/-- The state after a judgement at an arm whose record is in SETTLE. -/
theorem State.judged_judge {k : Stroke} (hstroke : (s.injector i).stroke = some k) (hl : s.active n = some l)
    (hphase : s.phase n = some .settle) (he : l.entryOf i = some e) :
    (s.judge i).Judged n i (l.judgedBy s i k)
      (if k.load = some l.number then e.judged (s.injCfg i) (s.injector i).pulses else e) where
  active := by rw [State.judge_active hstroke, hl]; rfl
  phase := by
    rw [State.phase_eq hl] at hphase
    rw [← hphase, Load.judgedBy]
    split <;> rfl
  entry := Load.judgedBy_entryOf he
  state := by rw [State.judge_injector]; rfl
  stroke := by rw [State.judge_injector]; rfl

theorem State.afterJudgement_at (harm : (s.injCfg i).arm = armNumber n) :
    s.afterJudgement i = ((s.tryIssue n i).markShort n i).endSettleIfOver n := by
  rw [State.afterJudgement, armNumbered_of_arm harm]

theorem State.Judged.outcome (h : w.Judged n i lw ew) (hlists : w.ListsOk) (hn : (w.loads.map (·.number)).Nodup)
    (harm : (w.injCfg i).arm = armNumber n) : ∃ l', SettleOutcome w (w.afterJudgement i) n i lw l' ew := by
  rw [State.afterJudgement_at harm]
  by_cases hmay : w.mayIssueEnd i lw ew
  · exact h.outcome_issued hn hmay
  · exact h.outcome_settled hlists hn hmay

theorem State.judge_attention {k : Stroke} (h : (s.injector i).stroke = some k) : (s.judge i).attention = s.attention := by
  rw [State.attention_eq, State.attention_eq, State.judge_loads h, List.countP_map]
  refine List.countP_congr fun l _ => ?_
  simp only [Function.comp_apply, Load.judgedBy, apply_ite Load.state, Load.modEntry, ite_self]

theorem State.judge_fields (s : State) (i : InjId) : (s.judge i).arms = s.arms ∧ (s.judge i).meters = s.meters ∧
    (s.judge i).reservations = s.reservations ∧ (s.judge i).queue = s.queue := by
  rw [State.judge]
  split <;> exact ⟨rfl, rfl, rfl, rfl⟩

theorem State.afterJudgement_fields (s : State) (i : InjId) : (s.afterJudgement i).meters = s.meters ∧
    (s.afterJudgement i).reservations = s.reservations ∧ (s.afterJudgement i).queue = s.queue := by
  have hend (u : State) (n : ArmId) : (u.endSettleIfOver n).meters = u.meters ∧
      (u.endSettleIfOver n).reservations = u.reservations ∧ (u.endSettleIfOver n).queue = u.queue := by
    rw [State.endSettleIfOver]
    split
    · cases hl : u.active n with
      | none => rw [State.endRecord_none hl]; exact ⟨rfl, rfl, rfl⟩
      | some l => rw [State.endRecord_frame hl]; exact ⟨rfl, rfl, rfl⟩
    · exact ⟨rfl, rfl, rfl⟩
  have hmark (u : State) (n : ArmId) : (u.markShort n i).meters = u.meters ∧
      (u.markShort n i).reservations = u.reservations ∧ (u.markShort n i).queue = u.queue := by
    rw [State.markShort]
    split
    · exact ⟨rfl, rfl, rfl⟩
    · split
      · exact ⟨rfl, rfl, rfl⟩
      · split <;> exact ⟨rfl, rfl, rfl⟩
  rw [State.afterJudgement]
  split
  · rename_i n _
    obtain ⟨hmeters, hresv, hqueue⟩ := hend ((s.tryIssue n i).markShort n i) n
    obtain ⟨hmeters', hresv', hqueue'⟩ := hmark (s.tryIssue n i) n
    have hissues := (s.tryIssue_issues n i).rest
    rw [hmeters, hresv, hqueue, hmeters', hresv', hqueue', hissues]
    exact ⟨rfl, rfl, rfl⟩
  · exact ⟨rfl, rfl, rfl⟩

theorem AddEntry.judged_verified {c : InjSettings} {pulses : Nat} (h : c.threshold ≤ pulses) (e : AddEntry) :
    (e.judged c pulses).verified = min 4294967295 (e.verified + 1) ∧
      (e.judged c pulses).injected = min 4294967295 (e.injected + pulses * c.stroke / c.pulses) := by
  rw [AddEntry.judged, if_pos h]
  exact ⟨rfl, rfl⟩

theorem AddEntry.judged_short {c : InjSettings} {pulses : Nat} (h : pulses < c.threshold) (e : AddEntry) :
    e.judged c pulses = e := if_neg (Nat.not_le.mpr h)

/-- What an unissued entry keeps. -/
theorem AddEntry.of_unissued {e' : AddEntry} (h : e'.unissued = e.unissued) : e'.due = e.due ∧ e'.interval = e.interval ∧
    e'.verified = e.verified ∧ e'.injected = e.injected :=
  ⟨show e'.unissued.due = e.unissued.due from congrArg _ h, show e'.unissued.interval = e.unissued.interval from congrArg _ h,
    show e'.unissued.verified = e.unissued.verified from congrArg _ h,
    show e'.unissued.injected = e.unissued.injected from congrArg _ h⟩

/-- An entry beside the judged one, by its injector. -/
theorem Load.mem_judgedBy {k : Stroke} {x : AddEntry} (hx : x.injector ≠ i) (h : x ∈ l.entries) :
    x ∈ (l.judgedBy s i k).entries := by
  rw [Load.judgedBy]
  split
  · exact List.mem_map.mpr ⟨x, h, if_neg (by simpa using hx)⟩
  · exact h

/-- With injectors unlike, every entry after a judgement is the judged one or stood before. -/
theorem Load.of_mem_judgedBy {k : Stroke} (hunique : (l.entries.map (·.injector)).Nodup) (he : l.entryOf i = some e)
    {x : AddEntry} (h : x ∈ (l.judgedBy s i k).entries) :
    x = (if k.load = some l.number then e.judged (s.injCfg i) (s.injector i).pulses else e) ∨
      (x.injector ≠ i ∧ x ∈ l.entries) := by
  have hsame {y : AddEntry} (hy : y ∈ l.entries) (hi : y.injector = i) : y = e :=
    List.inj_on_of_nodup_map hunique hy (List.mem_of_find?_eq_some he) (hi.trans (Load.entryOf_injector he).symm)
  rw [Load.judgedBy] at h
  split at h
  · rename_i hk
    obtain ⟨y, hy, rfl⟩ := List.mem_map.mp h
    by_cases hi : y.injector = i
    · rw [if_pos hk, hsame hy hi]
      exact Or.inl (if_pos (by simpa using Load.entryOf_injector he))
    · rw [if_neg (by simpa using hi)]
      exact Or.inr ⟨hi, hy⟩
  · rename_i hk
    rw [if_neg hk]
    by_cases hi : x.injector = i
    · exact Or.inl (hsame h hi)
    · exact Or.inr ⟨hi, h⟩

theorem Load.judgedBy_kept (l : Load) (s : State) (i : InjId) (k : Stroke) : (l.judgedBy s i k).number = l.number ∧
    (l.judgedBy s i k).abortTaken = l.abortTaken ∧ (l.judgedBy s i k).flags = l.flags := by
  rw [Load.judgedBy]
  split <;> exact ⟨rfl, rfl, rfl⟩

theorem Injector.afterJudgement_masked {x : Injector} (h : x.mask = true) :
    x.afterJudgement = { x with state := .masked, stroke := none, timer := none } := by
  rw [Injector.afterJudgement, if_pos h]

/-- Settles O21. -/
theorem tailEndJudgesTheStroke : Obligations.TailEndJudgesTheStroke := by
  intro i due k s hstate htimer hstroke
  obtain ⟨v, hv⟩ : ∃ v, v = s.reach due := ⟨_, rfl⟩
  obtain ⟨w, hw⟩ : ∃ w, w = v.judge i := ⟨_, rfl⟩
  have hstroke' : (v.injector i).stroke = some k := by rw [hv]; exact hstroke
  have hkeeps : Keeps v (w.afterJudgement i) := (hw ▸ v.judge_keeps i : Keeps v w).trans (w.afterJudgement_keeps i)
  have hinjector : w.injector i = (v.injector i).afterJudgement := by rw [hw, State.judge_injector]
  have hnot : (w.injector i).state ≠ .verifying := by
    rw [hinjector, Injector.afterJudgement_state]
    split <;> decide
  obtain ⟨hafter, hmasked⟩ := w.afterJudgement_injector hnot
  refine ⟨w.afterJudgement i, ?_, ?_, hafter, fun hmask => ?_, fun number l e hk hl he => ?_, fun hk number l e j hl he => ?_,
    fun n l e capped hs harm hl hphase he hunique hcapped => ?_, ?_⟩
  · rw [hw, hv]
    exact exec_verifyTailEnd hstate htimer
  · rw [hkeeps.now, hv]
    rfl
  · have hmask' : (v.injector i).mask = true := by rw [hv]; exact hmask
    rw [hmasked (by rw [hinjector, Injector.afterJudgement_state, if_pos hmask']) (by rw [hinjector]; exact hmask'),
      hinjector, Injector.afterJudgement_masked hmask', hv]
    rfl
  · have hnumber : l.number = number := by simpa using List.find?_some hl
    have hload : w.load? number = some (l.judgedBy v i k) := by
      rw [hw, State.judge_load? hstroke', show v.load? number = some l from hv ▸ hl]
      rfl
    have hentry := Load.judgedBy_entryOf (s := v) (k := k) he
    rw [hnumber, if_pos hk] at hentry
    obtain ⟨l', e', hl', he', hsame⟩ := (w.afterJudgement_accounts i).entry hload hentry
    obtain ⟨hdue, hinterval, hverified, hinjected⟩ := AddEntry.of_unissued hsame
    obtain ⟨-, hjudgedDue, hjudgedInterval, -⟩ := e.judged_kept (v.injCfg i) (v.injector i).pulses
    refine ⟨l', e', hl', he', hdue.trans hjudgedDue, hinterval.trans hjudgedInterval, fun h => ?_, fun h => ?_⟩
    · rw [hv] at hverified hinjected
      obtain ⟨h1, h2⟩ := AddEntry.judged_verified (c := s.injCfg i) h e
      exact ⟨hverified.trans h1, hinjected.trans h2⟩
    · rw [hv] at hverified hinjected
      have hkept := AddEntry.judged_short (c := s.injCfg i) h e
      exact ⟨hverified.trans (congrArg AddEntry.verified hkept), hinjected.trans (congrArg AddEntry.injected hkept)⟩
  · have hload : w.load? number = some l := by
      rw [hw, State.judge_load? hstroke', show v.load? number = some l from hv ▸ hl, Option.map_some, Load.judgedBy,
        if_neg (by simp [hk])]
    obtain ⟨l', e', hl', he', hsame⟩ := (w.afterJudgement_accounts i).entry hload he
    obtain ⟨hdue, -, hverified, hinjected⟩ := AddEntry.of_unissued hsame
    exact ⟨l', e', hl', he', hverified, hinjected, hdue⟩
  · have hjudged : w.Judged n i (l.judgedBy v i k) _ :=
      hw ▸ State.judged_judge (s := v) hstroke' (by rw [hv]; exact hl) (by rw [hv]; exact hphase) he
    obtain ⟨ew, hew⟩ : ∃ ew, ew = if k.load = some l.number then e.judged (v.injCfg i) (v.injector i).pulses else e := ⟨_, rfl⟩
    rw [← hew] at hjudged
    obtain ⟨lw, hlw⟩ : ∃ lw, lw = l.judgedBy v i k := ⟨_, rfl⟩
    rw [← hlw] at hjudged
    obtain ⟨hnumber, habort, hflags⟩ := hlw ▸ l.judgedBy_kept v i k
    have hkeepsW : Keeps v w := hw ▸ v.judge_keeps i
    have hcfg : w.injCfg i = s.injCfg i := by rw [hkeepsW.injCfg, hv]; rfl
    have hmask : (w.injector i).mask = (s.injector i).mask := by rw [hinjector, hv]; rfl
    have hend : (w.injector i).endIssued = (s.injector i).endIssued := by rw [hinjector, hv]; rfl
    have hsettle : (w.arm n).settle = (s.arm n).settle := by
      rw [hw, State.arm, (v.judge_fields i).1, hv]
      rfl
    have hlists : w.ListsOk := (hw ▸ v.judge_placed i : Placed v w).lists (by rw [hv]; exact ((hs.sound (H := False) False.elim).reach due).lists)
    have hnumbers := hkeepsW.numbers (by rw [hv]; exact hs.tables.loadNumbers)
    have hdone (x : AddEntry) (hx : x.injector ≠ i) : w.injectorDone lw x = s.injectorDone l x := by
      have hinj : w.injector x.injector = s.injector x.injector := by
        rw [hw, v.judge_injector_ne hx, hv]
        rfl
      exact State.injectorDone_congr hinj (by rw [hkeepsW.settings, hv]; rfl) hnumber habort
    have hattention : w.attention = s.attention := by
      rw [hw, State.judge_attention hstroke', hv]
      rfl
    obtain ⟨l', ho⟩ := hjudged.outcome hlists hnumbers (by rw [hcfg]; exact harm)
    obtain ⟨e', he', hdue, hverified⟩ := ho.entry
    have hload := ho.load
    rw [hnumber] at hload
    refine ⟨l', e', hload, he', fun hm hab hcap howed => ?_, fun hshort hlive => ?_, fun hexpired hall hm hwhy => ?_,
      fun hlive => ?_⟩
    · exact ho.short (by rw [hmask, hm]) (by rw [habort, hab]) (by rw [hcfg, hend]; exact hcapped.mp hcap)
        (by rw [← hdue, ← hverified]; exact howed)
    · have hwhy := ho.onlyShort hshort hlive
      rw [hflags, hmask, habort, hcfg, hend, ← hdue, ← hverified, ← hcapped] at hwhy
      exact hwhy
    · have hself : w.injectorDone lw ew = true := by
        rw [hjudged.done_iff, hmask, habort, hcfg, hend, ← hdue, ← hverified, ← hcapped]
        exact ⟨hm, hwhy⟩
      obtain ⟨hended, hcount, hreason⟩ := ho.ends (by rw [hsettle, hexpired]) fun x hx => by
        rw [hlw] at hx
        rcases Load.of_mem_judgedBy hunique he hx with hx | ⟨hne, hx⟩
        · rw [hx, ← hew]
          exact hself
        · rw [hdone x hne]
          exact hall x hx hne
      exact ⟨hended, by rw [hcount, hattention], by rw [hreason, habort]⟩
    · refine ho.goesOn ?_
      rw [hsettle]
      refine hlive.imp_right fun ⟨x, hx, hne, hnot⟩ => ⟨x, ?_, hne, ?_⟩
      · rw [hlw]
        exact Load.mem_judgedBy hne hx
      · rw [hdone x hne, hnot]
  · obtain ⟨hmeters, hresv, hqueue⟩ := w.afterJudgement_fields i
    obtain ⟨-, hmeters', hresv', hqueue'⟩ := v.judge_fields i
    rw [hw] at hmeters hresv hqueue
    have heq := hkeeps.eq_of_meters (by rw [hw, hmeters, hmeters'])
    rw [hw, hresv, hqueue, hresv', hqueue', ← hw] at heq
    rw [hkeeps.now]
    rw [hv] at heq ⊢
    exact heq

end

end Sys2Proof.Machine
end

section
/-! SUPPORT. What the compare tests make of a record in LOW, HIGH or TAPER: its entry to FINISH, its entry to TAPER, or
the low-start test alone (R86). -/

namespace Sys2Proof.Machine

section
variable {s t : State} {n : ArmId} {l l' : Load} {b : Bool}

/-! ## The points reached (R85) -/

/-- The record's total gross has reached the arm's taper point. -/
def State.taperReached (s : State) (n : ArmId) (l : Load) : Prop :=
  1000 * l.preset ≤ l.gasGross + l.ethGross + 1000 * (s.armCfg n).taper

theorem State.finishPoint_le_iff : s.finishPoint n l ≤ s.projected l ↔ s.finishReached n l := Iff.rfl

theorem State.taperPoint_le_iff : s.taperPoint n l ≤ l.totalGross ↔ s.taperReached n l := by
  rw [State.taperPoint, State.taperReached, Load.totalGross]
  omega

theorem Flows.finishReached_iff {A : ArmId → Prop} (h : Flows A s t) (hcore : l'.core = l.core) :
    t.finishReached n l' ↔ s.finishReached n l := by
  have hhistory : (t.arm n).history = (s.arm n).history := show (t.arm n).core.history = (s.arm n).core.history from
    congrArg ArmSeq.history (h.arms n)
  have hdeficit (f : Nat) : l'.deficitOn f = l.deficitOn f := by
    rw [Load.deficitOn, Load.deficitOn, Load.core_gasNet hcore, Load.core_ethNet hcore]
  have hfraction : t.fraction l' = s.fraction l := by
    rw [h.keeps.fraction, State.fraction, State.fraction, Load.core_recipe hcore]
  rw [State.finishReached, State.finishReached, hhistory, hdeficit, hfraction, Load.core_preset hcore,
    Load.core_gasGross hcore, Load.core_ethGross hcore]

/-! ## Each test, due or not -/

theorem State.taperTest_due {ex : State → State} (hl : s.active n = some l)
    (hphase : l.deliveringPhase = some .low ∨ l.deliveringPhase = some .high) (hdue : s.taperReached n l) :
    s.taperTest ex b n = s.enterTaper ex (!b) n := by
  rw [State.taperTest, hl]
  exact if_pos ⟨hphase, State.taperPoint_le_iff.mpr hdue⟩

theorem State.taperTest_idle {ex : State → State} (hl : s.active n = some l)
    (h : l.deliveringPhase = some .taper ∨ ¬ s.taperReached n l) : s.taperTest ex b n = s := by
  rw [State.taperTest, hl]
  refine if_neg fun ⟨hphase, hdue⟩ => ?_
  rcases h with h | h
  · rw [h] at hphase
    rcases hphase with hphase | hphase <;> cases hphase
  · exact h (State.taperPoint_le_iff.mp hdue)

theorem State.finishTest_idle {ex : State → State} (hl : s.active n = some l) (h : ¬ s.finishReached n l) :
    s.finishTest ex b n = s := by
  rw [State.finishTest, hl]
  exact if_neg fun hdue => h (State.finishPoint_le_iff.mp hdue.2)

theorem State.finishTest_due {ex : State → State} (hl : s.active n = some l) (hflow : flowingPhase l.deliveringPhase = true)
    (hdue : s.finishReached n l) : s.finishTest ex b n =
      (if l.deliveringPhase = some .taper then s else s.enterTaper ex (!b) n).enterFinish ex b n := by
  rw [State.finishTest, hl]
  exact if_pos ⟨hflow, State.finishPoint_le_iff.mpr hdue⟩

/-- The low-start test leaves a flowing record flowing. -/
theorem State.lowStartTest_flowing (h : flowingPhase (s.phase n) = true) : flowingPhase ((s.lowStartTest n).phase n) = true := by
  cases hl : s.active n with
  | none => rwa [State.lowStartTest_none hl]
  | some l =>
    by_cases hdue : s.lowStartDue n l
    · have hdelivers : s.Delivers n := State.delivers_of_phase (by rw [State.phase_eq hl, hdue.1]; rfl)
      by_cases hgrant : s.grantsAtOnce (s.upgradeAsked n (s.fraction l)) = true
      · rw [State.lowStartTest_granted hl hdue hgrant,
          State.phase_of_setPhase (s := s.upgraded n (s.fraction l)) (State.enterHigh_active _ n) hdelivers]
        rfl
      · rw [State.lowStartTest_queued hl hdue (by simpa using hgrant),
          State.setPhase_phase (s := s.enqueue ⟨n, .upgrade, s.upgradeAsked n (s.fraction l)⟩) hdelivers]
        rfl
    · rwa [State.lowStartTest_idle hl hdue]

theorem State.lowStartTest_idle_of_phase (h : s.phase n ≠ some .low) : s.lowStartTest n = s := by
  cases hl : s.active n with
  | none => exact State.lowStartTest_none hl
  | some l => exact State.lowStartTest_idle hl fun hdue => h ((State.phase_eq hl).trans hdue.1)

theorem flowingPhase_cases {p : Option Phase} (h : flowingPhase p = true) :
    p = some .low ∨ p = some .high ∨ p = some .taper := by
  cases p with
  | none => cases h
  | some p => cases p <;> simp_all [flowingPhase]

/-! ## An entry to TAPER -/

/-- An entry to TAPER leaves its arm as it makes it, once the arm's own request is withdrawn. -/
theorem State.enterTaper_sameAt (h : s.phase n = some .high → ∀ r ∈ s.queue, r.arm ≠ n) (b : Bool) :
    SameAt n ((s.toTaper n b).withdraw n) (s.enterTaper State.examine b n) := by
  rw [State.enterTaper_eq]
  split
  · rename_i hhigh
    have hnone : ∀ r ∈ (s.toTaper n b).queue, r.arm ≠ n := by
      rw [s.toTaper_queue n b]
      exact h (by simpa using hhigh)
    rw [State.withdraw_eq_self hnone]
    exact State.examine_sameAt hnone
  · rw [State.withdrawThen]
    split
    · exact State.examine_sameAt State.withdraw_notQueued
    · exact .refl n _

section
variable (h : s.phase n = some .high → ∀ r ∈ s.queue, r.arm ≠ n) (b : Bool)
include h

theorem State.enterTaper_active : (s.enterTaper State.examine b n).active n =
    (s.active n).map fun l => { l with phase := some .taper, upgradePending := none } :=
  (State.enterTaper_sameAt h b).active.trans (s.toTaper_active n b)

theorem State.enterTaper_resv : (s.enterTaper State.examine b n).resv n =
    if s.phase n = some .high then { s.resv n with level := .low, amount := (s.resv n).lowAmount } else s.resv n :=
  (State.enterTaper_sameAt h b).resv.trans (s.toTaper_resv n b)

theorem State.enterTaper_arm : (s.enterTaper State.examine b n).arm n = (s.toTaper n b).arm n :=
  (State.enterTaper_sameAt h b).arm

theorem State.enterTaper_ratio : (s.enterTaper State.examine b n).ratio n = (s.toTaper n b).ratio n :=
  (State.enterTaper_sameAt h b).ratio

theorem State.enterTaper_notQueued : ∀ r ∈ (s.enterTaper State.examine b n).queue, r.arm ≠ n := fun r hr hrn =>
  State.withdraw_notQueued r (((State.enterTaper_sameAt h b).mem_queue hrn).mp hr) hrn

theorem State.enterTaper_taper (hd : s.Delivers n) : (s.enterTaper State.examine b n).phase n = some .taper :=
  State.phase_of_setPhase (State.enterTaper_active h b) hd

end

theorem State.enterTaper_roams (b : Bool) (s : State) (n : ArmId) : Roams s (s.enterTaper State.examine b n) :=
  State.enterTaper_flows roams_flowRel trivial State.examine_flowsAll s b

/-! ## The three tests in their order (R86) -/

theorem State.delivers_of_flowing (h : flowingPhase (s.phase n) = true) : s.Delivers n :=
  State.delivers_of_phase (by rcases flowingPhase_cases h with h | h | h <;> rw [h] <;> rfl)

/-- A finish test that is due enters FINISH, from TAPER or by way of it. -/
theorem State.finishTest_enters (hl : s.active n = some l) (hflow : flowingPhase l.deliveringPhase = true)
    (hdue : s.finishReached n l) (b : Bool) : ∃ x, Roams s x ∧ x.Delivers n ∧
      s.finishTest State.examine b n = x.enterFinish State.examine b n := by
  have hdelivers : s.Delivers n := State.delivers_of_flowing (by rwa [State.phase_eq hl])
  refine ⟨if l.deliveringPhase = some .taper then s else s.enterTaper State.examine (!b) n, ?_, ?_,
    State.finishTest_due hl hflow hdue⟩
  · split
    · exact .refl _ s
    · exact State.enterTaper_roams _ s n
  · split
    · exact hdelivers
    · exact (hdelivers.enterTaper keepsUnderway_examine _).delivers

section
variable (hl : s.active n = some l) (hflow : flowingPhase l.deliveringPhase = true)
    (hnone : l.deliveringPhase = some .high → ∀ r ∈ s.queue, r.arm ≠ n) (b : Bool)
include hl hflow hnone

theorem State.taperTest_flowing : flowingPhase ((s.taperTest State.examine b n).phase n) = true := by
  have hphase := State.phase_eq hl
  by_cases htaper : l.deliveringPhase = some .taper ∨ ¬ s.taperReached n l
  · rwa [State.taperTest_idle hl htaper, hphase]
  · obtain ⟨hnot, hdue⟩ := not_or.mp htaper
    have hlow : l.deliveringPhase = some .low ∨ l.deliveringPhase = some .high :=
      (flowingPhase_cases hflow).imp_right fun h => h.resolve_right hnot
    rw [State.taperTest_due hl hlow (not_not.mp hdue), State.enterTaper_taper (fun hhigh => hnone (hphase ▸ hhigh)) _
      (State.delivers_of_phase (by rw [hphase]; rcases hlow with h | h <;> rw [h] <;> rfl))]
    rfl

theorem State.compareTests_finish (hdue : s.finishReached n l) : ∃ x, Roams s x ∧ x.Delivers n ∧
    s.compareTests State.examine b n = x.enterFinish State.examine b n := by
  obtain ⟨y, hy⟩ : ∃ y, y = (s.taperTest State.examine b n).lowStartTest n := ⟨_, rfl⟩
  have hroams : Roams s y := by
    rw [hy]
    exact (State.taperTest_flows roams_flowRel trivial State.examine_flowsAll s b).trans (State.lowStartTest_flows _ n).roams
  have hyflow : flowingPhase (y.phase n) = true := by
    rw [hy]
    exact State.lowStartTest_flowing (State.taperTest_flowing hl hflow hnone b)
  obtain ⟨k, hk, hcore⟩ := hroams.active_some hl
  rw [State.phase_eq hk] at hyflow
  obtain ⟨x, hx, hdelivers, heq⟩ := State.finishTest_enters hk hyflow ((hroams.finishReached_iff hcore).mpr hdue) b
  exact ⟨x, hroams.trans hx, hdelivers, by rw [State.compareTests, ← hy, heq]⟩

theorem State.compareTests_taper (hdue : ¬ s.finishReached n l) (htaper : s.taperReached n l)
    (hphase : l.deliveringPhase ≠ some .taper) : s.compareTests State.examine b n = s.enterTaper State.examine (!b) n := by
  have hlow : l.deliveringPhase = some .low ∨ l.deliveringPhase = some .high :=
    (flowingPhase_cases hflow).imp_right fun h => h.resolve_right hphase
  have hat : (s.enterTaper State.examine (!b) n).phase n = some .taper :=
    State.enterTaper_taper (fun hhigh => hnone ((State.phase_eq hl).symm.trans hhigh)) _
      (State.delivers_of_phase (by rw [State.phase_eq hl]; rcases hlow with h | h <;> rw [h] <;> rfl))
  obtain ⟨k, hk, hcore⟩ := (State.enterTaper_roams (!b) s n).active_some hl
  rw [State.compareTests, State.taperTest_due hl hlow htaper, State.lowStartTest_idle_of_phase (by rw [hat]; decide),
    State.finishTest_idle hk fun h => hdue (((State.enterTaper_roams (!b) s n).finishReached_iff hcore).mp h)]

omit hflow hnone in
theorem State.compareTests_short (hdue : ¬ s.finishReached n l)
    (htaper : l.deliveringPhase = some .taper ∨ ¬ s.taperReached n l) :
    s.compareTests State.examine b n = s.lowStartTest n := by
  obtain ⟨k, hk, hcore⟩ := (s.lowStartTest_flows n).active_some hl
  rw [State.compareTests, State.taperTest_idle hl htaper,
    State.finishTest_idle hk fun h => hdue (((s.lowStartTest_flows n).finishReached_iff hcore).mp h)]

end

/-! ## An entry to FINISH (R91) -/

/-- The ethanol is closed with the gas: the fraction is 0, or, outside a sample, the close test passed. -/
def State.closesAtOnce (s : State) (n : ArmId) (l : Load) (b : Bool) : Prop :=
  s.fraction l = 0 ∨ (b = false ∧ l.deficitOn (s.fraction l) ≤ (s.armCfg n).ethComp)

theorem State.closePasses_iff (hl : s.active n = some l) :
    s.closePasses n = true ↔ l.deficitOn (s.fraction l) ≤ (s.armCfg n).ethComp := by
  rw [State.closePasses, hl]
  exact decide_eq_true_iff

theorem State.toFinish_closePasses (hl : s.active n = some l) :
    (s.toFinish n).closePasses n = true ↔ l.deficitOn (s.fraction l) ≤ (s.armCfg n).ethComp := by
  have hactive : (s.toFinish n).active n = some { l with phase := some .finish, upgradePending := none } := by
    rw [s.toFinish_active n, hl, Option.map_some]
  have hiff := State.closePasses_iff hactive
  exact hiff

theorem State.enterFinish_closes (hl : s.active n = some l) (h : s.closesAtOnce n l b) :
    s.enterFinish State.examine b n = (s.toFinish n).enterSettle State.examine n := by
  rw [State.enterFinish_eq, hl]
  refine if_pos ?_
  rw [Bool.or_eq_true, Bool.and_eq_true, Bool.not_eq_true', State.toFinish_closePasses hl, decide_eq_true_iff]
  exact h

theorem State.enterFinish_stays (hl : s.active n = some l) (h : ¬ s.closesAtOnce n l b) :
    s.enterFinish State.examine b n = s.toFinish n := by
  rw [State.enterFinish_eq, hl]
  refine if_neg ?_
  rw [Bool.or_eq_true, Bool.and_eq_true, Bool.not_eq_true', State.toFinish_closePasses hl, decide_eq_true_iff]
  exact h

end

end Sys2Proof.Machine
end

section
/-! SUPPORT. The amounts of the levels by their rule (R131), and START and RESUME taken: the record DELIVERING, its
meters and its arm, and the answer to its LOW request (R12, R16, R98, R100, R132). -/

namespace Sys2Proof.Machine

section
variable {s t u : State} {n : ArmId} {l l' : Load} {a : Nat}

/-! ## The amounts (R131) -/

theorem levelAmount_eq (rate f eMax c : Nat) : levelAmount rate f eMax c = max (if 0 < f then 1 else 0)
    (if 0 < c then min (min (rate * f * 11 / ((1000 - f) * 10)) eMax) c
      else min (rate * f * 11 / ((1000 - f) * 10)) eMax) := by
  rw [levelAmount]
  obtain ⟨b, hb⟩ : ∃ b, b = if 0 < c then min (min (rate * f * 11 / ((1000 - f) * 10)) eMax) c
    else min (rate * f * 11 / ((1000 - f) * 10)) eMax := ⟨_, rfl⟩
  rw [← hb]
  by_cases hf : 0 < f
  · by_cases hzero : b = 0
    · rw [if_pos ⟨hzero, hf⟩, if_pos hf, hzero]
      rfl
    · rw [if_neg fun h => hzero h.1, if_pos hf]
      omega
  · rw [if_neg fun h => hf h.2, if_neg hf]
    omega

theorem State.lowAmountFor_eq (s : State) (n : ArmId) (f : Nat) :
    s.lowAmountFor n f = s.ruledAmount n (s.armCfg n).lowRate f := levelAmount_eq _ _ _ _

theorem State.highAmountFor_eq (s : State) (n : ArmId) (f : Nat) :
    s.highAmountFor n f = s.ruledAmount n (s.armCfg n).highRate f := levelAmount_eq _ _ _ _

/-- A record without ethanol asks for nothing. -/
theorem State.ruledAmount_zero (s : State) (n : ArmId) (rate : Nat) : s.ruledAmount n rate 0 = 0 := by
  simp [State.ruledAmount]

theorem State.lowAsked_eq (hl : s.active n = some l) :
    s.lowAsked n = s.ruledAmount n (s.armCfg n).lowRate (s.fraction l) := by
  rw [State.lowAsked, hl, Option.map_some, Option.getD_some, State.lowAmountFor_eq]

/-! ## The answer to the LOW request (R132) -/

/-- After an entry to FINISH the record is in FINISH or in SETTLE. -/
theorem State.enterFinish_phase (hd : s.Delivers n) (b : Bool) : (s.enterFinish State.examine b n).phase n = some .finish ∨
    (s.enterFinish State.examine b n).phase n = some .settle := by
  obtain ⟨l, hl, hstate⟩ := hd
  have hfinish : (s.toFinish n).phase n = some .finish := State.phase_of_setPhase (s.toFinish_active n) ⟨l, hl, hstate⟩
  by_cases hcloses : s.closesAtOnce n l b
  · have hat : (s.toFinish n).active n = some { l with phase := some .finish, upgradePending := none } := by
      rw [s.toFinish_active n, hl, Option.map_some]
    obtain ⟨k, hk, hstill⟩ := State.enterSettle_active hat
    rw [State.enterFinish_closes hl hcloses, State.phase_eq hk]
    refine Or.inr ((Load.deliveringPhase_delivering ?_).trans ?_)
    · rw [Load.eq_of_still hstill]
      exact hstate
    · rw [Load.eq_of_still hstill]
      rfl
  · rw [State.enterFinish_stays hl hcloses]
    exact Or.inl hfinish

/-- An entry to LOW that leaves the record in LOW or TAPER leaves its reservation, and in LOW without a pending upgrade
the queue. -/
theorem State.Delivers.enterLow_keeps (hd : s.Delivers n) (hl : (s.enterLow State.examine n).active n = some l')
    (hstate : l'.state = .delivering) :
    (l'.phase = some .low ∨ l'.phase = some .taper → (s.enterLow State.examine n).resv n = s.resv n) ∧
    (l'.phase = some .low → l'.upgradePending = some false → (s.enterLow State.examine n).queue = s.queue) := by
  have hphase : ((s.toLow n).compareTests State.examine false n).phase n = l'.phase := by
    rw [← Load.deliveringPhase_delivering hstate, ← State.phase_eq hl, State.enterLow_eq]
    split
    · rw [State.setSetpoint_phase]
    · rfl
  have hpending : ((s.toLow n).compareTests State.examine false n).active n = some l' := by
    rw [← hl, State.enterLow_eq]
    split
    · rw [State.setSetpoint_active]
    · rfl
  have hresv : (s.enterLow State.examine n).resv n = ((s.toLow n).compareTests State.examine false n).resv n := by
    rw [State.enterLow_eq]
    split
    · rw [State.setSetpoint_resv]
    · rfl
  have hqueue : (s.enterLow State.examine n).queue = ((s.toLow n).compareTests State.examine false n).queue := by
    rw [State.enterLow_eq]
    split
    · rw [State.setSetpoint_queue]
    · rfl
  rw [hresv, hqueue, ← s.toLow_resv n n, ← s.toLow_queue n]
  have hlow := State.toLow_phase hd
  obtain ⟨k, hk, hkstate, hkphase⟩ := State.phase_eq_some.mp hlow
  have hkdel : k.deliveringPhase = some .low := (Load.deliveringPhase_delivering hkstate).trans hkphase
  have hflow : flowingPhase k.deliveringPhase = true := by rw [hkdel]; rfl
  have hnone : k.deliveringPhase = some .high → ∀ r ∈ (s.toLow n).queue, r.arm ≠ n := fun h => by
    rw [hkdel] at h
    cases h
  by_cases hfinish : (s.toLow n).finishReached n k
  · obtain ⟨x, -, hx, heq⟩ := State.compareTests_finish hk hflow hnone false hfinish
    rw [heq] at hphase
    rcases State.enterFinish_phase hx false with h | h <;> rw [h] at hphase <;> rw [← hphase] <;>
      exact ⟨(by rintro (h | h) <;> cases h), nofun⟩
  · by_cases htaper : (s.toLow n).taperReached n k
    · have heq := State.compareTests_taper hk hflow hnone false hfinish htaper (by rw [hkdel]; decide)
      have hnot : (s.toLow n).phase n = some .high → ∀ r ∈ (s.toLow n).queue, r.arm ≠ n := by
        rw [hlow]
        exact nofun
      rw [heq] at hphase ⊢
      rw [State.enterTaper_taper hnot _ (State.delivers_of_phase (by rw [hlow]; rfl))] at hphase
      refine ⟨fun _ => ?_, fun h => by rw [h] at hphase; cases hphase⟩
      rw [State.enterTaper_resv hnot, if_neg (by rw [hlow]; decide)]
    · rw [State.compareTests_short hk false hfinish (Or.inr htaper)] at hpending ⊢
      by_cases hdue : (s.toLow n).lowStartDue n k
      · by_cases hgrant : (s.toLow n).grantsAtOnce ((s.toLow n).upgradeAsked n ((s.toLow n).fraction k)) = true
        · rw [State.lowStartTest_granted hk hdue hgrant, State.enterHigh_active, State.upgraded, State.modResv_active, hk,
            Option.map_some] at hpending
          rw [← Option.some.inj hpending]
          exact ⟨(by rintro (h | h) <;> cases h), nofun⟩
        · rw [State.lowStartTest_queued hk hdue (by simpa using hgrant)] at hpending ⊢
          rw [State.setPhase_active, State.enqueue, State.withQueue_active, hk, Option.map_some] at hpending
          rw [← Option.some.inj hpending]
          exact ⟨fun _ => rfl, nofun⟩
      · rw [State.lowStartTest_idle hk hdue]
        exact ⟨fun _ => rfl, fun _ _ => rfl⟩

/-- What a LOW request of `a` made on `s` leaves in `t`. -/
structure LowAnswered (s t : State) (n : ArmId) (a : Nat) (l' : Load) : Prop where
  granted : s.grantedAtOnce a → l'.phase ≠ some .headerWait ∧
    (l'.phase = some .low ∨ l'.phase = some .taper → t.resv n = ⟨.low, a, a⟩) ∧
    (l'.phase = some .low → l'.upgradePending = some false → t.queue = s.queue)
  queued : ¬ s.grantedAtOnce a → l'.phase = some .headerWait ∧ t.queue = s.queue ++ [⟨n, .low, a⟩] ∧
    t.resv n = { s.resv n with lowAmount := a }

theorem State.askHeader_answered (hl : s.active n = some l) (hstate : l.state = .delivering) :
    ∃ l', (s.askHeader n).active n = some l' ∧ l'.core = l.core ∧
      LowAnswered s (s.askHeader n) n (s.ruledAmount n (s.armCfg n).lowRate (s.fraction l)) l' := by
  obtain ⟨l', hl', hcore⟩ := (s.askHeader_roams n).active_some hl
  have hstate' : l'.state = .delivering := (Load.core_state hcore).trans hstate
  have hd : s.Delivers n := ⟨l, hl, hstate⟩
  refine ⟨l', hl', hcore, fun hgrant => ?_, fun hgrant => ?_⟩
  · rw [← State.lowAsked_eq hl] at hgrant ⊢
    rw [State.askHeader_granted (State.grantsAtOnce_iff.mpr hgrant)] at hl' ⊢
    have hgranted : (s.lowGranted n).Delivers n := hd
    obtain ⟨p, hp, hne⟩ := hgranted.enterLow keepsUnderway_examine
    obtain ⟨hresv, hqueue⟩ := hgranted.enterLow_keeps hl' hstate'
    rw [State.phase_eq hl', Load.deliveringPhase_delivering hstate'] at hp
    rw [s.lowGranted_resv n] at hresv
    exact ⟨by rw [hp]; exact fun h => hne (Option.some.inj h), hresv, hqueue⟩
  · rw [← State.lowAsked_eq hl] at hgrant ⊢
    rw [State.askHeader_queued (by rw [← Bool.not_eq_true, State.grantsAtOnce_iff]; exact hgrant)] at hl' ⊢
    have hactive : (s.lowQueued n).active n = s.active n := rfl
    rw [State.enterHeaderWait_active, hactive, hl, Option.map_some] at hl'
    rw [← Option.some.inj hl']
    exact ⟨rfl, rfl, s.lowSet_resv n⟩

theorem State.grantedAtOnce_congr (hsettings : t.settings = s.settings) (hqueue : t.queue = s.queue)
    (hresv : ∀ m, t.resv m = s.resv m) (a : Nat) : t.grantedAtOnce a ↔ s.grantedAtOnce a := by
  rw [State.grantedAtOnce, State.grantedAtOnce, hsettings, hqueue, show t.resv = s.resv from funext hresv]

theorem LowAnswered.of_base (h : LowAnswered t u n a l') (hsettings : t.settings = s.settings) (hqueue : t.queue = s.queue)
    (hresv : ∀ m, t.resv m = s.resv m) : LowAnswered s u n a l' := by
  have hiff := State.grantedAtOnce_congr hsettings hqueue hresv a
  refine ⟨fun hgrant => ?_, fun hgrant => ?_⟩
  · have hgranted := h.granted (hiff.mpr hgrant)
    rwa [hqueue] at hgranted
  · have hqueued := h.queued fun hg => hgrant (hiff.mp hg)
    rwa [hqueue, hresv] at hqueued

/-! ## START -/

theorem State.start_roams (s : State) (n : ArmId) : Roams (s.toStart n) (s.start n) := by
  rw [State.start_eq]
  exact State.askHeader_roams _ n

theorem State.resume_roams (s : State) (n : ArmId) : Roams (s.toResume n) (s.resume n) := by
  rw [State.resume_eq]
  exact State.askHeader_roams _ n

theorem State.start_answered (hl : s.active n = some l) : ∃ l', (s.start n).active n = some l' ∧
    l'.core = l.started.core ∧
    LowAnswered s (s.start n) n (s.ruledAmount n (s.armCfg n).lowRate (s.fraction l)) l' := by
  have hactive : (s.toStart n).active n = some l.started := by rw [s.toStart_active n, hl, Option.map_some]
  have hkeeps := (s.toStart_aside n).keeps
  obtain ⟨l', hl', hcore, hlow⟩ := State.askHeader_answered hactive rfl
  have hamount : (s.toStart n).ruledAmount n ((s.toStart n).armCfg n).lowRate ((s.toStart n).fraction l.started) =
      s.ruledAmount n (s.armCfg n).lowRate (s.fraction l) := by
    rw [State.ruledAmount, State.ruledAmount, hkeeps.armCfg, hkeeps.settings, hkeeps.fraction]
    rfl
  rw [hamount] at hlow
  rw [State.start_eq]
  exact ⟨l', hl', hcore, hlow.of_base hkeeps.settings (s.toStart_queue n) (s.toStart_resv n)⟩

theorem State.resume_answered (hl : s.active n = some l) : ∃ l', (s.resume n).active n = some l' ∧
    l'.core = l.resumed.core ∧
    LowAnswered s (s.resume n) n (s.ruledAmount n (s.armCfg n).lowRate (s.fraction l)) l' := by
  have hactive : (s.toResume n).active n = some l.resumed := by rw [s.toResume_active n, hl, Option.map_some]
  have hkeeps := (s.toResume_aside n).keeps
  obtain ⟨l', hl', hcore, hlow⟩ := State.askHeader_answered hactive rfl
  have hamount : (s.toResume n).ruledAmount n ((s.toResume n).armCfg n).lowRate ((s.toResume n).fraction l.resumed) =
      s.ruledAmount n (s.armCfg n).lowRate (s.fraction l) := by
    rw [State.ruledAmount, State.ruledAmount, hkeeps.armCfg, hkeeps.settings, hkeeps.fraction]
    rfl
  rw [hamount] at hlow
  rw [State.resume_eq]
  exact ⟨l', hl', hcore, hlow.of_base hkeeps.settings (s.toResume_queue n) (s.toResume_resv n)⟩

/-! ## The arm, its meters and its injectors -/

theorem State.toStart_arm (s : State) (n : ArmId) : (s.toStart n).arm n = { s.arm n with
    holdDrain := 0, qGas := 0, qEth := 0, gasRun := none, ethRun := none, stalled := none
    sampleClock := some (s.now + (s.armCfg n).period / 2) } := by
  rw [State.toStart, (State.maskArm_onlyInjectors _ n false).arm]
  simp [State.restartClock, State.modActive]
  rfl

theorem State.toResume_arm (s : State) (n : ArmId) : (s.toResume n).arm n = { s.arm n with
    qGas := 0, qEth := 0, gasRun := none, ethRun := none
    sampleClock := some (s.now + (s.armCfg n).period / 2) } := by
  rw [State.toResume, (State.maskArm_onlyInjectors _ n false).arm]
  simp [State.restartClock, State.modActive]
  rfl

theorem OnlyInjectors.meters (h : OnlyInjectors s t) : t.meters = s.meters := by rw [h]

theorem State.toStart_meters (s : State) (n : ArmId) : (s.toStart n).meters =
    ((s.modMeter (gasMeter n) Meter.clearForStart).modMeter (ethMeter n) Meter.clearForStart).meters := by
  rw [State.toStart, (State.maskArm_onlyInjectors _ n false).meters]
  rfl

theorem meterArm_eq_iff {m : MeterId} : meterArm m = n ↔ m = gasMeter n ∨ m = ethMeter n := by
  simp only [meterArm, gasMeter, ethMeter, Fin.ext_iff]
  omega

theorem gasMeter_ne_ethMeter (n : ArmId) : ethMeter n ≠ gasMeter n := by
  simp only [gasMeter, ethMeter, ne_eq, Fin.ext_iff]
  omega

theorem State.meter_of_meters (h : t.meters = s.meters) (m : MeterId) : t.meter m = s.meter m := by
  rw [State.meter, State.meter, h]

theorem State.toStart_meter (s : State) (n : ArmId) (m : MeterId) : (s.toStart n).meter m =
    if meterArm m = n then (s.meter m).clearForStart else s.meter m := by
  rw [State.meter_of_meters (s.toStart_meters n), State.modMeter_meter, State.modMeter_meter, State.modMeter_meter]
  by_cases heth : m = ethMeter n
  · rw [if_pos heth, if_neg (gasMeter_ne_ethMeter n), if_pos (meterArm_eq_iff.mpr (Or.inr heth)), heth]
  · by_cases hgas : m = gasMeter n
    · rw [if_neg heth, if_pos hgas, if_pos (meterArm_eq_iff.mpr (Or.inl hgas)), hgas]
    · rw [if_neg heth, if_neg hgas, if_neg fun h => (meterArm_eq_iff.mp h).elim hgas heth]

theorem State.toStart_mask (s : State) {n : ArmId} {i : InjId} (h : (s.injCfg i).arm = armNumber n) :
    ((s.toStart n).injector i).mask = false := State.maskArm_masked _ n false h

theorem State.toResume_mask (s : State) {n : ArmId} {i : InjId} (h : (s.injCfg i).arm = armNumber n) :
    ((s.toResume n).injector i).mask = false := State.maskArm_masked _ n false h

theorem State.toStart_alarms (s : State) (n : ArmId) : (s.toStart n).alarms = s.alarms :=
  (State.maskArm_onlyInjectors _ n false).alarms

theorem State.toResume_movesOnly (s : State) (n : ArmId) : MovesOnly s (s.toResume n) :=
  ⟨(s.toResume_aside n).keeps, (State.maskArm_onlyInjectors _ n false).meters,
    (State.maskArm_onlyInjectors _ n false).alarms⟩

/-- Records, arms, the header, the meters and the injectors alone have moved. -/
theorem Keeps.eq_of_alarms (h : Keeps s t) (ha : t.alarms = s.alarms) : t = { s with
    loads := t.loads, arms := t.arms, ratios := t.ratios, reservations := t.reservations, queue := t.queue,
    meters := t.meters, injectors := t.injectors } := by
  obtain ⟨hnow, hpending, hstore, hsettings, hmemory, hlink, hrecipes, hchannels, hport, hlevels, hbuttons, hstation, -⟩ := h
  cases s
  cases t
  simp only at hnow hpending hstore hsettings hmemory hlink hrecipes hchannels hport hlevels hbuttons hstation ha
  subst hnow hpending hstore hsettings hmemory hlink hrecipes hchannels hport hlevels hbuttons hstation ha
  rfl

/-! ## The commands -/

section
variable (hl : s.active n = some l) (hmay : s.mayStart n l = true)
include hl hmay

theorem State.startEdge_starts (hready : l.state = .ready) : s.startEdge n = s.start n := by
  rw [State.startEdge, hl]
  dsimp only
  rw [if_pos hmay, hready]

theorem State.startEdge_resumes (hheld : l.state = .held) : s.startEdge n = s.resume n := by
  rw [State.startEdge, hl]
  dsimp only
  rw [if_pos hmay, hheld]

omit hl in
theorem exec_startButton_edge (hreleased : s.buttons.start[n] = false) : exec (.startButtonEdge ⟨n, true⟩) s =
    .next ((s.withButtons (s.buttonsAfter (.startButtonEdge ⟨n, true⟩))).startEdge n) := by
  have hedge : isEdge s.buttons.start[n] true = true := by rw [hreleased]; rfl
  have hs : s.operating = true := State.operating_of_running (State.mayStart_iff.mp hmay).1
  refine (exec_startButtonEdge ⟨n, true⟩ hs).trans ?_
  rw [hedge, if_pos rfl]
  rfl

variable (hs : s.Accepts) (hn : (s.loads.map (·.number)).Nodup) {p : List Byte} (hp : p.length = 2)
    (hnumber : fieldAt p 0 2 = l.number) (hne : l.number ≠ 0)
include hs hn hp hnumber hne

theorem exec_startLoad (hready : l.state = .ready)
    (hl' : ((s.withLink (s.linkReceived false)).start n).active n = some l') (hcore : l'.core = l.started.core) :
    exec (.startLoad p) s = .next (((s.withLink (s.linkReceived false)).start n).withLink
      (s.linkAnswered 0x11 .ok (be16 l.number ++ byte1 LoadState.delivering.code ++ byte1 (phaseCode l'.phase)))) := by
  have hkeeps := ((s.withLink (s.linkReceived false)).toStart_aside n).keeps.trans
    (State.start_roams (s.withLink (s.linkReceived false)) n).keeps
  have hsame : l'.number = l.number := Load.core_number (l := l.started) hcore
  have hstate : l'.state = .delivering := Load.core_state (l := l.started) hcore
  have harm := State.active_arm hl
  have hanswer := State.answerStart_starts (s := s.withLink (s.linkReceived false)) (p := p) (l := l)
    (by rw [hnumber]; exact hne) (by rw [hnumber]; exact State.load?_of_active hn hl) hready (by rw [harm]; exact hmay)
  rw [harm, ← hsame] at hanswer
  have hexec := State.takeRequest_okState (code := 0x11) (owner := (·.answerStart p)) hs hp hanswer hkeeps.link
    (State.load?_of_active (hkeeps.numbers hn) hl')
  rw [hsame, hstate, Load.deliveringPhase_delivering hstate] at hexec
  exact congrArg Host.Outcome.next hexec

theorem exec_resumeLoad (hheld : l.state = .held)
    (hl' : ((s.withLink (s.linkReceived false)).resume n).active n = some l') (hcore : l'.core = l.resumed.core) :
    exec (.resumeLoad p) s = .next (((s.withLink (s.linkReceived false)).resume n).withLink
      (s.linkAnswered 0x13 .ok (be16 l.number ++ byte1 LoadState.delivering.code ++ byte1 (phaseCode l'.phase)))) := by
  have hkeeps := ((s.withLink (s.linkReceived false)).toResume_aside n).keeps.trans
    (State.resume_roams (s.withLink (s.linkReceived false)) n).keeps
  have hsame : l'.number = l.number := Load.core_number (l := l.resumed) hcore
  have hstate : l'.state = .delivering := Load.core_state (l := l.resumed) hcore
  have harm := State.active_arm hl
  have hanswer := State.answerResume_resumes (s := s.withLink (s.linkReceived false)) (p := p) (l := l)
    (by rw [hnumber]; exact hne) (by rw [hnumber]; exact State.load?_of_active hn hl) hheld (by rw [harm]; exact hmay)
  rw [harm, ← hsame] at hanswer
  have hexec := State.takeRequest_okState (code := 0x13) (owner := (·.answerResume p)) hs hp hanswer hkeeps.link
    (State.load?_of_active (hkeeps.numbers hn) hl')
  rw [hsame, hstate, Load.deliveringPhase_delivering hstate] at hexec
  exact congrArg Host.Outcome.next hexec

end

end

end Sys2Proof.Machine
end

section
/-! O11 and O12: a START and a RESUME taken, by message and by push-button (R11, R16, R98, R100, R132). -/

namespace Sys2Proof.Machine

theorem State.withLink_self (s : State) : s.withLink s.link = s := rfl

/-- Settles O11. -/
theorem startBeginsTheDelivery : Obligations.StartBeginsTheDelivery := by
  intro c p n l a s _ hn hl hready hmay ha hc
  have hbase (k : Link) (b : ButtonLevels) := State.start_answered (s := (s.withLink k).withButtons b) hl
  obtain ⟨k, k', l', hexec, hlink, hl', hcore, hlow⟩ : ∃ k k' l',
      exec c s = .next ((((s.withLink k).withButtons (s.buttonsAfter c)).start n).withLink k') ∧
      (c = .startLoad p → k' = s.linkAnswered 0x11 .ok
        (be16 l.number ++ byte1 LoadState.delivering.code ++ byte1 (phaseCode l'.phase))) ∧
      (((s.withLink k).withButtons (s.buttonsAfter c)).start n).active n = some l' ∧ l'.core = l.started.core ∧
      LowAnswered s (((s.withLink k).withButtons (s.buttonsAfter c)).start n) n a l' := by
    rw [ha]
    rcases hc with ⟨rfl, hreleased⟩ | ⟨rfl, haccepts, hp, hnumber, hne⟩
    · obtain ⟨l', hl', hcore, hlow⟩ := hbase s.link (s.buttonsAfter (.startButtonEdge ⟨n, true⟩))
      refine ⟨s.link, (((s.withLink s.link).withButtons (s.buttonsAfter (.startButtonEdge ⟨n, true⟩))).start n).link, l', ?_,
        nofun, hl', hcore, hlow.of_base rfl rfl fun _ => rfl⟩
      rw [exec_startButton_edge hmay hreleased,
        State.startEdge_starts (s := s.withButtons (s.buttonsAfter (.startButtonEdge ⟨n, true⟩))) hl hmay hready,
        s.withLink_self, State.withLink_self]
    · obtain ⟨l', hl', hcore, hlow⟩ := hbase (s.linkReceived false) s.buttons
      exact ⟨s.linkReceived false, _, l', exec_startLoad hl hmay haccepts hn hp hnumber hne hready hl' hcore, fun _ => rfl,
        hl', hcore, hlow.of_base rfl rfl fun _ => rfl⟩
  obtain ⟨u, hu⟩ : ∃ u, u = (s.withLink k).withButtons (s.buttonsAfter c) := ⟨_, rfl⟩
  obtain ⟨v, hv⟩ : ∃ v, v = u.start n := ⟨_, rfl⟩
  rw [← hu, ← hv] at hexec hl' hlow
  have hroams := u.start_roams n
  rw [← hv] at hroams
  have harm : (v.arm n).core = ((u.toStart n).arm n).core := hroams.arms n
  rw [u.toStart_arm n] at harm
  have hmeter (m : MeterId) : v.meter m = if meterArm m = n then (s.meter m).clearForStart else s.meter m := by
    rw [State.meter_of_meters hroams.meters, u.toStart_meter n, hu]
    rfl
  have hkeeps := (u.toStart_aside n).keeps.trans hroams.keeps
  have halarms := hroams.alarms.trans (u.toStart_alarms n)
  refine ⟨_, l', hexec, hl', Load.core_number (l := l.started) hcore, Load.core_preset (l := l.started) hcore,
    Load.core_recipe (l := l.started) hcore, Load.core_state hcore, Load.core_abortTaken hcore,
    Load.core_holdCount (l := l.started) hcore, fun hf => ?_, hlow.granted, hlow.queued,
    fun m hm => (hmeter m).trans (if_pos hm), fun m hm => (hmeter m).trans (if_neg hm),
    congrArg ArmSeq.holdDrain harm, congrArg ArmSeq.qGas harm, congrArg ArmSeq.qEth harm, congrArg ArmSeq.stalled harm,
    ?_, fun i hi => ?_, hlink, ?_⟩
  · rw [hf, State.ruledAmount_zero] at ha
    exact (hlow.granted (Or.inr (Or.inl ha))).1
  · rw [hu] at harm
    exact congrArg ArmSeq.sampleClock harm
  · refine (hroams.masks i).trans (u.toStart_mask ?_)
    rw [hu]
    exact hi
  · have heq := congrArg (State.withLink · k') (hkeeps.eq_of_alarms halarms)
    rw [hu] at heq
    exact heq

/-- Settles O12. -/
theorem resumeContinuesTheDelivery : Obligations.ResumeContinuesTheDelivery := by
  intro c p n l a s _ hn hl hheld hmay ha hc
  have hbase (k : Link) (b : ButtonLevels) := State.resume_answered (s := (s.withLink k).withButtons b) hl
  obtain ⟨k, k', l', hexec, hlink, hl', hcore, hlow⟩ : ∃ k k' l',
      exec c s = .next ((((s.withLink k).withButtons (s.buttonsAfter c)).resume n).withLink k') ∧
      (c = .resumeLoad p → k' = s.linkAnswered 0x13 .ok
        (be16 l.number ++ byte1 LoadState.delivering.code ++ byte1 (phaseCode l'.phase))) ∧
      (((s.withLink k).withButtons (s.buttonsAfter c)).resume n).active n = some l' ∧ l'.core = l.resumed.core ∧
      LowAnswered s (((s.withLink k).withButtons (s.buttonsAfter c)).resume n) n a l' := by
    rw [ha]
    rcases hc with ⟨rfl, hreleased⟩ | ⟨rfl, haccepts, hp, hnumber, hne⟩
    · obtain ⟨l', hl', hcore, hlow⟩ := hbase s.link (s.buttonsAfter (.startButtonEdge ⟨n, true⟩))
      refine ⟨s.link, (((s.withLink s.link).withButtons (s.buttonsAfter (.startButtonEdge ⟨n, true⟩))).resume n).link, l', ?_,
        nofun, hl', hcore, hlow.of_base rfl rfl fun _ => rfl⟩
      rw [exec_startButton_edge hmay hreleased,
        State.startEdge_resumes (s := s.withButtons (s.buttonsAfter (.startButtonEdge ⟨n, true⟩))) hl hmay hheld,
        s.withLink_self, State.withLink_self]
    · obtain ⟨l', hl', hcore, hlow⟩ := hbase (s.linkReceived false) s.buttons
      exact ⟨s.linkReceived false, _, l', exec_resumeLoad hl hmay haccepts hn hp hnumber hne hheld hl' hcore, fun _ => rfl,
        hl', hcore, hlow.of_base rfl rfl fun _ => rfl⟩
  obtain ⟨u, hu⟩ : ∃ u, u = (s.withLink k).withButtons (s.buttonsAfter c) := ⟨_, rfl⟩
  obtain ⟨v, hv⟩ : ∃ v, v = u.resume n := ⟨_, rfl⟩
  rw [← hu, ← hv] at hexec hl' hlow
  have hroams := u.resume_roams n
  rw [← hv] at hroams
  have harm : (v.arm n).core = ((u.toResume n).arm n).core := hroams.arms n
  rw [u.toResume_arm n] at harm
  have hmoves := (u.toResume_movesOnly n).trans hroams.movesOnly
  refine ⟨_, l', hexec, hl', Load.core_number (l := l.resumed) hcore, Load.core_state hcore, Load.core_abortTaken hcore,
    Load.core_holdTimer hcore, Load.core_holdCount (l := l.resumed) hcore, Load.core_lastCause (l := l.resumed) hcore,
    Load.core_gasGross (l := l.resumed) hcore, Load.core_gasNet (l := l.resumed) hcore,
    Load.core_ethGross (l := l.resumed) hcore, Load.core_ethNet (l := l.resumed) hcore, hlow.granted, hlow.queued,
    congrArg ArmSeq.qGas harm, congrArg ArmSeq.qEth harm, ?_, fun i hi => ?_, hlink, ?_⟩
  · rw [hu] at harm
    exact congrArg ArmSeq.sampleClock harm
  · refine (hroams.masks i).trans (u.toResume_mask ?_)
    rw [hu]
    exact hi
  · have heq := congrArg (State.withLink · k') hmoves.eq
    rw [hu] at heq
    exact heq

end Sys2Proof.Machine
end

section
/-! SUPPORT. What the entries by the compare tests leave at their arm, and the phase a new preset calls for (R91, R92,
R102, R133). -/

namespace Sys2Proof.Machine

section
variable {s t x : State} {n : ArmId} {l l' : Load} {b : Bool}

/-! ## FINISH and SETTLE at their arm -/

/-- The arm after an entry to FINISH with the ethanol flowing on (R91). -/
structure State.FinishedAt (s t : State) (n : ArmId) : Prop where
  closed : (t.arm n).valve = .close ∧ (t.arm n).gasTarget = 0
  runs : (t.arm n).gasRun = none ∧ (t.arm n).ethRun = none ∧ (t.ratio n).devRun = none
  timer : (t.ratio n).finishTimer = some (s.now + 1000 * (s.armCfg n).finishTimeout)

/-- The arm after an entry to SETTLE (R92). -/
structure State.SettledAt (s t : State) (n : ArmId) : Prop where
  closed : (t.arm n).valve = .close ∧ (t.arm n).gasTarget = 0
  ratio : t.ratio n = ⟨0, none, none⟩
  released : (t.resv n).level = .none ∧ (t.resv n).amount = 0
  timer : (t.arm n).settle = .running (s.now + 1000 * (s.armCfg n).settle)
  runs : (t.arm n).gasRun = none ∧ (t.arm n).ethRun = none

theorem State.FinishedAt.of_keeps (h : x.FinishedAt t n) (hk : Keeps s x) : s.FinishedAt t n where
  closed := h.closed
  runs := h.runs
  timer := by rw [← hk.now, ← hk.armCfg]; exact h.timer

theorem State.SettledAt.of_keeps (h : x.SettledAt t n) (hk : Keeps s x) : s.SettledAt t n where
  closed := h.closed
  ratio := h.ratio
  released := h.released
  timer := by rw [← hk.now, ← hk.armCfg]; exact h.timer
  runs := h.runs

theorem State.toFinish_finishedAt (s : State) (n : ArmId) : s.FinishedAt (s.toFinish n) n where
  closed := by rw [s.toFinish_arm n]; exact ⟨rfl, rfl⟩
  runs := by rw [s.toFinish_arm n, s.toFinish_ratio n]; exact ⟨rfl, rfl, rfl⟩
  timer := by rw [s.toFinish_ratio n]

theorem State.enterSettle_settledAt (s : State) (n : ArmId) : s.SettledAt (s.enterSettle State.examine n) n where
  closed := by rw [s.enterSettle_arm n]; exact ⟨rfl, rfl⟩
  ratio := s.enterSettle_ratio n
  released := by rw [s.enterSettle_resv n]; exact ⟨rfl, rfl⟩
  timer := by rw [s.enterSettle_arm n]
  runs := by rw [s.enterSettle_arm n]; exact ⟨rfl, rfl⟩

/-- A record that has reached its finish point: in SETTLE when the ethanol is closed at once, else in FINISH. -/
structure State.FinishOutcome (s t : State) (n : ArmId) (l l' : Load) (b : Bool) : Prop where
  record : t.active n = some l'
  core : l'.core = l.core
  closes : s.closesAtOnce n l b → l'.phase = some .settle ∧ s.SettledAt t n
  stays : ¬ s.closesAtOnce n l b → l'.phase = some .finish ∧ s.FinishedAt t n

theorem Flows.closesAtOnce_iff {A : ArmId → Prop} (h : Flows A s t) (hcore : l'.core = l.core) :
    t.closesAtOnce n l' b ↔ s.closesAtOnce n l b := by
  have hfraction : t.fraction l' = s.fraction l := by
    rw [h.keeps.fraction, State.fraction, State.fraction, Load.core_recipe hcore]
  rw [State.closesAtOnce, State.closesAtOnce, hfraction, h.keeps.armCfg, Load.deficitOn, Load.deficitOn,
    Load.core_gasNet hcore, Load.core_ethNet hcore]

theorem State.enterFinish_outcome (hl : s.active n = some l) (b : Bool) :
    ∃ l', s.FinishOutcome (s.enterFinish State.examine b n) n l l' b := by
  have hat : (s.toFinish n).active n = some { l with phase := some .finish, upgradePending := none } := by
    rw [s.toFinish_active n, hl, Option.map_some]
  by_cases hcloses : s.closesAtOnce n l b
  · obtain ⟨l', hl', hstill⟩ := State.enterSettle_active hat
    rw [State.enterFinish_closes hl hcloses]
    have hcore := Load.core_of_still hstill
    exact ⟨l', hl', hcore, fun _ => ⟨by rw [Load.eq_of_still hstill]; rfl,
      ((s.toFinish n).enterSettle_settledAt n).of_keeps (s.toFinish_flows n).keeps⟩, fun h => absurd hcloses h⟩
  · rw [State.enterFinish_stays hl hcloses]
    exact ⟨_, hat, rfl, fun h => absurd h hcloses, fun _ => ⟨rfl, s.toFinish_finishedAt n⟩⟩

/-- As an entry to FINISH after moves that kept the record. -/
theorem State.FinishOutcome.of_roams (h : x.FinishOutcome t n l l' b) (hx : Roams s x) {k : Load} (hcore : l.core = k.core) :
    s.FinishOutcome t n k l' b where
  record := h.record
  core := h.core.trans hcore
  closes hc := (h.closes ((hx.closesAtOnce_iff hcore).mpr hc)).imp_right (·.of_keeps hx.keeps)
  stays hc := (h.stays fun hn => hc ((hx.closesAtOnce_iff hcore).mp hn)).imp_right (·.of_keeps hx.keeps)

/-- The outcome of an operation that comes to an entry to FINISH. -/
theorem State.finishOutcome_of_enters (hl : s.active n = some l)
    (h : ∃ x, Roams s x ∧ x.Delivers n ∧ t = x.enterFinish State.examine b n) : ∃ l', s.FinishOutcome t n l l' b := by
  obtain ⟨x, hx, -, rfl⟩ := h
  obtain ⟨k, hk, hcore⟩ := hx.active_some hl
  obtain ⟨l', hout⟩ := State.enterFinish_outcome hk b
  exact ⟨l', hout.of_roams hx hcore⟩

/-! ## TAPER at its arm -/

theorem valveFor_spec {q target deadband db : Nat} (hdb : db = deadband * target / 100) :
    ((q : Int) < target - db → valveFor q target deadband = .openFurther) ∧
    (target + db < q → valveFor q target deadband = .close) ∧
    ((target : Int) - db ≤ q → q ≤ target + db → valveFor q target deadband = .hold) := by
  rw [valveFor]
  subst hdb
  refine ⟨fun h => if_pos (by omega), fun h => ?_, fun h1 h2 => ?_⟩
  · rw [if_neg (by omega), if_pos h]
  · rw [if_neg (by omega), if_neg (by omega)]

/-- An entry to TAPER outside a sample: the valve follows the flow against the new target (R96). -/
theorem State.enterTaper_valve (h : s.phase n = some .high → ∀ r ∈ s.queue, r.arm ≠ n) :
    ((s.enterTaper State.examine true n).arm n).valve = valveFor (s.arm n).qGas
      ((s.enterTaper State.examine true n).arm n).gasTarget (s.armCfg n).deadband := by
  rw [State.enterTaper_arm h, s.toTaper_arm n true]
  rfl

/-! ## The low-start test (R133) -/

/-- What the low-start test makes of a record in LOW without a pending upgrade that has reached its low-start point. -/
structure State.UpgradeAnswered (s t : State) (n : ArmId) (l : Load) (a : Nat) : Prop where
  granted : s.grantedAtOnce a → t.active n = some { l with phase := some .high, upgradePending := none } ∧
    t.queue = s.queue ∧ t.resv n = { s.resv n with level := .high, amount := (s.resv n).amount + a }
  queued : ¬ s.grantedAtOnce a → t.active n = some { l with phase := some .low, upgradePending := some true } ∧
    t.resv n = s.resv n ∧ t.queue = s.queue ++ [⟨n, .upgrade, a⟩]

theorem State.upgradeAsked_eq (s : State) (n : ArmId) (f : Nat) :
    s.upgradeAsked n f = s.ruledAmount n (s.armCfg n).highRate f - (s.resv n).amount := by
  rw [State.upgradeAsked, State.highAmountFor_eq]

theorem State.lowStartTest_answered (hl : s.active n = some l) (hdue : s.lowStartDue n l) :
    s.UpgradeAnswered (s.lowStartTest n) n l (s.upgradeAsked n (s.fraction l)) where
  granted hg := by
    rw [State.lowStartTest_granted hl hdue (State.grantsAtOnce_iff.mpr hg)]
    have hresv : (s.upgraded n (s.fraction l)).resv n = _ := s.modResv_resv_self n _
    refine ⟨?_, rfl, hresv⟩
    rw [State.enterHigh_active, State.upgraded, State.modResv_active, hl, Option.map_some]
  queued hg := by
    rw [State.lowStartTest_queued hl hdue (by rw [← Bool.not_eq_true, State.grantsAtOnce_iff]; exact hg)]
    refine ⟨?_, rfl, rfl⟩
    rw [State.setPhase_active, State.enqueue, State.withQueue_active, hl, Option.map_some]

/-- The low-start test leaves the valve command. -/
theorem State.lowStartTest_valve (s : State) (n : ArmId) : ((s.lowStartTest n).arm n).valve = (s.arm n).valve := by
  cases hl : s.active n with
  | none => rw [State.lowStartTest_none hl]
  | some l =>
    by_cases hdue : s.lowStartDue n l
    · by_cases hgrant : s.grantsAtOnce (s.upgradeAsked n (s.fraction l)) = true
      · rw [State.lowStartTest_granted hl hdue hgrant, State.enterHigh_arm]
        rfl
      · rw [State.lowStartTest_queued hl hdue (by simpa using hgrant)]
        rfl
    · rw [State.lowStartTest_idle hl hdue]

/-! ## The phase of an amended record (R102) -/

section
variable (hl : s.active n = some l)
include hl

theorem State.amended_still (h : flowingPhase l.deliveringPhase = false) : s.amended n = s := by
  rw [State.amended, hl]
  dsimp only
  cases hp : l.deliveringPhase with
  | none => rfl
  | some p =>
    rw [hp] at h
    cases p with
    | low | high | taper => cases h
    | headerWait | finish | settle => rfl

theorem State.amended_compare (h : l.deliveringPhase = some .low ∨ l.deliveringPhase = some .high) :
    s.amended n = s.compareTests State.examine false n := by
  rw [State.amended, hl]
  dsimp only
  rcases h with h | h <;> rw [h]

/-- A record in TAPER that has not reached its taper point returns to LOW. -/
theorem State.amended_untaper (h : l.deliveringPhase = some .taper) (hshort : ¬ s.taperReached n l) : s.amended n =
    (((s.setPhase n .low (some false)).retarget n).lowStartTest n).finishTest State.examine false n := by
  rw [State.amended, hl]
  dsimp only
  rw [h]
  exact if_pos (by rw [← not_le, State.taperPoint_le_iff]; exact hshort)

theorem State.amended_taper (h : l.deliveringPhase = some .taper) (hdue : s.taperReached n l) :
    s.amended n = s.finishTest State.examine false n := by
  rw [State.amended, hl]
  dsimp only
  rw [h]
  exact if_neg (by rw [not_lt, State.taperPoint_le_iff]; exact hdue)

/-- Back in LOW, with the reservation held. -/
theorem State.untapered_active : ((s.setPhase n .low (some false)).retarget n).active n =
    some { l with phase := some .low, upgradePending := some false } := by
  rw [State.retarget, State.modArm_active, State.setPhase_active, hl, Option.map_some]

variable (hflow : flowingPhase l.deliveringPhase = true)
    (hnone : l.deliveringPhase = some .high → ∀ r ∈ s.queue, r.arm ≠ n)
include hflow hnone

theorem State.amended_finish (hdue : s.finishReached n l) : ∃ l', s.FinishOutcome (s.amended n) n l l' false := by
  refine State.finishOutcome_of_enters hl ?_
  rcases flowingPhase_cases hflow with h | h | h
  · rw [State.amended_compare hl (Or.inl h)]
    exact State.compareTests_finish hl hflow hnone false hdue
  · rw [State.amended_compare hl (Or.inr h)]
    exact State.compareTests_finish hl hflow hnone false hdue
  · by_cases htaper : s.taperReached n l
    · rw [State.amended_taper hl h htaper]
      exact State.finishTest_enters hl hflow hdue false
    · rw [State.amended_untaper hl h htaper]
      have hbase := (s.setPhase_flows n .low (some false)).trans (State.retarget_flows _ n)
      have hlow := hbase.trans (State.lowStartTest_flows _ n)
      have hphase : ((s.setPhase n .low (some false)).retarget n).phase n = some .low :=
        State.setPhase_phase (State.delivers_of_flowing (by rwa [State.phase_eq hl])) _ _
      obtain ⟨k, hk, hcore⟩ := hlow.active_some hl
      have hkflow : flowingPhase k.deliveringPhase = true := by
        rw [← State.phase_eq hk]
        exact State.lowStartTest_flowing (by rw [hphase]; rfl)
      obtain ⟨x, hx, hd, heq⟩ := State.finishTest_enters hk hkflow ((hlow.finishReached_iff hcore).mpr hdue) false
      exact ⟨x, hlow.roams.trans hx, hd, heq⟩

theorem State.amended_enterTaper (hdue : ¬ s.finishReached n l) (htaper : s.taperReached n l)
    (hphase : l.deliveringPhase ≠ some .taper) : s.amended n = s.enterTaper State.examine true n := by
  rw [State.amended_compare hl ((flowingPhase_cases hflow).imp_right fun h => h.resolve_right hphase)]
  exact State.compareTests_taper hl hflow hnone false hdue htaper hphase

omit hflow hnone in
theorem State.amended_stays_taper (hdue : ¬ s.finishReached n l) (htaper : s.taperReached n l)
    (hphase : l.deliveringPhase = some .taper) : s.amended n = s := by
  rw [State.amended_taper hl hphase htaper, State.finishTest_idle hl hdue]

omit hflow hnone in
theorem State.amended_short (hdue : ¬ s.finishReached n l) (htaper : ¬ s.taperReached n l)
    (hphase : l.deliveringPhase = some .low ∨ l.deliveringPhase = some .high) : s.amended n = s.lowStartTest n := by
  rw [State.amended_compare hl hphase]
  exact State.compareTests_short hl false hdue (Or.inr htaper)

omit hflow hnone in
theorem State.amended_back (hdue : ¬ s.finishReached n l) (htaper : ¬ s.taperReached n l)
    (hphase : l.deliveringPhase = some .taper) :
    s.amended n = ((s.setPhase n .low (some false)).retarget n).lowStartTest n := by
  have hlow := ((s.setPhase_flows n .low (some false)).trans (State.retarget_flows _ n)).trans
    (State.lowStartTest_flows _ n)
  obtain ⟨k, hk, hcore⟩ := hlow.active_some hl
  rw [State.amended_untaper hl hphase htaper, State.finishTest_idle hk fun h => hdue ((hlow.finishReached_iff hcore).mp h)]

end

end

end Sys2Proof.Machine
end

section
/-! O38: AMEND PRESET, its checks in order and the phase the new preset calls for (R20, R21, R102). -/

namespace Sys2Proof.Machine

section
variable {s t : State} {n : ArmId} {l l' : Load} {p : List Byte}

/-! ## The rows of R102 -/

/-- The low-start point is reached (R85). -/
def State.lowStartReached (s : State) (n : ArmId) (l : Load) : Prop :=
  1000 * (s.armCfg n).lowStart ≤ l.gasGross + l.ethGross

/-- What an amended record in LOW, HIGH or TAPER comes to, with its new preset (R102). -/
structure State.AmendedTo (s t : State) (n : ArmId) (l l' : Load) (asked : Nat) : Prop where
  finish : s.finishReached n l → s.FinishOutcome t n l l' false
  taper : ¬ s.finishReached n l → s.taperReached n l → l'.phase = some .taper ∧
    (l.deliveringPhase = some .high → t.resv n = ⟨.low, (s.resv n).lowAmount, (s.resv n).lowAmount⟩) ∧
    (l.deliveringPhase = some .low → t.resv n = s.resv n ∧ ∀ r ∈ t.queue, r.arm ≠ n) ∧
    (l.deliveringPhase = some .taper → t = s) ∧
    (l.deliveringPhase ≠ some .taper →
      (t.arm n).valve = valveFor (s.arm n).qGas (t.arm n).gasTarget (s.armCfg n).deadband)
  still : ¬ s.finishReached n l → ¬ s.taperReached n l → l.deliveringPhase = some .high ∨
    (l.deliveringPhase = some .low ∧ (l.upgradePending ≠ some false ∨ ¬ s.lowStartReached n l)) → t = s
  back : ¬ s.finishReached n l → ¬ s.taperReached n l → l.deliveringPhase = some .taper →
    (t.arm n).valve = (s.arm n).valve ∧ (¬ s.lowStartReached n l → l'.phase = some .low ∧ l'.upgradePending = some false ∧
      t.resv n = s.resv n ∧ t.queue = s.queue)
  upgrade : ¬ s.finishReached n l → ¬ s.taperReached n l → l.deliveringPhase = some .taper ∨
      (l.deliveringPhase = some .low ∧ l.upgradePending = some false) → s.lowStartReached n l →
    (s.grantedAtOnce asked → l'.phase = some .high ∧ t.queue = s.queue ∧
      t.resv n = { s.resv n with level := .high, amount := (s.resv n).amount + asked }) ∧
    (¬ s.grantedAtOnce asked → l'.phase = some .low ∧ l'.upgradePending = some true ∧
      t.resv n = s.resv n ∧ t.queue = s.queue ++ [⟨n, .upgrade, asked⟩])
  flowing : ¬ s.finishReached n l → flowingPhase l'.deliveringPhase = true

/-- What an answered upgrade makes of the record's phase. -/
theorem State.UpgradeAnswered.phases {a : Nat} (h : s.UpgradeAnswered t n l a) (hl' : t.active n = some l') :
    (s.grantedAtOnce a → l'.phase = some .high ∧ t.queue = s.queue ∧
      t.resv n = { s.resv n with level := .high, amount := (s.resv n).amount + a }) ∧
    (¬ s.grantedAtOnce a → l'.phase = some .low ∧ l'.upgradePending = some true ∧
      t.resv n = s.resv n ∧ t.queue = s.queue ++ [⟨n, .upgrade, a⟩]) := by
  refine ⟨fun hg => ?_, fun hg => ?_⟩
  · obtain ⟨hactive, hqueue, hresv⟩ := h.granted hg
    rw [hl', Option.some.injEq] at hactive
    rw [hactive]
    exact ⟨rfl, hqueue, hresv⟩
  · obtain ⟨hactive, hresv, hqueue⟩ := h.queued hg
    rw [hl', Option.some.injEq] at hactive
    rw [hactive]
    exact ⟨rfl, rfl, hresv, hqueue⟩

section
variable (hl : s.active n = some l) (hflow : flowingPhase l.deliveringPhase = true)
    (hnone : l.deliveringPhase = some .high → ∀ r ∈ s.queue, r.arm ≠ n) (hl' : (s.amended n).active n = some l')
include hl hflow hnone hl'

theorem State.amended_taperRow (hfinish : ¬ s.finishReached n l) (htaper : s.taperReached n l) :
    l'.phase = some .taper ∧
    (l.deliveringPhase = some .high →
      (s.amended n).resv n = ⟨.low, (s.resv n).lowAmount, (s.resv n).lowAmount⟩) ∧
    (l.deliveringPhase = some .low → (s.amended n).resv n = s.resv n ∧ ∀ r ∈ (s.amended n).queue, r.arm ≠ n) ∧
    (l.deliveringPhase = some .taper → s.amended n = s) ∧
    (l.deliveringPhase ≠ some .taper → ((s.amended n).arm n).valve =
      valveFor (s.arm n).qGas ((s.amended n).arm n).gasTarget (s.armCfg n).deadband) := by
  by_cases hphase : l.deliveringPhase = some .taper
  · have hstays := State.amended_stays_taper hl hfinish htaper hphase
    rw [hstays, hl, Option.some.injEq] at hl'
    refine ⟨?_, fun h => ?_, fun h => ?_, fun _ => hstays, fun h => absurd hphase h⟩
    · rw [← hl']
      exact (Load.delivering_of_phase hphase).2
    · rw [hphase] at h
      cases h
    · rw [hphase] at h
      cases h
  · have hat : s.phase n = l.deliveringPhase := State.phase_eq hl
    have hnot : s.phase n = some .high → ∀ r ∈ s.queue, r.arm ≠ n := fun h => hnone (hat ▸ h)
    rw [State.amended_enterTaper hl hflow hnone hfinish htaper hphase] at hl' ⊢
    rw [State.enterTaper_active hnot, hl, Option.map_some, Option.some.injEq] at hl'
    refine ⟨by rw [← hl'], fun h => ?_, fun h => ⟨?_, State.enterTaper_notQueued hnot true⟩, fun h => absurd h hphase,
      fun _ => State.enterTaper_valve hnot⟩
    · rw [State.enterTaper_resv hnot, if_pos (hat.trans h)]
    · rw [State.enterTaper_resv hnot, if_neg (by rw [hat, h]; decide)]

omit hflow hnone hl' in
theorem State.amended_stillRow (hfinish : ¬ s.finishReached n l) (htaper : ¬ s.taperReached n l)
    (h : l.deliveringPhase = some .high ∨
      (l.deliveringPhase = some .low ∧ (l.upgradePending ≠ some false ∨ ¬ s.lowStartReached n l))) : s.amended n = s := by
  rw [State.amended_short hl hfinish htaper (h.symm.imp_left And.left), State.lowStartTest_idle hl]
  rintro ⟨hlow, hpending, hreached⟩
  rcases h with h | ⟨-, h | h⟩
  · rw [h] at hlow
    cases hlow
  · exact h hpending
  · exact h hreached

omit hflow hnone in
theorem State.amended_backRow (hfinish : ¬ s.finishReached n l) (htaper : ¬ s.taperReached n l)
    (hphase : l.deliveringPhase = some .taper) : ((s.amended n).arm n).valve = (s.arm n).valve ∧
      (¬ s.lowStartReached n l → l'.phase = some .low ∧ l'.upgradePending = some false ∧
        (s.amended n).resv n = s.resv n ∧ (s.amended n).queue = s.queue) := by
  have hback := State.untapered_active hl
  rw [State.amended_back hl hfinish htaper hphase] at hl' ⊢
  refine ⟨?_, fun hnot => ?_⟩
  · rw [State.lowStartTest_valve, State.retarget, State.modArm_arm_self]
    rfl
  · have hidle := State.lowStartTest_idle hback fun h => hnot h.2.2
    rw [hidle] at hl' ⊢
    rw [hback, Option.some.injEq] at hl'
    rw [← hl']
    exact ⟨rfl, rfl, rfl, rfl⟩

omit hflow hnone in
theorem State.amended_upgradeRow (hfinish : ¬ s.finishReached n l) (htaper : ¬ s.taperReached n l)
    (h : l.deliveringPhase = some .taper ∨ (l.deliveringPhase = some .low ∧ l.upgradePending = some false))
    (hreached : s.lowStartReached n l) :
    (s.grantedAtOnce (s.upgradeAsked n (s.fraction l)) → l'.phase = some .high ∧ (s.amended n).queue = s.queue ∧
      (s.amended n).resv n =
        { s.resv n with level := .high, amount := (s.resv n).amount + s.upgradeAsked n (s.fraction l) }) ∧
    (¬ s.grantedAtOnce (s.upgradeAsked n (s.fraction l)) → l'.phase = some .low ∧ l'.upgradePending = some true ∧
      (s.amended n).resv n = s.resv n ∧
      (s.amended n).queue = s.queue ++ [⟨n, .upgrade, s.upgradeAsked n (s.fraction l)⟩]) := by
  rcases h with hphase | ⟨hphase, hpending⟩
  · have hback := State.untapered_active hl
    rw [State.amended_back hl hfinish htaper hphase] at hl' ⊢
    have hstate : l.state = .delivering := (Load.delivering_of_phase hphase).1
    exact (State.lowStartTest_answered hback ⟨if_pos hstate, rfl, hreached⟩).phases hl'
  · rw [State.amended_short hl hfinish htaper (Or.inl hphase)] at hl' ⊢
    exact (State.lowStartTest_answered hl ⟨hphase, hpending, hreached⟩).phases hl'

theorem State.amended_flowing (hfinish : ¬ s.finishReached n l) : flowingPhase l'.deliveringPhase = true := by
  have hat : s.phase n = l.deliveringPhase := State.phase_eq hl
  have hsflow : flowingPhase (s.phase n) = true := by rwa [hat]
  rw [← State.phase_eq hl']
  by_cases htaper : s.taperReached n l
  · by_cases hphase : l.deliveringPhase = some .taper
    · rwa [State.amended_stays_taper hl hfinish htaper hphase]
    · rw [State.amended_enterTaper hl hflow hnone hfinish htaper hphase,
        State.enterTaper_taper (fun h => hnone (hat ▸ h)) true (State.delivers_of_flowing hsflow)]
      rfl
  · by_cases hphase : l.deliveringPhase = some .taper
    · rw [State.amended_back hl hfinish htaper hphase]
      have hlow : ((s.setPhase n .low (some false)).retarget n).phase n = some .low :=
        State.setPhase_phase (State.delivers_of_flowing hsflow) _ _
      exact State.lowStartTest_flowing (by rw [hlow]; rfl)
    · rw [State.amended_short hl hfinish htaper ((flowingPhase_cases hflow).imp_right fun h => h.resolve_right hphase)]
      exact State.lowStartTest_flowing hsflow

theorem State.amended_amendedTo : s.AmendedTo (s.amended n) n l l' (s.upgradeAsked n (s.fraction l)) where
  finish h := by
    obtain ⟨k, hout⟩ := State.amended_finish hl hflow hnone h
    have hsame : k = l' := Option.some.inj (hout.record.symm.trans hl')
    rwa [← hsame]
  taper := State.amended_taperRow hl hflow hnone hl'
  still := State.amended_stillRow hl
  back := State.amended_backRow hl hl'
  upgrade := State.amended_upgradeRow hl hl'
  flowing := State.amended_flowing hl hflow hnone hl'

end

/-! ## The request -/

section
variable (hs : s.Accepts) (hp : p.length = 4)
include hs hp

theorem exec_amendPreset_refused {r : Result}
    (h : (s.receiveGood false).answerAmend p = .refuse (s.receiveGood false) r) :
    exec (.amendPreset p) s = .next (s.refusedAs 0x14 r) := by
  show execAmendPreset p s = _
  rw [execAmendPreset, fitsLength_of_length hp,
    State.takeRequest_of_answer (owner := (·.answerAmend p)) hs (frameExists_of_length hp (by decide)) h]
  rfl

theorem exec_amendPreset (h : (s.withLink (s.linkReceived false)).answerAmend p = .ok t (t.amendReply l'.number))
    (hlink : t.link = s.linkReceived false) (hl' : t.load? l'.number = some l') : exec (.amendPreset p) s =
      .next (t.withLink (s.linkAnswered 0x14 .ok
        (be16 l'.number ++ be16 l'.preset ++ byte1 (phaseCode l'.deliveringPhase)))) := by
  show execAmendPreset p s = _
  rw [execAmendPreset, fitsLength_of_length hp, State.takeRequest_of_effect (t := t) (r := .ok)
    (payload := t.amendReply l'.number) (owner := (·.answerAmend p)) hs (frameExists_of_length hp (by decide)) h hlink,
    State.amendReply, hl']

end

section
variable (hne : fieldAt p 0 2 ≠ 0) (hlow : 50 ≤ fieldAt p 2 2) (hhigh : fieldAt p 2 2 ≤ 40000)
include hne hlow hhigh

omit hne in
theorem State.answerAmend_inRange : s.answerAmend p = s.forLoad (fieldAt p 0 2) fun l =>
    if l.pastAmending then .refuse s .wrongState
    else if s.tooLow l (fieldAt p 2 2) then .refuse s .tooLow
    else .ok (s.amendPreset l (fieldAt p 2 2)) ((s.amendPreset l (fieldAt p 2 2)).amendReply l.number) := by
  rw [State.answerAmend]
  exact if_neg (by omega)

variable (hload : s.load? (fieldAt p 0 2) = some l)
include hload

theorem State.answerAmend_found : s.answerAmend p = if l.pastAmending then .refuse s .wrongState
    else if s.tooLow l (fieldAt p 2 2) then .refuse s .tooLow
    else .ok (s.amendPreset l (fieldAt p 2 2)) ((s.amendPreset l (fieldAt p 2 2)).amendReply l.number) := by
  rw [State.answerAmend_inRange hlow hhigh, State.forLoad_found hne hload]

theorem State.answerAmend_takes (hpast : l.pastAmending = false)
    (hroom : l.gasGross + l.ethGross + (s.arm l.arm).history.current ≤ 1000 * fieldAt p 2 2) :
    s.answerAmend p =
      .ok (s.amendPreset l (fieldAt p 2 2)) ((s.amendPreset l (fieldAt p 2 2)).amendReply l.number) := by
  have htoo : s.tooLow l (fieldAt p 2 2) = false := decide_eq_false (by rw [Load.totalGross]; omega)
  rw [State.answerAmend_found hne hlow hhigh hload, hpast, htoo]
  rfl

end

theorem Load.pastAmending_iff : l.pastAmending = true ↔
    l.state = .ended ∨ l.deliveringPhase = some .finish ∨ l.deliveringPhase = some .settle := by
  simp [Load.pastAmending, or_assoc]

/-! ## The new preset in the table -/

theorem State.load?_number {k : Nat} (h : s.load? k = some l) : l.number = k := by
  rw [State.load?] at h
  have hfound := List.find?_some h
  exact beq_iff_eq.mp hfound


/-- The record with a new preset. -/
def Load.withPreset (l : Load) (preset : Nat) : Load := { l with preset := preset }

theorem State.amendPreset_load? (hload : s.load? l.number = some l) (preset : Nat) :
    (s.modLoad l.number (Load.withPreset · preset)).load? l.number = some (l.withPreset preset) := by
  rw [State.modLoad_load? (fun _ => by rfl), if_pos rfl, hload, Option.map_some]

theorem State.amendPreset_active (hl : s.active n = some l) (preset : Nat) :
    (s.modLoad l.number (Load.withPreset · preset)).active n = some (l.withPreset preset) := by
  rw [State.modLoad_active (fun _ => by rfl) (fun _ => by rfl), hl, Option.map_some]
  simp

/-- A record that does not flow has its preset changed and nothing else. -/
theorem State.amendPreset_still (hn : s.ListsOk) (hload : s.load? l.number = some l)
    (hflow : flowingPhase l.deliveringPhase = false) (preset : Nat) :
    s.amendPreset l preset = s.modLoad l.number (Load.withPreset · preset) := by
  rw [State.amendPreset]
  by_cases hstate : l.state = .delivering
  · have hactive := hn.active_of_mem (List.mem_of_find?_eq_some hload) (Load.isActive_iff.mpr (Or.inr (Or.inl hstate)))
    exact (if_pos hstate).trans (State.amended_still (State.amendPreset_active hactive preset) hflow)
  · exact if_neg hstate

theorem State.amendPreset_flows (hstate : l.state = .delivering) (preset : Nat) :
    s.amendPreset l preset = (s.modLoad l.number (Load.withPreset · preset)).amended l.arm := if_pos hstate

/-- What a new preset leaves of a record, wherever it moves. -/
theorem Load.kept_of_withPreset {preset : Nat} (h : l'.core = (l.withPreset preset).core) : l'.number = l.number ∧
    l'.preset = preset ∧ l'.state = l.state ∧ l'.gasGross = l.gasGross ∧ l'.gasNet = l.gasNet ∧ l'.ethGross = l.ethGross ∧
    l'.ethNet = l.ethNet ∧ l'.holdCount = l.holdCount ∧ l'.abortTaken = l.abortTaken := by
  obtain ⟨k, hk⟩ : ∃ k, k = l.withPreset preset := ⟨_, rfl⟩
  rw [← hk] at h
  have hkept : k.number = l.number ∧ k.preset = preset ∧ k.state = l.state ∧ k.gasGross = l.gasGross ∧
      k.gasNet = l.gasNet ∧ k.ethGross = l.ethGross ∧ k.ethNet = l.ethNet ∧ k.holdCount = l.holdCount ∧
      k.abortTaken = l.abortTaken := by
    rw [hk]
    exact ⟨rfl, rfl, rfl, rfl, rfl, rfl, rfl, rfl, rfl⟩
  rwa [Load.core_number h, Load.core_preset h, Load.core_state h, Load.core_gasGross h, Load.core_gasNet h,
    Load.core_ethGross h, Load.core_ethNet h, Load.core_holdCount h, Load.core_abortTaken h]

/-- Settles O38. -/
theorem amendmentMovesThePreset : Obligations.AmendmentMovesThePreset := by
  rintro p n f asked l finish taper lowStart closes s hs hok hp rfl rfl rfl hfin htap hlst hcls
  refine ⟨fun hbad => ?_, fun hne hlo hhi => ⟨fun hnone => ?_, fun hload => ⟨fun hpast => ?_, fun h1 h2 h3 =>
    ⟨fun htoo => ?_, fun hroom => ?_⟩⟩⟩⟩
  · refine exec_amendPreset_refused hs hp ?_
    rw [State.answerAmend]
    by_cases hrange : fieldAt p 2 2 < 50 ∨ 40000 < fieldAt p 2 2
    · exact if_pos hrange
    · exact (if_neg hrange).trans (State.forLoad_badField (by omega))
  · exact exec_amendPreset_refused hs hp ((State.answerAmend_inRange hlo hhi).trans (State.forLoad_notFound hne hnone))
  · exact exec_amendPreset_refused hs hp
      ((State.answerAmend_found (s := s.receiveGood false) hne hlo hhi hload).trans (if_pos (Load.pastAmending_iff.mpr hpast)))
  · have hnot : ¬ l.pastAmending = true := fun h => by
      rcases Load.pastAmending_iff.mp h with h | h | h
      · exact h1 h
      · exact h2 h
      · exact h3 h
    exact exec_amendPreset_refused hs hp ((State.answerAmend_found (s := s.receiveGood false) hne hlo hhi hload).trans
      ((if_neg hnot).trans (if_pos (decide_eq_true htoo))))
  · have hnumber : fieldAt p 0 2 = l.number := (State.load?_number hload).symm
    rw [hnumber] at hload
    obtain ⟨u, hu⟩ : ∃ u, u = s.withLink (s.linkReceived false) := ⟨_, rfl⟩
    have hlists : u.ListsOk := by rw [hu]; exact ⟨hok.lists.oneActive, hok.lists.threeStaged, hok.lists.order⟩
    have huload : u.load? l.number = some l := by rw [hu]; exact hload
    have hanswer := State.answerAmend_takes (s := u) hne hlo hhi (by rw [hnumber]; exact huload)
      (by rw [← Bool.not_eq_true, Load.pastAmending_iff]; tauto) (by rw [hu]; exact hroom)
    have hlink : (u.amendPreset l (fieldAt p 2 2)).link = s.linkReceived false := by
      rw [(u.amendPreset_keeps l _).link, hu]
      rfl
    rw [hu] at hanswer
    by_cases hflow : flowingPhase l.deliveringPhase = true
    · have hphase : ∃ q, l.deliveringPhase = some q := by
        rcases flowingPhase_cases hflow with h | h | h
        · exact ⟨_, h⟩
        · exact ⟨_, h⟩
        · exact ⟨_, h⟩
      obtain ⟨q, hq⟩ := hphase
      have hstate := (Load.delivering_of_phase hq).1
      have hactive : s.active l.arm = some l := hok.lists.active_of_mem (List.mem_of_find?_eq_some hload)
        (Load.isActive_iff.mpr (Or.inr (Or.inl hstate)))
      obtain ⟨w, hw⟩ : ∃ w, w = u.modLoad l.number (Load.withPreset · (fieldAt p 2 2)) := ⟨_, rfl⟩
      obtain ⟨v, hv⟩ : ∃ v, v = w.amended l.arm := ⟨_, rfl⟩
      have hamend : u.amendPreset l (fieldAt p 2 2) = v := by rw [hv, hw, State.amendPreset_flows hstate]
      have hwactive : w.active l.arm = some (l.withPreset (fieldAt p 2 2)) := by
        rw [hw]
        exact State.amendPreset_active (by rw [hu]; exact hactive) _
      have hwqueue : w.queue = s.queue := by rw [hw, hu]; rfl
      have hnone : l.deliveringPhase = some .high → ∀ r ∈ w.queue, r.arm ≠ l.arm := by
        intro h
        rw [hwqueue]
        rw [← State.phase_eq hactive] at h
        exact hok.inv.notQueued_of_phase (by rw [h]; decide) (by rw [h]; decide)
      have hroams : Roams w v := by
        rw [hv]
        exact w.amended_roams l.arm
      obtain ⟨l', hl', hcore⟩ := hroams.active_some hwactive
      have hrows : w.AmendedTo v l.arm (l.withPreset (fieldAt p 2 2)) l'
          (w.upgradeAsked l.arm (w.fraction (l.withPreset (fieldAt p 2 2)))) := by
        rw [hv] at hl' ⊢
        exact State.amended_amendedTo hwactive hflow hnone hl'
      have hasked : w.upgradeAsked l.arm (w.fraction (l.withPreset (fieldAt p 2 2))) =
          s.ruledAmount l.arm (s.armCfg l.arm).highRate (s.fraction l) - (s.resv l.arm).amount := by
        rw [State.upgradeAsked_eq, hw, hu]
        rfl
      rw [hasked] at hrows
      have hclosed : closes ↔ w.closesAtOnce l.arm (l.withPreset (fieldAt p 2 2)) false := by
        rw [hcls, hw, hu]
        exact or_congr_right ⟨fun h => ⟨rfl, h⟩, fun h => h.2⟩
      obtain ⟨hsame, hpreset, hstate', hgas, hgasNet, heth, hethNet, hholds, habort⟩ := Load.kept_of_withPreset hcore
      have hlstate : l'.state = .delivering := hstate'.trans hstate
      have hload' : v.load? l'.number = some l' := by
        refine State.load?_of_active ?_ hl'
        rw [← hamend]
        exact (u.amendPreset_keeps l _).numbers (by rw [hu]; exact hok.tables.loadNumbers)
      rw [← hu, hamend, ← hsame] at hanswer
      rw [hamend] at hlink
      have hexec := exec_amendPreset hs hp (by rw [← hu]; exact hanswer) hlink hload'
      rw [hsame, hpreset] at hexec
      rw [hsame] at hload'
      have hdue : finish ↔ w.finishReached l.arm (l.withPreset (fieldAt p 2 2)) := by rw [hfin, hw, hu]; rfl
      have hout (h : flowingPhase l.deliveringPhase = true) : (l'.phase = some .finish → w.FinishedAt v l.arm) ∧
          (l'.phase = some .settle → w.SettledAt v l.arm) := by
        by_cases hf : finish
        · have hfinish := hrows.finish (hdue.mp hf)
          by_cases hc : closes
          · obtain ⟨hat, hsettled⟩ := hfinish.closes (hclosed.mp hc)
            rw [hat]
            exact ⟨nofun, fun _ => hsettled⟩
          · obtain ⟨hat, hfinished⟩ := hfinish.stays fun h => hc (hclosed.mpr h)
            rw [hat]
            exact ⟨fun _ => hfinished, nofun⟩
        · have hflowing := hrows.flowing fun h => hf (hdue.mpr h)
          rw [Load.deliveringPhase_delivering hlstate] at hflowing
          refine ⟨fun h => ?_, fun h => ?_⟩
          · rw [h] at hflowing
            cases hflowing
          · rw [h] at hflowing
            cases hflowing
      have htaper : taper ↔ w.taperReached l.arm (l.withPreset (fieldAt p 2 2)) := by rw [htap, hw, hu]; rfl
      have hlow : lowStart ↔ w.lowStartReached l.arm (l.withPreset (fieldAt p 2 2)) := by rw [hlst, hw, hu]; rfl
      subst hw
      subst hu
      refine ⟨_, l', hexec, hload', hpreset, hstate', hgas, hgasNet, heth, hethNet, hholds, habort,
        fun h => ?_, fun _ hf => ⟨fun hc => ((hrows.finish (hdue.mp hf)).closes (hclosed.mp hc)).1,
          fun hc => ((hrows.finish (hdue.mp hf)).stays fun h => hc (hclosed.mpr h)).1⟩, fun _ hf ht => ?_,
        fun hf ht h => ?_, fun hf ht h => ?_, fun hf ht h hls => ?_, fun h hat => ?_, fun h hat => ?_, ?_, ?_⟩
      · rw [h] at hflow
        cases hflow
      · obtain ⟨hat, hhigh, hlowrow, hstay, hvalve⟩ := hrows.taper (fun h => hf (hdue.mpr h)) (htaper.mp ht)
        refine ⟨hat, hhigh, hlowrow, fun h => ?_, fun h q target db hq htarget hdb => ?_⟩
        · rw [hstay h]
          rfl
        · have hdecided : (v.arm l.arm).valve = valveFor q target (s.armCfg l.arm).deadband := by
            rw [hq, htarget]
            exact hvalve h
          have hspec := valveFor_spec (q := q) hdb
          rw [← hdecided] at hspec
          exact hspec
      · have hstay := hrows.still (fun h => hf (hdue.mpr h)) (fun h => ht (htaper.mpr h))
          (h.imp_right fun h => h.imp_right fun h => h.imp_right fun h hls => h (hlow.mpr hls))
        rw [hstay, hwactive, Option.some.injEq] at hl'
        refine ⟨hl'.symm, ?_⟩
        rw [hstay]
        rfl
      · obtain ⟨hvalve, hback⟩ := hrows.back (fun h => hf (hdue.mpr h)) (fun h => ht (htaper.mpr h)) h
        exact ⟨hvalve, fun hls => hback fun h => hls (hlow.mpr h)⟩
      · exact hrows.upgrade (fun h => hf (hdue.mpr h)) (fun h => ht (htaper.mpr h)) h (hlow.mp hls)
      · obtain ⟨⟨hvalve, htarget⟩, ⟨hgasRun, hethRun, hdevRun⟩, htimer⟩ := (hout h).1 hat
        exact ⟨hvalve, htarget, hgasRun, hethRun, hdevRun, htimer⟩
      · obtain ⟨⟨hvalve, htarget⟩, hratio, ⟨hlevel, hamount⟩, htimer⟩ := (hout h).2 hat
        exact ⟨hvalve, htarget, hratio, hlevel, hamount, htimer⟩
      · rfl
      · have heq := congrArg (State.withLink · (s.linkAnswered 0x14 .ok
          (be16 l.number ++ be16 (fieldAt p 2 2) ++ byte1 (phaseCode l'.deliveringPhase)))) hroams.movesOnly.eq
        exact heq
    · have hflow : flowingPhase l.deliveringPhase = false := by simpa using hflow
      have hstill := State.amendPreset_still hlists huload hflow (fieldAt p 2 2)
      have hl' : (u.amendPreset l (fieldAt p 2 2)).load? (l.withPreset (fieldAt p 2 2)).number =
          some (l.withPreset (fieldAt p 2 2)) := by
        rw [hstill]
        exact State.amendPreset_load? huload _
      have hexec := exec_amendPreset hs hp (l' := l.withPreset (fieldAt p 2 2)) hanswer (by rw [← hu]; exact hlink)
        (by rw [← hu]; exact hl')
      have hno {q : Option Phase} (hq : l.deliveringPhase = q) (hqflow : flowingPhase q = true) : False := by
        rw [hq, hqflow] at hflow
        cases hflow
      have hnot : ¬ flowingPhase l.deliveringPhase = true := by rw [hflow]; decide
      rw [← hu, hstill, hu] at hexec
      refine ⟨_, l.withPreset (fieldAt p 2 2), hexec, State.amendPreset_load? hload _, rfl, rfl, rfl, rfl, rfl, rfl, rfl,
        rfl, fun _ => ⟨rfl, rfl⟩, fun h => absurd h hnot, fun h => absurd h hnot, fun _ _ h => ?_, fun _ _ h => ?_,
        fun _ _ h => ?_, fun h => absurd h hnot, fun h => absurd h hnot, rfl, rfl⟩
      · rcases h with h | h
        · exact (hno h rfl).elim
        · exact (hno h.1 rfl).elim
      · exact (hno h rfl).elim
      · rcases h with h | h
        · exact (hno h rfl).elim
        · exact (hno h.1 rfl).elim

end

end Sys2Proof.Machine
end

section
/-! The refutation of O32: its last clause speaks of the strokes in flight before the sample, and a sample that tapers
its arm can start another arm's stroke on a shared injector before the additives are compared (R135, R150, R154). -/

namespace Sys2Proof.Machine

/-- Load 7 in HIGH on arm 1, at its taper point, with four strokes due by its total net at the sample. -/
def taperingLoad : Load :=
  { Load.staged 7 0 12 8000 [⟨3, 0, 1900000, 0, 0, 0, 0⟩] with
    state := .delivering, phase := some .high, abortTaken := some false
    gasGross := 6840000, gasNet := 6840000, ethGross := 760000, ethNet := 760000 }

/-- Load 8 in HEADER_WAIT on arm 2, bound to the same injector with a stroke due. -/
def waitingLoad : Load :=
  { Load.staged 8 1 12 8000 [⟨3, 0, 1000, 1, 0, 0, 0⟩] with
    state := .delivering, phase := some .headerWait, abortTaken := some false }

/-- Arm 1 holds 293 of the header's 300 L/min and arm 2 waits for 48; injector 1 is IDLE and still names load 7. -/
def sharedInjector : State :=
  { State.reset with
    store := { Store.reset with mode := .running, startTimer := none }
    settings :=
      { Settings.default with
        injectors := Settings.default.injectors.set 0 { InjSettings.default with arm := 1, code := 3 }
        station := { StationSettings.default with capacity := 300 } }
    levels := ⟨true, true, true, true, true, true, Vector.replicate 8 true⟩
    channels := Vector.replicate 16 ⟨some ⟨2450, true, 0⟩, some 2450, some 0, 3⟩
    arms := Vector.replicate 8 { ArmSeq.start (History.all 15000) with mode := .available, sampleClock := some 50 }
    loads := [taperingLoad, waitingLoad]
    recipes := [⟨12, .active, 100, 5, [⟨3, 250⟩], 2⟩]
    reservations := (State.reset.reservations.set 0 ⟨.high, 293, 48⟩).set 1 ⟨.none, 0, 48⟩
    queue := [⟨1, .low, 48⟩]
    injectors := State.reset.injectors.set 0 { Injector.start with state := .idle, mask := false, stroke := some ⟨some 7⟩ } }

theorem sharedInjector_deliveryOk : sharedInjector.DeliveryOk where
  tables := ⟨by decide, by decide, by decide, by decide, by decide, by decide, by decide⟩
  lists := ⟨by decide, by decide, by decide⟩
  stopped := by decide
  oneRequest := by decide
  requests := by decide
  permitted := by decide
  valve := by decide
  setpoint := by decide

/-- The state after the sample of arm 1. -/
def sharedInjectorSampled : State :=
  ((sharedInjector.reach 50).modArm 0 fun a => { a with sampleClock := some 150 }).sample 0

theorem sharedInjector_exec : exec (.sampleEvent 0) sharedInjector = .next sharedInjectorSampled := rfl

/-- Load 7 as the sample leaves it: in TAPER it was held by ADD_SHORT, with four strokes due and none verified. -/
def shortLoad : Load :=
  { taperingLoad with
    state := .held, phase := none, abortTaken := none, entries := [⟨3, 0, 1900000, 4, 0, 0, 0⟩]
    holdCount := 1, lastCause := some .alarm, holdTimer := some 1200050 }

theorem sharedInjectorSampled_outcome : sharedInjectorSampled.active 0 = some shortLoad ∧
    AlarmKind.addShort ∈ (sharedInjectorSampled.alarm 0).latched ∧
    (sharedInjectorSampled.injector 0).stroke = some ⟨some 8⟩ := by decide

/-- Refutes O32: before the sample the injector names load 7, which is not behind by the count of strokes in flight
then; the sample's taper grants arm 2, whose issue takes the injector over, and load 7 is one stroke further behind
when its additives are compared. -/
theorem not_sampleIssuesTheStrokesDue : ¬ Obligations.SampleIssuesTheStrokesDue := by
  rintro ⟨-, h⟩
  obtain ⟨hactive, hlatched, -⟩ := sharedInjectorSampled_outcome
  have hinto := (h 0 50 50 taperingLoad shortLoad False sharedInjector sharedInjectorSampled sharedInjector_deliveryOk
    (by decide) (by decide) (by decide) (by decide) sharedInjector_exec hactive (by decide)
    (iff_of_false id (by decide))).2.2 hlatched
  rcases hinto with hbefore | ⟨-, hbehind⟩
  · exact absurd hbefore (by decide)
  · exact hbehind

end Sys2Proof.Machine
end

section
/-! SUPPORT. A sample at its arm: what all its stages carry on, what they latch, and the stages of a record that does not
blend, which leave its arm at rest (R84, R113, R153, R169). -/

namespace Sys2Proof.Machine

section
variable {s t u : State} {n m : ArmId} {l l' : Load}

/-! ## What a sample's stages carry on -/

/-- A record but for what detections, holds, moves and strokes change of it. -/
def Load.tally (l : Load) : Load :=
  { l.core with
    state := .ready, abortTaken := none, holdCount := 0, lastCause := none, holdTimer := none
    flags := { l.flags with finishCut := false } }

/-- A sequencer but for what detections, holds and moves change of it. -/
def ArmSeq.tally (a : ArmSeq) : ArmSeq := { a.core with stalled := none, holdDrain := 0 }

theorem Load.tally_core (l : Load) : l.core.tally = l.tally := by
  have hidem : l.core.core = l.core := l.core_entries ((List.map_map ..).trans (List.map_congr_left fun _ _ => rfl))
  rw [Load.tally, hidem]
  rfl

theorem Load.tally_of_core (h : l'.core = l.core) : l'.tally = l.tally := by
  rw [← Load.tally_core l', h, Load.tally_core]

theorem Load.settled_cutBy_tally (l : Load) (c : HoldCause) : (l.cutBy c).settled.tally = l.tally := rfl

section
variable (h : l'.tally = l.tally)
include h

theorem Load.tally_number : l'.number = l.number := show l'.tally.number = l.tally.number from congrArg Load.number h
theorem Load.tally_recipe : l'.recipe = l.recipe := show l'.tally.recipe = l.tally.recipe from congrArg Load.recipe h
theorem Load.tally_preset : l'.preset = l.preset := show l'.tally.preset = l.tally.preset from congrArg Load.preset h
theorem Load.tally_gasGross : l'.gasGross = l.gasGross :=
  show l'.tally.gasGross = l.tally.gasGross from congrArg Load.gasGross h
theorem Load.tally_gasNet : l'.gasNet = l.gasNet := show l'.tally.gasNet = l.tally.gasNet from congrArg Load.gasNet h
theorem Load.tally_ethGross : l'.ethGross = l.ethGross :=
  show l'.tally.ethGross = l.tally.ethGross from congrArg Load.ethGross h
theorem Load.tally_ethNet : l'.ethNet = l.ethNet := show l'.tally.ethNet = l.tally.ethNet from congrArg Load.ethNet h
theorem Load.tally_temps : l'.gasTempSum = l.gasTempSum ∧ l'.ethTempSum = l.ethTempSum ∧
    l'.gasAverage = l.gasAverage ∧ l'.ethAverage = l.ethAverage :=
  ⟨show l'.tally.gasTempSum = l.tally.gasTempSum from congrArg Load.gasTempSum h,
    show l'.tally.ethTempSum = l.tally.ethTempSum from congrArg Load.ethTempSum h,
    show l'.tally.gasAverage = l.tally.gasAverage from congrArg Load.gasAverage h,
    show l'.tally.ethAverage = l.tally.ethAverage from congrArg Load.ethAverage h⟩
theorem Load.tally_tempHeld : l'.flags.tempHeld = l.flags.tempHeld :=
  show l'.tally.flags.tempHeld = l.tally.flags.tempHeld from congrArg (fun x : Load => x.flags.tempHeld) h

end

/-- The meters, the record's tally and the arm's sample clock, flow rates and history are as they were. -/
structure Carries (n : ArmId) (s t : State) : Prop where
  keeps : Keeps s t
  meters : t.meters = s.meters
  arm : (t.arm n).tally = (s.arm n).tally
  record : (t.active n).map Load.tally = (s.active n).map Load.tally

theorem Carries.refl (n : ArmId) (s : State) : Carries n s s := ⟨.refl s, rfl, rfl, rfl⟩

theorem Carries.trans (h : Carries n s t) (k : Carries n t u) : Carries n s u :=
  ⟨h.keeps.trans k.keeps, k.meters.trans h.meters, k.arm.trans h.arm, k.record.trans h.record⟩

theorem Carries.ite {c : Prop} [Decidable c] (h : Carries n s t) (k : Carries n s u) :
    Carries n s (if c then t else u) := by
  split
  · exact h
  · exact k

theorem Carries.active_some (h : Carries n s t) (hl : s.active n = some l) :
    ∃ l', t.active n = some l' ∧ l'.tally = l.tally := by
  have hmap := h.record
  rw [hl, Option.map_some] at hmap
  exact Option.map_eq_some_iff.mp hmap

theorem Carries.active_eq (h : Carries n s t) (hl : s.active n = some l) (hl' : t.active n = some l') :
    l'.tally = l.tally := by
  obtain ⟨k, hk, htally⟩ := h.active_some hl
  rw [hl', Option.some.injEq] at hk
  rw [hk, htally]

theorem Carries.qGas (h : Carries n s t) : (t.arm n).qGas = (s.arm n).qGas :=
  show (t.arm n).tally.qGas = (s.arm n).tally.qGas from congrArg ArmSeq.qGas h.arm
theorem Carries.qEth (h : Carries n s t) : (t.arm n).qEth = (s.arm n).qEth :=
  show (t.arm n).tally.qEth = (s.arm n).tally.qEth from congrArg ArmSeq.qEth h.arm
theorem Carries.sampleClock (h : Carries n s t) : (t.arm n).sampleClock = (s.arm n).sampleClock :=
  show (t.arm n).tally.sampleClock = (s.arm n).tally.sampleClock from congrArg ArmSeq.sampleClock h.arm
theorem Carries.history (h : Carries n s t) : (t.arm n).history = (s.arm n).history :=
  show (t.arm n).tally.history = (s.arm n).tally.history from congrArg ArmSeq.history h.arm

theorem Flows.carries {A : ArmId → Prop} (h : Flows A s t) (n : ArmId) : Carries n s t where
  keeps := h.keeps
  meters := h.meters
  arm := by
    have hcore := congrArg (fun a : ArmSeq => { a with stalled := none, holdDrain := 0 }) (h.arms n)
    exact hcore
  record := by
    have htally (u : State) : (u.active n).map Load.tally = ((u.active n).map Load.core).map Load.tally := by
      rw [Option.map_map]
      exact congrArg (fun f => (u.active n).map f) (funext fun l => (Load.tally_core l).symm)
    rw [htally, htally s, h.active_map]

theorem OnlyAlarms.keeps (h : OnlyAlarms s t) : Keeps s t := by
  rw [h]
  exact ⟨rfl, rfl, rfl, rfl, rfl, rfl, rfl, rfl, rfl, rfl, rfl, rfl, rfl⟩

theorem OnlyAlarms.carries (h : OnlyAlarms s t) (n : ArmId) : Carries n s t :=
  ⟨h.keeps, h.fields.2.2, by rw [h.arm], by rw [h.active]⟩

theorem State.modArm_carries (s : State) (n : ArmId) {f : ArmSeq → ArmSeq} (hf : (f (s.arm n)).tally = (s.arm n).tally) :
    Carries n s (s.modArm n f) :=
  ⟨s.modArm_keeps n f, rfl, by rw [State.modArm_arm_self, hf], rfl⟩

theorem State.holdCause_carries (s : State) (n : ArmId) (c : HoldCause) : Carries n s (s.holdCause n c) := by
  have hmoves := s.holdCause_movesOnly n c
  refine ⟨hmoves.keeps, hmoves.meters, ?_, ?_⟩
  · by_cases hold : holdablePhase (s.phase n) = true
    · rw [State.holdCause_holdable hold, State.hold_arm]
      rfl
    · by_cases hfinish : s.phase n = some .finish
      · rw [State.holdCause_finish hfinish, State.cutFinish_arm]
        rfl
      · rw [State.holdCause_none (by simpa using hold) hfinish]
  · by_cases hold : holdablePhase (s.phase n) = true
    · rw [State.holdCause_holdable hold, State.hold_active, Option.map_map]
      rfl
    · by_cases hfinish : s.phase n = some .finish
      · obtain ⟨l, hl, -⟩ := State.phase_eq_some.mp hfinish
        obtain ⟨l', hl', hstill⟩ := State.cutFinish_active hl c
        rw [State.holdCause_finish hfinish, hl', hl, Option.map_some, Option.map_some,
          Load.tally_of_core (Load.core_of_still hstill), Load.settled_cutBy_tally]
      · rw [State.holdCause_none (by simpa using hold) hfinish]

theorem State.latch_onlyAlarms (s : State) (n : ArmId) (k : AlarmKind) : OnlyAlarms s (s.latch n k) := rfl

theorem State.detectIf_carries (s : State) (b : Bool) (n : ArmId) (k : AlarmKind) : Carries n s (s.detectIf b n k) := by
  have hlatch := (s.latch_onlyAlarms n k).carries n
  rw [State.detectIf]
  refine .ite ?_ (.refl n s)
  rw [State.detect]
  split
  · exact .refl n s
  · exact hlatch
  · exact hlatch.trans (State.holdCause_carries _ n .alarm)

theorem State.runsJudged_carries (s : State) (n : ArmId) (v : Valve) (sp : Nat) : Carries n s (s.runsJudged n v sp) := by
  rw [State.runsJudged]
  exact s.modArm_carries n rfl

theorem State.stage2_carries (s : State) (n : ArmId) (v : Valve) (sp : Nat) : Carries n s (s.stage2 n v sp) := by
  rw [State.stage2_eq]
  exact .ite ((s.runsJudged_carries n v sp).trans (State.detectIf_carries _ _ n _)) (.refl n s)

theorem State.stage3_flows (s : State) (n : ArmId) : Roams s (s.stage3 n) := by
  rw [State.stage3]
  exact .ite (s.compareTests_roams true n) (.refl _ s)

theorem State.stage4_flows (s : State) (n : ArmId) : Roams s (s.stage4 n) := by
  rw [State.stage4]
  exact .ite (s.decideValve_flows n).roams (.refl _ s)

theorem State.checkDeviation_carries (s : State) (n : ArmId) : Carries n s (s.checkDeviation n) := by
  cases hl : s.active n with
  | none =>
    rw [State.checkDeviation_none hl]
    exact .refl n s
  | some l =>
    rw [State.checkDeviation_some hl]
    exact .ite (((s.modRatio_flows n _).carries n).trans (State.detectIf_carries _ _ n _)) (.refl n s)

theorem State.stage5_carries (s : State) (n : ArmId) : Carries n s (s.stage5 n) := by
  have hset := (s.setSetpoint_flows n).carries n
  rw [State.stage5]
  split
  · exact hset.trans (State.checkDeviation_carries _ n)
  · exact hset.trans (State.checkDeviation_carries _ n)
  · exact hset.trans (State.checkDeviation_carries _ n)
  · exact .ite ((s.enterSettle_roams n).carries n) hset
  · exact .refl n s
  · exact .refl n s
  · exact .refl n s

/-- The strokes due after a sample (R153, R156). -/
theorem State.updateDue_flows (s : State) (n : ArmId) : Flows (· = n) s (s.modActive n Load.updateDue) :=
  s.modActive_flows n fun l => l.core_map_entries fun _ => rfl

theorem State.checkAdditive_carries (s : State) (n : ArmId) : Carries n s (s.checkAdditive n) := by
  rw [State.checkAdditive]
  split
  · exact .refl n s
  · exact s.detectIf_carries _ n _

theorem State.stage6_carries (s : State) (n : ArmId) : Carries n s (s.stage6 n) := by
  rw [State.stage6]
  split
  · exact .refl n s
  · exact .ite ((((s.updateDue_flows n).carries n).trans (State.checkAdditive_carries _ n)).trans
      ((State.issueArm_flows _ n).carries n)) (.refl n s)

/-! ## What a sample latches -/

/-- A detection joins its kind to the latched set, unless the class is OFF. -/
theorem State.detectIf_latched (s : State) (b : Bool) (n : ArmId) (k j : AlarmKind) :
    j ∈ ((s.detectIf b n k).alarm n).latched ↔
      j ∈ (s.alarm n).latched ∨ (j = k ∧ b = true ∧ s.classOf k ≠ .off) := by
  have hd := s.detect_detected n k
  cases b with
  | false =>
    rw [State.detectIf, if_neg (by decide)]
    simp
  | true =>
    rw [State.detectIf, if_pos rfl]
    by_cases hoff : s.classOf k = .off
    · rw [hd.off hoff]
      simp [hoff]
    · by_cases hj : j = k
      · rw [hj]
        simp [hd.latched hoff, hoff]
      · rw [hd.joined j hj]
        simp [hj]

theorem Flows.latched {A : ArmId → Prop} (h : Flows A s t) (n : ArmId) : (t.alarm n).latched = (s.alarm n).latched := by
  rw [h.alarm]

/-- No-flow supervision finds a run as old as its timeout (R104). -/
def State.NoFlowDetected (s : State) (n : ArmId) (valve : Valve) (setpoint : Nat) : Prop :=
  flowingPhase (s.phase n) = true ∧ ((s.gasRunJudged n valve).2 = true ∨ (s.ethRunJudged n setpoint).2 = true)

theorem State.stage2_latched (s : State) (n : ArmId) (v : Valve) (sp : Nat) (j : AlarmKind) :
    j ∈ ((s.stage2 n v sp).alarm n).latched ↔ j ∈ (s.alarm n).latched ∨
      (j = .noFlow ∧ s.NoFlowDetected n v sp ∧ s.classOf .noFlow ≠ .off) := by
  have halarm : (s.runsJudged n v sp).alarm n = s.alarm n := rfl
  have hclass : (s.runsJudged n v sp).classOf .noFlow = s.classOf .noFlow := rfl
  rw [State.stage2_eq, State.NoFlowDetected]
  split
  · rename_i hflow
    rw [State.detectIf_latched, halarm, hclass, Bool.or_eq_true]
    simp [hflow]
  · rename_i hflow
    simp [hflow]

/-- The deviation check finds a run as old as the alarm delay (R118). -/
def State.DeviationDetected (s : State) (n : ArmId) : Prop :=
  ∃ l, s.active n = some l ∧ 1000 * (s.armCfg n).monitorStart < l.totalGross ∧ (s.devJudged n l).2 = true

theorem State.checkDeviation_latched (s : State) (n : ArmId) (j : AlarmKind) :
    j ∈ ((s.checkDeviation n).alarm n).latched ↔ j ∈ (s.alarm n).latched ∨
      (j = .ratioDev ∧ s.DeviationDetected n ∧ s.classOf .ratioDev ≠ .off) := by
  rw [State.DeviationDetected]
  cases hl : s.active n with
  | none =>
    rw [State.checkDeviation_none hl]
    simp
  | some l =>
    have halarm (f : Ratio → Ratio) : (s.modRatio n f).alarm n = s.alarm n := rfl
    have hclass (f : Ratio → Ratio) : (s.modRatio n f).classOf .ratioDev = s.classOf .ratioDev := rfl
    rw [State.checkDeviation_some hl]
    split
    · rename_i hmonitor
      rw [State.detectIf_latched, halarm, hclass]
      simp [hmonitor]
    · rename_i hmonitor
      simp [hmonitor]

theorem State.stage5_latched (s : State) (n : ArmId) (j : AlarmKind) :
    j ∈ ((s.stage5 n).alarm n).latched ↔ j ∈ (s.alarm n).latched ∨
      (j = .ratioDev ∧ flowingPhase (s.phase n) = true ∧ (s.setSetpoint n).DeviationDetected n ∧
        s.classOf .ratioDev ≠ .off) := by
  have hflow (hp : flowingPhase (s.phase n) = true) :
      s.stage5 n = (s.setSetpoint n).checkDeviation n := by
    rw [State.stage5]
    rcases flowingPhase_cases hp with h | h | h <;> rw [h]
  have hset := (s.setSetpoint_flows n).latched n
  have hclass := (s.setSetpoint_keeps n).classOf .ratioDev
  by_cases hp : flowingPhase (s.phase n) = true
  · rw [hflow hp, State.checkDeviation_latched, hset, hclass]
    simp [hp]
  · have hsame : ((s.stage5 n).alarm n).latched = (s.alarm n).latched := by
      rw [State.stage5]
      split
      · rename_i h
        exact absurd (by rw [h]; rfl) hp
      · rename_i h
        exact absurd (by rw [h]; rfl) hp
      · rename_i h
        exact absurd (by rw [h]; rfl) hp
      · split
        · exact (s.enterSettle_roams n).latched n
        · exact hset
      · rfl
      · rfl
      · rfl
    rw [hsame]
    simp [hp]

/-- The additives are compared and found behind (R154). -/
def State.ShortDetected (s : State) (n : ArmId) : Prop :=
  ∃ l, s.active n = some l ∧ blendingPhase l.deliveringPhase = true ∧ s.fallsBehind l = true

theorem blendingPhase_eq (p : Option Phase) : (flowingPhase p || decide (p = some .finish)) = blendingPhase p := by
  cases p with
  | none => rfl
  | some p => cases p <;> rfl

theorem State.checkAdditive_latched (s : State) (n : ArmId) (j : AlarmKind) :
    j ∈ ((s.checkAdditive n).alarm n).latched ↔ j ∈ (s.alarm n).latched ∨
      (j = .addShort ∧ s.ShortDetected n ∧ s.classOf .addShort ≠ .off) := by
  rw [State.checkAdditive, State.ShortDetected]
  cases hl : s.active n with
  | none => simp
  | some l =>
    dsimp only
    rw [State.detectIf_latched, blendingPhase_eq, Bool.and_eq_true]
    simp

theorem State.stage6_latched_of_ne (s : State) (n : ArmId) {j : AlarmKind} (hj : j ≠ .addShort) :
    j ∈ ((s.stage6 n).alarm n).latched ↔ j ∈ (s.alarm n).latched := by
  rw [State.stage6]
  split
  · exact Iff.rfl
  · split
    · rw [(State.issueArm_flows _ n).latched, State.checkAdditive_latched, (s.updateDue_flows n).latched]
      simp [hj]
    · exact Iff.rfl

/-! ## A record that does not blend -/

/-- The arm, the reservations and the queue are as they were, and its record but for its strokes. -/
structure Rests (n : ArmId) (s t : State) : Prop where
  keeps : Keeps s t
  arm : t.arm n = s.arm n
  ratio : t.ratio n = s.ratio n
  resv : ∀ m, t.resv m = s.resv m
  queue : t.queue = s.queue
  record : (t.active n).map Load.still = (s.active n).map Load.still

theorem Rests.refl (n : ArmId) (s : State) : Rests n s s := ⟨.refl s, rfl, rfl, fun _ => rfl, rfl, rfl⟩

theorem Rests.trans (h : Rests n s t) (k : Rests n t u) : Rests n s u :=
  ⟨h.keeps.trans k.keeps, k.arm.trans h.arm, k.ratio.trans h.ratio, fun m => (k.resv m).trans (h.resv m), k.queue.trans h.queue,
    k.record.trans h.record⟩

theorem Rests.active_some (h : Rests n s t) (hl : s.active n = some l) :
    ∃ l', t.active n = some l' ∧ l'.still = l.still := by
  have hmap := h.record
  rw [hl, Option.map_some] at hmap
  exact Option.map_eq_some_iff.mp hmap

theorem Rests.active_back (h : Rests n s t) (hl : t.active n = some l') :
    ∃ l, s.active n = some l ∧ l'.still = l.still := by
  have hmap := h.record
  rw [hl, Option.map_some] at hmap
  obtain ⟨l, hl, hstill⟩ := Option.map_eq_some_iff.mp hmap.symm
  exact ⟨l, hl, hstill.symm⟩

theorem Rests.phase (h : Rests n s t) : t.phase n = s.phase n := by
  have hphase (u : State) : u.phase n = ((u.active n).map Load.still).bind Load.deliveringPhase := by
    rw [State.phase]
    cases u.active n <;> rfl
  rw [hphase, hphase s, h.record]

theorem OnlyAlarms.rests (h : OnlyAlarms s t) (n : ArmId) : Rests n s t :=
  ⟨h.keeps, h.arm n, h.ratio n, fun m => (h.sameAt m).resv, h.fields.2.1, by rw [h.active]⟩

theorem Issues.rests (h : Issues s t) (hk : Keeps s t) (n : ArmId) : Rests n s t :=
  ⟨hk, h.arm n, h.ratio n, h.resv, h.queue, h.active_map n⟩

theorem State.issueArm_rests (s : State) (n : ArmId) : Rests n s (s.issueArm n) :=
  (s.issueArm_issues n).rests (s.issueArm_keeps n) n

theorem State.updateDue_rests (s : State) (n : ArmId) : Rests n s (s.modActive n Load.updateDue) := by
  have hissues : Issues s (s.modActive n Load.updateDue) :=
    s.modActive_issues n fun l => by exact l.still_map_entries fun _ => rfl
  exact hissues.rests (s.updateDue_flows n).keeps n

theorem State.stage2_still (h : flowingPhase (s.phase n) = false) (v : Valve) (sp : Nat) : s.stage2 n v sp = s := by
  rw [State.stage2_eq, h]
  rfl

theorem State.stage3_still (h : flowingPhase (s.phase n) = false) : s.stage3 n = s := by
  rw [State.stage3, h]
  rfl

theorem State.stage4_still (h : flowingPhase (s.phase n) = false) : s.stage4 n = s := by
  rw [State.stage4, h]
  rfl

theorem flowing_of_not_blending {p : Option Phase} (h : blendingPhase p = false) : flowingPhase p = false := by
  cases p with
  | none => rfl
  | some p =>
    cases p with
    | low | high | taper | finish => cases h
    | headerWait | settle => rfl

theorem State.stage5_still (h : blendingPhase (s.phase n) = false) : s.stage5 n = s := by
  rw [State.stage5]
  cases hp : s.phase n with
  | none => rfl
  | some p =>
    rw [hp] at h
    cases p with
    | low | high | taper | finish => cases h
    | headerWait | settle => rfl

theorem State.checkAdditive_still (h : blendingPhase (s.phase n) = false) : s.checkAdditive n = s := by
  rw [State.checkAdditive]
  cases hl : s.active n with
  | none => rfl
  | some l =>
    dsimp only
    rw [State.phase_eq hl] at h
    rw [blendingPhase_eq, h]
    rfl

theorem State.stage6_rests (h : blendingPhase (s.phase n) = false) : Rests n s (s.stage6 n) := by
  rw [State.stage6]
  split
  · exact .refl n s
  · split
    · have hdue := s.updateDue_rests n
      rw [State.checkAdditive_still (by rw [hdue.phase]; exact h)]
      exact hdue.trans (State.issueArm_rests _ n)
    · exact .refl n s

theorem State.stages_rest (h : blendingPhase (s.phase n) = false) (v : Valve) (sp : Nat) :
    Rests n s (((((s.stage2 n v sp).stage3 n).stage4 n).stage5 n).stage6 n) := by
  have hflow := flowing_of_not_blending h
  rw [State.stage2_still hflow, State.stage3_still hflow, State.stage4_still hflow, State.stage5_still h]
  exact State.stage6_rests h

end

end Sys2Proof.Machine
end

section
/-! O25 and O26: the volume of a sample where it goes, and what stage 1 detects (R54 to R56, R63, R74 to R76). -/

namespace Sys2Proof.Machine

section
variable {s t u : State} {n m : ArmId} {l l' : Load}

/-! ## The command -/

/-- The state a sample starts from (R83). -/
def State.toSample (s : State) (n : ArmId) (due : Nat) : State :=
  (s.reach due).modArm n fun a => { a with sampleClock := some (due + (s.armCfg n).period) }

theorem exec_sampleEvent {due : Nat} (hclock : (s.arm n).sampleClock = some due) (hrun : s.isRunning = true)
    (hmode : (s.arm n).mode = .available) : exec (.sampleEvent n) s = .next ((s.toSample n due).sample n) := by
  show execSampleEvent n s = _
  rw [execSampleEvent, hclock]
  exact if_pos (by rw [hrun, hmode]; rfl)

theorem State.toSample_arm (s : State) (n : ArmId) (due : Nat) : (s.toSample n due).arm n =
    { s.arm n with sampleClock := some (due + (s.armCfg n).period) } := State.modArm_arm_self _ n _

theorem Keeps.eq_of_moves (h : Keeps s t) : t = { s with
    loads := t.loads, arms := t.arms, ratios := t.ratios, reservations := t.reservations, queue := t.queue,
    meters := t.meters, injectors := t.injectors, alarms := t.alarms } := by
  obtain ⟨hnow, hpending, hstore, hsettings, hmemory, hlink, hrecipes, hchannels, hport, hlevels, hbuttons, hstation, -⟩ := h
  cases s
  cases t
  simp only at hnow hpending hstore hsettings hmemory hlink hrecipes hchannels hport hlevels hbuttons hstation
  subst hnow hpending hstore hsettings hmemory hlink hrecipes hchannels hport hlevels hbuttons hstation
  rfl

/-! ## Stale channels (R63) -/

theorem State.tempStale_iff (s : State) (m : MeterId) : s.tempStale m = true ↔
    ∃ t, (s.channel m).lastValidTime = some t ∧ 1000 * s.settings.station.tempHold < s.now - t := by
  rw [State.tempStale]
  cases (s.channel m).lastValidTime with
  | none => simp
  | some t => simp

theorem State.stale_iff (s : State) (n : ArmId) :
    (s.tempStale (gasMeter n) || s.tempStale (ethMeter n)) = true ↔ s.staleAt n s.now := by
  rw [Bool.or_eq_true, State.tempStale_iff, State.tempStale_iff, State.staleAt]
  simp only [meterArm_eq_iff, or_and_right, exists_or, exists_eq_left]

theorem State.staleAt_congr (hchannels : t.channels = s.channels) (hsettings : t.settings = s.settings) (now : Nat) :
    t.staleAt n now ↔ s.staleAt n now := by
  rw [State.staleAt, State.staleAt, hsettings, show t.channel = s.channel by
    funext m
    rw [State.channel, State.channel, hchannels]]

theorem State.detectStale_eq (s : State) (n : ArmId) :
    s.detectStale n = s.detectIf (s.tempStale (gasMeter n) || s.tempStale (ethMeter n)) n .tempFault := rfl

/-- What a stale channel latches (R63). -/
theorem State.detectStale_latched (s : State) (n : ArmId) (j : AlarmKind) :
    j ∈ ((s.detectStale n).alarm n).latched ↔
      j ∈ (s.alarm n).latched ∨ (j = .tempFault ∧ s.staleAt n s.now ∧ s.classOf .tempFault ≠ .off) := by
  rw [State.detectStale_eq, State.detectIf_latched, State.stale_iff]

/-! ## Where the volume goes (R54, R74) -/

theorem State.volumeGoes_delivering (hl : s.active n = some l) (h : l.state = .delivering) :
    s.volumeGoes n = .toRecord := by
  rw [State.volumeGoes, hl]
  simp [h, Load.counts]

theorem State.volumeGoes_held (hl : s.active n = some l) (h : l.state = .held) : s.volumeGoes n = .toHeldRecord := by
  rw [State.volumeGoes, hl]
  exact if_pos h

theorem State.volumeGoes_idle (h : ∀ l, s.active n = some l → l.state = .ready) : s.volumeGoes n = .toUnassigned := by
  rw [State.volumeGoes]
  cases hl : s.active n with
  | none => rfl
  | some l => simp [h l hl, Load.counts]

/-- The record after a sample's volume joined it (R74, R75). -/
def Load.sampledBy (l : Load) (v : ArmSample) : Load := (l.addSample v.gas v.eth v.gasTemp v.ethTemp).markTempHeld v.held

theorem State.takeSample_meters (s : State) (n : ArmId) (v : ArmSample) : (s.takeSample n v).meters =
    ((s.setMeter (gasMeter n) v.gas.meter).setMeter (ethMeter n) v.eth.meter).meters := rfl

theorem State.takeSample_meter (s : State) (n : ArmId) (v : ArmSample) (m : MeterId) : (s.takeSample n v).meter m =
    if m = ethMeter n then v.eth.meter else if m = gasMeter n then v.gas.meter else s.meter m := by
  rw [State.meter_of_meters (s.takeSample_meters n v), State.setMeter_meter, State.setMeter_meter]

theorem State.takeSample_arm (s : State) (n : ArmId) (v : ArmSample) :
    (s.takeSample n v).arm n = { s.arm n with qGas := v.gas.flow, qEth := v.eth.flow } := State.modArm_arm_self _ n _

/-- The volume joins the record of an arm that counts it. -/
theorem State.addToRecord_active (s : State) (n : ArmId) (v : ArmSample) :
    (s.addToRecord n v).active n = (s.active n).map (·.sampledBy v) :=
  State.modActive_active_self (fun l => by exact Load.markTempHeld_arm _ _) fun l h => by
    rw [Load.isActive_congr (Load.markTempHeld_state (l.addSample v.gas v.eth v.gasTemp v.ethTemp) v.held)]
    exact h

section
variable (hl : s.active n = some l) (h : l.state = .delivering ∨ l.state = .held)
include hl h

theorem State.volumed_active : (s.volumed n).active n = some (l.sampledBy (s.sampleArm n)) := by
  have hadd : ((s.takeSample n (s.sampleArm n)).addToRecord n (s.sampleArm n)).active n =
      some (l.sampledBy (s.sampleArm n)) := by
    rw [State.addToRecord_active, show (s.takeSample n (s.sampleArm n)).active n = s.active n from rfl, hl, Option.map_some]
  rw [State.volumed]
  rcases h with h | h
  · rw [State.volumeGoes_delivering hl h]
    exact hadd
  · rw [State.volumeGoes_held hl h]
    exact hadd

theorem State.volumed_meters : (s.volumed n).meters = (s.takeSample n (s.sampleArm n)).meters := by
  rw [State.volumed]
  rcases h with h | h
  · rw [State.volumeGoes_delivering hl h]
    rfl
  · rw [State.volumeGoes_held hl h]
    rfl

theorem State.volumed_arm : (s.volumed n).arm n = { s.arm n with
    qGas := (s.sampleArm n).gas.flow, qEth := (s.sampleArm n).eth.flow
    holdDrain := if l.state = .held then
      satAdd u32Max (s.arm n).holdDrain ((s.sampleArm n).gas.gross + (s.sampleArm n).eth.gross)
      else (s.arm n).holdDrain } := by
  rw [State.volumed]
  rcases h with h | h
  · rw [State.volumeGoes_delivering hl h, if_neg (by rw [h]; decide)]
    exact s.takeSample_arm n _
  · rw [State.volumeGoes_held hl h, if_pos h]
    refine (State.modArm_arm_self _ n _).trans ?_
    rw [show ((s.takeSample n (s.sampleArm n)).addToRecord n (s.sampleArm n)).arm n =
      (s.takeSample n (s.sampleArm n)).arm n from rfl, s.takeSample_arm n _]

end

theorem State.volumed_keeps (s : State) (n : ArmId) : Keeps s (s.volumed n) :=
  (s.takeSample_keeps n _).trans (State.placeVolume_keeps _ n _ _)

theorem State.volumed_alarm (s : State) (n m : ArmId) : (s.volumed n).alarm m = s.alarm m := by
  rw [State.volumed]
  cases s.volumeGoes n with
  | toRecord => rfl
  | toHeldRecord => rfl
  | toUnassigned => rfl

/-- A sample of a DELIVERING record detects the stale channels alone in stage 1. -/
theorem State.stage1_delivering (hl : s.active n = some l) (h : l.state = .delivering) :
    s.stage1 n = (s.volumed n).detectStale n := by
  rw [State.stage1_eq, State.volumeGoes_delivering hl h]
  rfl

theorem State.stage1_held (hl : s.active n = some l) (h : l.state = .held) : s.stage1 n =
    ((s.volumed n).detectStale n).detectIf (((s.volumed n).detectStale n).drainLeaks n
      ((s.sampleArm n).gas.gross + (s.sampleArm n).eth.gross)) n .unauthFlow := by
  rw [State.stage1_eq, State.volumeGoes_held hl h]
  rfl

theorem State.sample_eq (s : State) (n : ArmId) : s.sample n =
    (((((s.stage1 n).stage2 n (s.arm n).valve (s.ratio n).setpoint).stage3 n).stage4 n).stage5 n).stage6 n := rfl

/-- After stage 1 a sample carries its meters, its tally and its flow rates on. -/
theorem State.stages_carry (s : State) (n : ArmId) (v : Valve) (sp : Nat) :
    Carries n s (((((s.stage2 n v sp).stage3 n).stage4 n).stage5 n).stage6 n) :=
  (((((s.stage2_carries n v sp).trans ((State.stage3_flows _ n).carries n)).trans
    ((State.stage4_flows _ n).carries n)).trans (State.stage5_carries _ n)).trans (State.stage6_carries _ n))

/-- The stages after the first latch NO_FLOW, RATIO_DEV and ADD_SHORT at most. -/
theorem State.stages_latched_of_ne (s : State) (n : ArmId) (v : Valve) (sp : Nat) {j : AlarmKind} (h1 : j ≠ .noFlow)
    (h2 : j ≠ .ratioDev) (h3 : j ≠ .addShort) :
    j ∈ ((((((s.stage2 n v sp).stage3 n).stage4 n).stage5 n).stage6 n).alarm n).latched ↔ j ∈ (s.alarm n).latched := by
  rw [State.stage6_latched_of_ne _ n h3, State.stage5_latched, (State.stage4_flows _ n).latched,
    (State.stage3_flows _ n).latched, State.stage2_latched]
  simp [h1, h2]

theorem State.volumed_stale (s : State) (n : ArmId) :
    (s.volumed n).staleAt n (s.volumed n).now ↔ s.staleAt n s.now := by
  rw [(s.volumed_keeps n).now, State.staleAt_congr (s.volumed_keeps n).channels (s.volumed_keeps n).settings]

theorem State.drainLeaks_iff (s : State) (n : ArmId) (added : Nat) :
    s.drainLeaks n added = true ↔ 0 < added ∧ 1000 * (s.armCfg n).leakLimit < (s.arm n).holdDrain := by
  rw [State.drainLeaks, Bool.and_eq_true, decide_eq_true_iff, decide_eq_true_iff]
  rfl

/-! ## A sample of a record that counts volume -/

theorem State.stage1_carries (hl : s.active n = some l) (h : l.state = .delivering ∨ l.state = .held) :
    Carries n (s.volumed n) (s.stage1 n) := by
  rcases h with h | h
  · rw [State.stage1_delivering hl h]
    exact State.detectIf_carries _ _ n _
  · rw [State.stage1_held hl h]
    exact (State.detectIf_carries _ _ n .tempFault).trans (State.detectIf_carries _ _ n _)

theorem State.sample_carries (hl : s.active n = some l) (h : l.state = .delivering ∨ l.state = .held) :
    Carries n (s.volumed n) (s.sample n) := by
  rw [State.sample_eq]
  exact (State.stage1_carries hl h).trans (State.stages_carry _ n _ _)

theorem State.volumed_phase (s : State) (n : ArmId) : (s.volumed n).phase n = s.phase n := (s.volumed_unmoved n).phase n

theorem State.phase_of_held (hl : s.active n = some l) (h : l.state = .held) : s.phase n = none := by
  rw [State.phase_eq hl]
  exact Load.deliveringPhase_none (by rw [h]; decide)

theorem State.detectStale_held (hl : s.active n = some l) (h : l.state = .held) :
    OnlyAlarms (s.volumed n) ((s.volumed n).detectStale n) := by
  rw [State.detectStale_eq]
  exact State.detectIf_onlyAlarms ((s.volumed_phase n).trans (State.phase_of_held hl h)) _ _

/-- A sample of a HELD record leaves its arm as the volume left it. -/
theorem State.sample_held (hl : s.active n = some l) (h : l.state = .held) : Rests n (s.volumed n) (s.sample n) := by
  have hnone : (s.volumed n).phase n = none := (s.volumed_phase n).trans (State.phase_of_held hl h)
  have hstale := State.detectStale_held hl h
  have hleak := State.detectIf_onlyAlarms ((hstale.phase n).trans hnone)
    (((s.volumed n).detectStale n).drainLeaks n ((s.sampleArm n).gas.gross + (s.sampleArm n).eth.gross)) .unauthFlow
  have hfirst : Rests n (s.volumed n) (s.stage1 n) := by
    rw [State.stage1_held hl h]
    exact (hstale.rests n).trans (hleak.rests n)
  rw [State.sample_eq]
  exact hfirst.trans (State.stages_rest (by rw [hfirst.phase, hnone]; rfl) _ _)

/-- TEMP_FAULT at a sample (R63). -/
theorem State.sample_tempFault (hl : s.active n = some l) (h : l.state = .delivering ∨ l.state = .held) :
    AlarmKind.tempFault ∈ ((s.sample n).alarm n).latched ↔
      AlarmKind.tempFault ∈ (s.alarm n).latched ∨ (s.classOf .tempFault ≠ .off ∧ s.staleAt n s.now) := by
  have hstale : AlarmKind.tempFault ∈ (((s.volumed n).detectStale n).alarm n).latched ↔
      AlarmKind.tempFault ∈ (s.alarm n).latched ∨ (s.classOf .tempFault ≠ .off ∧ s.staleAt n s.now) := by
    rw [State.detectStale_latched, s.volumed_alarm n, s.volumed_stale n, (s.volumed_keeps n).classOf]
    simp only [true_and, and_comm]
  rw [State.sample_eq, State.stages_latched_of_ne _ n _ _ (by decide) (by decide) (by decide), ← hstale]
  rcases h with h | h
  · rw [State.stage1_delivering hl h]
  · rw [State.stage1_held hl h, State.detectIf_latched]
    simp

/-- UNAUTH_FLOW at a sample of a record that counts volume (R56). -/
theorem State.sample_unauthFlow (hl : s.active n = some l) (h : l.state = .delivering ∨ l.state = .held) :
    AlarmKind.unauthFlow ∈ ((s.sample n).alarm n).latched ↔ AlarmKind.unauthFlow ∈ (s.alarm n).latched ∨
      (s.classOf .unauthFlow ≠ .off ∧ l.state = .held ∧ 0 < (s.sampleArm n).gas.gross + (s.sampleArm n).eth.gross ∧
        1000 * (s.armCfg n).leakLimit < ((s.sample n).arm n).holdDrain) := by
  have hstale : AlarmKind.unauthFlow ∈ (((s.volumed n).detectStale n).alarm n).latched ↔
      AlarmKind.unauthFlow ∈ (s.alarm n).latched := by
    rw [State.detectStale_latched, s.volumed_alarm n]
    simp
  have hstages := State.stages_latched_of_ne (s.stage1 n) n (s.arm n).valve (s.ratio n).setpoint (j := .unauthFlow)
    (by decide) (by decide) (by decide)
  rw [← State.sample_eq] at hstages
  rw [hstages]
  rcases h with h | h
  · rw [State.stage1_delivering hl h, hstale]
    simp [h]
  · have hkeeps : Keeps s ((s.volumed n).detectStale n) := (s.volumed_keeps n).trans (State.detectIf_keeps _ _ n _)
    have harm : ((s.sample n).arm n).holdDrain = (((s.volumed n).detectStale n).arm n).holdDrain := by
      rw [(State.sample_held hl h).arm, (State.detectStale_held hl h).arm]
    rw [State.stage1_held hl h, State.detectIf_latched, hstale, State.drainLeaks_iff, hkeeps.classOf, hkeeps.armCfg, harm]
    simp only [true_and, h]
    rw [and_comm]

/-! ## O26 -/

theorem Load.markTempHeld_eq (l : Load) (b : Bool) : l.markTempHeld b = { l with flags := (l.markTempHeld b).flags } := by
  rw [Load.markTempHeld]
  split <;> rfl

/-- The totals and the temperature sums a sample leaves, in a form that names no addition twice (R74, R75). -/
theorem Load.sampledBy_totals (l : Load) (v : ArmSample) :
    (l.sampledBy v).number = l.number ∧ (l.sampledBy v).preset = l.preset ∧ (l.sampledBy v).state = l.state ∧
    (l.sampledBy v).gasGross = min 4294967295 (l.gasGross + v.gas.gross) ∧
    (l.sampledBy v).gasNet = min 4294967295 (l.gasNet + v.gas.net) ∧
    (l.sampledBy v).ethGross = min 4294967295 (l.ethGross + v.eth.gross) ∧
    (l.sampledBy v).ethNet = min 4294967295 (l.ethNet + v.eth.net) ∧
    (l.sampledBy v).gasTempSum =
      l.gasTempSum + v.gasTemp * (((l.sampledBy v).gasGross - l.gasGross : Nat) : Int) ∧
    (l.sampledBy v).ethTempSum =
      l.ethTempSum + v.ethTemp * (((l.sampledBy v).ethGross - l.ethGross : Nat) : Int) := by
  rw [Load.sampledBy, Load.markTempHeld_eq]
  exact ⟨rfl, rfl, rfl, rfl, rfl, rfl, rfl, rfl, rfl⟩

/-- The averages a sample leaves (R75). -/
theorem Load.sampledBy_averages (l : Load) (v : ArmSample) :
    (l.gasGross < (l.sampledBy v).gasGross →
      (l.sampledBy v).gasAverage = some (roundAway (l.sampledBy v).gasTempSum (l.sampledBy v).gasGross)) ∧
    (l.ethGross < (l.sampledBy v).ethGross →
      (l.sampledBy v).ethAverage = some (roundAway (l.sampledBy v).ethTempSum (l.sampledBy v).ethGross)) ∧
    ((l.sampledBy v).gasGross ≤ l.gasGross → (l.sampledBy v).gasAverage = l.gasAverage) ∧
    ((l.sampledBy v).ethGross ≤ l.ethGross → (l.sampledBy v).ethAverage = l.ethAverage) := by
  rw [Load.sampledBy, Load.markTempHeld_eq]
  refine ⟨fun h => if_neg ?_, fun h => if_neg ?_, fun h => if_pos ?_, fun h => if_pos ?_⟩
  · exact fun hz => absurd (Nat.sub_eq_zero_iff_le.mp hz) (not_le.mpr h)
  · exact fun hz => absurd (Nat.sub_eq_zero_iff_le.mp hz) (not_le.mpr h)
  · exact Nat.sub_eq_zero_iff_le.mpr h
  · exact Nat.sub_eq_zero_iff_le.mpr h

theorem Load.sampledBy_flags (l : Load) (v : ArmSample) :
    (l.sampledBy v).flags.tempHeld = true ↔ l.flags.tempHeld = true ∨ v.held = true := by
  rw [Load.sampledBy, Load.markTempHeld]
  split
  · rename_i h
    simp [h]
  · rename_i h
    simp [h, Load.addSample]

theorem State.toSample_sampleArm (s : State) (n : ArmId) (due : Nat) :
    (s.toSample n due).sampleArm n = (s.reach due).sampleArm n := rfl

theorem State.toSample_staleAt (s : State) (n : ArmId) (due : Nat) :
    (s.toSample n due).staleAt n (s.toSample n due).now ↔ s.staleAt n (max s.now due) :=
  State.staleAt_congr (s := s) rfl rfl _

/-- Settles O26. -/
theorem samplesJoinTheRecord : Obligations.SamplesJoinTheRecord := by
  intro n due l v s hok hrun hmode hclock hl hcounts hv
  have hbl : (s.toSample n due).active n = some l := hl
  have htemp := State.sample_tempFault hbl hcounts
  have hunauth := State.sample_unauthFlow hbl hcounts
  have hcarries := State.sample_carries hbl hcounts
  have hactive := State.volumed_active hbl hcounts
  have hmeters := State.volumed_meters hbl hcounts
  have harm := State.volumed_arm hbl hcounts
  have hkeeps := (s.toSample n due).sample_keeps n
  have hheld (h : l.state = .held) := State.sample_held hbl h
  rw [State.toSample_sampleArm, ← hv] at hactive hmeters harm hunauth
  rw [State.toSample_staleAt] at htemp
  obtain ⟨t, ht⟩ : ∃ t, t = (s.toSample n due).sample n := ⟨_, rfl⟩
  obtain ⟨w, hw⟩ : ∃ w, w = (s.toSample n due).volumed n := ⟨_, rfl⟩
  rw [← ht, ← hw] at hcarries hheld
  rw [← ht] at htemp hunauth hkeeps
  rw [← hw] at hactive hmeters harm
  obtain ⟨l', hl', htally⟩ := hcarries.active_some hactive
  obtain ⟨hnumber, hpreset, hstate, hgas, hgasNet, heth, hethNet, hgasSum, hethSum⟩ := l.sampledBy_totals v
  obtain ⟨hgasUp, hethUp, hgasStay, hethStay⟩ := l.sampledBy_averages v
  obtain ⟨hsum1, hsum2, havg1, havg2⟩ := Load.tally_temps htally
  rw [← Load.tally_number htally] at hnumber
  rw [← Load.tally_preset htally] at hpreset
  rw [← Load.tally_gasNet htally] at hgasNet
  rw [← Load.tally_ethNet htally] at hethNet
  rw [← Load.tally_gasGross htally] at hgas
  rw [← Load.tally_ethGross htally] at heth
  rw [← Load.tally_gasGross htally, ← hsum1] at hgasSum
  rw [← Load.tally_ethGross htally, ← hsum2] at hethSum
  rw [← Load.tally_gasGross htally, ← hsum1, ← havg1] at hgasUp
  rw [← Load.tally_ethGross htally, ← hsum2, ← havg2] at hethUp
  rw [← Load.tally_gasGross htally, ← havg1] at hgasStay
  rw [← Load.tally_ethGross htally, ← havg2] at hethStay
  have hmeter (m : MeterId) : t.meter m =
      if m = ethMeter n then v.eth.meter else if m = gasMeter n then v.gas.meter else s.meter m := by
    rw [State.meter_of_meters hcarries.meters, State.meter_of_meters hmeters, State.takeSample_meter]
    rfl
  refine ⟨t, l', by rw [ht]; exact exec_sampleEvent hclock hrun hmode, hl', hnumber, hpreset, hgas, hgasNet, heth, hethNet,
    hgasSum, hethSum, hgasUp, hethUp, hgasStay, hethStay, ?_, ?_, ?_, fun m hm => ?_, ?_, ?_, ?_, fun h => ⟨?_, ?_⟩, htemp,
    hunauth, hkeeps.eq_of_moves⟩
  · rw [Load.tally_tempHeld htally]
    exact l.sampledBy_flags v
  · rw [hmeter, if_neg (gasMeter_ne_ethMeter n).symm, if_pos rfl]
  · rw [hmeter, if_pos rfl]
  · rw [ne_eq, meterArm_eq_iff, not_or] at hm
    rw [hmeter, if_neg hm.2, if_neg hm.1]
  · rw [hcarries.qGas, harm]
  · rw [hcarries.qEth, harm]
  · rw [hcarries.sampleClock, harm, State.toSample_arm]
  · obtain ⟨k, hk, hstill⟩ := (hheld h).active_some hactive
    rw [hl', Option.some.injEq] at hk
    rw [hk, Load.eq_of_still hstill]
    exact hstate.trans h
  · rw [(hheld h).arm, harm, if_pos h, State.toSample_arm]
    rfl

/-! ## O25 -/

theorem OnlyAlarms.arms (h : OnlyAlarms s t) : t.arms = s.arms := by rw [h]

theorem OnlyAlarms.frame (h : OnlyAlarms t u) (hframe : t = { s with meters := t.meters, arms := t.arms }) :
    u = { s with meters := u.meters, arms := u.arms, alarms := u.alarms } := by
  have heq := congrArg (fun x : State => { x with alarms := u.alarms }) hframe
  rw [h.fields.2.2, h.arms]
  exact Eq.trans h heq

section
variable (hidle : ∀ l, s.active n = some l → l.state = .ready)
include hidle

theorem State.phase_of_idle : s.phase n = none := by
  cases hl : s.active n with
  | none => exact State.phase_none hl
  | some l =>
    rw [State.phase_eq hl]
    exact Load.deliveringPhase_none (by rw [hidle l hl]; decide)

theorem State.stage6_idle : s.stage6 n = s := by
  rw [State.stage6]
  cases hl : s.active n with
  | none => rfl
  | some l => exact if_neg (by simp [Load.counts, hidle l hl])

theorem State.volumed_idle : s.volumed n = (s.takeSample n (s.sampleArm n)).addToUnassigned n (s.sampleArm n) := by
  rw [State.volumed, State.volumeGoes_idle hidle]
  rfl

theorem State.stage1_idle : s.stage1 n =
    (((s.volumed n).detectStale n).detectIf (((s.volumed n).detectStale n).meterLeaks n (gasMeter n)
      (s.sampleArm n).gas.gross) n .unauthFlow).detectIf ((((s.volumed n).detectStale n).detectIf
        (((s.volumed n).detectStale n).meterLeaks n (gasMeter n) (s.sampleArm n).gas.gross) n .unauthFlow).meterLeaks n
        (ethMeter n) (s.sampleArm n).eth.gross) n .unauthFlow := by
  rw [State.stage1_eq, State.volumeGoes_idle hidle]
  rfl

theorem State.sample_idle : s.sample n = s.stage1 n ∧ OnlyAlarms (s.volumed n) (s.stage1 n) := by
  have hnone : (s.volumed n).phase n = none := (s.volumed_phase n).trans (State.phase_of_idle hidle)
  have hstale : OnlyAlarms (s.volumed n) ((s.volumed n).detectStale n) := by
    rw [State.detectStale_eq]
    exact State.detectIf_onlyAlarms hnone _ _
  have hgas := hstale.trans (State.detectIf_onlyAlarms ((hstale.phase n).trans hnone)
    (((s.volumed n).detectStale n).meterLeaks n (gasMeter n) (s.sampleArm n).gas.gross) .unauthFlow)
  have hboth := hgas.trans (State.detectIf_onlyAlarms ((hgas.phase n).trans hnone)
    ((((s.volumed n).detectStale n).detectIf (((s.volumed n).detectStale n).meterLeaks n (gasMeter n)
      (s.sampleArm n).gas.gross) n .unauthFlow).meterLeaks n (ethMeter n) (s.sampleArm n).eth.gross) .unauthFlow)
  rw [← State.stage1_idle hidle] at hboth
  have hphase : (s.stage1 n).phase n = none := (hboth.phase n).trans hnone
  have hflow : flowingPhase ((s.stage1 n).phase n) = false := by rw [hphase]; rfl
  refine ⟨?_, hboth⟩
  rw [State.sample_eq, State.stage2_still hflow, State.stage3_still hflow, State.stage4_still hflow,
    State.stage5_still (by rw [hphase]; rfl)]
  refine State.stage6_idle fun l hl => ?_
  rw [hboth.active, State.volumed_idle hidle] at hl
  exact hidle l hl

omit hidle in
/-- Two detections of one kind, in one clause. -/
theorem leaks_regroup {a b j c g e : Prop} :
    ((a ∨ b) ∨ (j ∧ g ∧ c)) ∨ (j ∧ e ∧ c) ↔ a ∨ b ∨ (j ∧ c ∧ (g ∨ e)) := by tauto

/-- What a leak at a meter latches (R55). -/
theorem State.stage1_idle_latched (j : AlarmKind) : j ∈ ((s.stage1 n).alarm n).latched ↔
    j ∈ (s.alarm n).latched ∨ (j = .tempFault ∧ s.staleAt n s.now ∧ s.classOf .tempFault ≠ .off) ∨
      (j = .unauthFlow ∧ s.classOf .unauthFlow ≠ .off ∧
        ((0 < (s.sampleArm n).gas.gross ∧ s.leakMl n < ((s.stage1 n).meter (gasMeter n)).unassigned) ∨
          (0 < (s.sampleArm n).eth.gross ∧ s.leakMl n < ((s.stage1 n).meter (ethMeter n)).unassigned))) := by
  have hmeters := (State.sample_idle hidle).2.fields.2.2
  have hstaleKeeps : Keeps s ((s.volumed n).detectStale n) := (s.volumed_keeps n).trans (State.detectIf_keeps _ _ n _)
  have hcarry (u : State) (b : Bool) (k : AlarmKind) : (u.detectIf b n k).meters = u.meters :=
    (u.detectIf_carries b n k).meters
  have hstaleMeters : ((s.volumed n).detectStale n).meters = (s.volumed n).meters := hcarry _ _ _
  have hleak (u : State) (m : MeterId) (added : Nat) (hu : Keeps s u) (hum : u.meters = (s.volumed n).meters) :
      u.meterLeaks n m added = true ↔ 0 < added ∧ s.leakMl n < ((s.stage1 n).meter m).unassigned := by
    rw [State.meterLeaks, Bool.and_eq_true, decide_eq_true_iff, decide_eq_true_iff, State.leakMl, State.leakMl, hu.armCfg,
      State.meter_of_meters hum, State.meter_of_meters hmeters]
  rw [State.stage1_idle hidle, State.detectIf_latched, State.detectIf_latched, State.detectStale_latched,
    ← State.stage1_idle hidle, hleak _ _ _ hstaleKeeps hstaleMeters,
    hleak _ _ _ (hstaleKeeps.trans (State.detectIf_keeps _ _ n _)) ((hcarry _ _ _).trans hstaleMeters),
    (State.detectIf_keeps ((s.volumed n).detectStale n) _ n _).classOf, hstaleKeeps.classOf, s.volumed_alarm n,
    s.volumed_stale n, (s.volumed_keeps n).classOf]
  exact leaks_regroup

end

/-- Settles O25. -/
theorem idleFlowIsUnassigned : Obligations.IdleFlowIsUnassigned := by
  intro n due g e s hrun hmode hclock hidle hg he
  have hbase : ∀ l, (s.toSample n due).active n = some l → l.state = .ready := hidle
  obtain ⟨hsample, halarms⟩ := State.sample_idle hbase
  have hlatched := State.stage1_idle_latched hbase
  have hvolumed := State.volumed_idle hbase
  have halarm (m : ArmId) (hm : m ≠ n) : ((s.toSample n due).sample n).alarm m = s.alarm m := by
    rw [hsample, State.stage1_idle hbase, State.detectIf_alarm_ne _ hm, State.detectIf_alarm_ne _ hm,
      State.detectStale_eq, State.detectIf_alarm_ne _ hm, State.volumed_alarm]
    rfl
  have hvgas : ((s.toSample n due).sampleArm n).gas = g := by rw [hg]; rfl
  have hveth : ((s.toSample n due).sampleArm n).eth = e := by rw [he]; rfl
  rw [hvgas, hveth] at hlatched
  have hmeter (m : MeterId) : ((s.toSample n due).sample n).meter m =
      if m = ethMeter n then e.meter.addUnassigned e.gross
      else if m = gasMeter n then g.meter.addUnassigned g.gross else s.meter m := by
    rw [hsample, State.meter_of_meters halarms.fields.2.2, hvolumed, State.addToUnassigned, State.modMeter_meter,
      State.modMeter_meter, State.modMeter_meter, if_neg (gasMeter_ne_ethMeter n), State.takeSample_meter,
      State.takeSample_meter, State.takeSample_meter, hvgas, hveth, if_pos rfl, if_pos rfl,
      if_neg (gasMeter_ne_ethMeter n).symm]
    by_cases heth : m = ethMeter n
    · rw [if_pos heth, if_pos heth]
    · by_cases hgas : m = gasMeter n
      · rw [if_neg heth, if_neg heth, if_pos hgas, if_pos hgas, if_neg heth]
      · rw [if_neg heth, if_neg heth, if_neg hgas, if_neg hgas, if_neg heth, if_neg hgas]
        rfl
  have hgasMeter := hmeter (gasMeter n)
  have hethMeter := hmeter (ethMeter n)
  rw [if_neg (gasMeter_ne_ethMeter n).symm, if_pos rfl] at hgasMeter
  rw [if_pos rfl] at hethMeter
  have hgasKept : g.meter.unassigned = (s.meter (gasMeter n)).unassigned := by rw [hg]; rfl
  have hethKept : e.meter.unassigned = (s.meter (ethMeter n)).unassigned := by rw [he]; rfl
  rw [← hsample] at hlatched
  refine ⟨_, exec_sampleEvent hclock hrun hmode, ?_, ?_, ?_, fun m hm => ?_, ?_, fun hleak hclass => ?_,
    fun k hk hnot => ?_, halarm, ?_⟩
  · rw [((s.toSample n due).sample_keeps n).now]
    rfl
  · rw [hgasMeter, ← hgasKept]
    rfl
  · rw [hethMeter, ← hethKept]
    rfl
  · rw [ne_eq, meterArm_eq_iff, not_or] at hm
    rw [hmeter, if_neg hm.2, if_neg hm.1]
  · rw [hsample, halarms.arms, hvolumed]
    refine (congrArg (fun a : ArmSeq => ((s.toSample n due).arms.set n { a with
      qGas := ((s.toSample n due).sampleArm n).gas.flow, qEth := ((s.toSample n due).sampleArm n).eth.flow }))
      (s.toSample_arm n due)).trans ?_
    rw [hvgas, hveth, State.toSample, State.modArm, State.setArm]
    exact Vector.set_set ..
  · exact (hlatched _).mpr (Or.inr (Or.inr ⟨rfl, hclass, hleak⟩))
  · rcases (hlatched k).mp hk with h | ⟨h, -⟩ | ⟨h, -⟩
    · exact absurd h hnot
    · exact Or.inr h
    · exact Or.inl h
  · rw [hsample]
    have hframe : (s.toSample n due).volumed n = { s.toSample n due with
        meters := ((s.toSample n due).volumed n).meters, arms := ((s.toSample n due).volumed n).arms } := by
      rw [hvolumed]
      rfl
    have heq := halarms.frame hframe
    have hnow : ((s.toSample n due).stage1 n).now = max s.now due := ((s.toSample n due).stage1_keeps n).now
    rw [hnow]
    exact heq

end

end Sys2Proof.Machine
end

section
/-! SUPPORT. A sample of a DELIVERING record, stage by stage: each detection leaves the arm at rest or stops its record,
and a stopped record rests through the stages that follow (R15, R84, R169). -/

namespace Sys2Proof.Machine

section
variable {s t u x : State} {n : ArmId} {l l' : Load} {k : AlarmKind} {b : Bool}

/-! ## Detections: at rest, or stopped -/

/-- The record's phase is one a hold cause moves (R15). -/
def State.Stoppable (s : State) (n : ArmId) : Prop := holdablePhase (s.phase n) = true ∨ s.phase n = some .finish

/-- A hold cause ALARM moved the record, and nothing else happened at the arm. -/
def Stops (n : ArmId) (s t : State) : Prop :=
  s.Stoppable n ∧ ∃ y, Rests n s y ∧ Rests n (y.holdCause n .alarm) t

theorem Stops.rests (h : Stops n s t) (k : Rests n t u) : Stops n s u := by
  obtain ⟨hphase, y, hy, hheld⟩ := h
  exact ⟨hphase, y, hy, hheld.trans k⟩

theorem Stops.of_rests (h : Rests n s t) (k : Stops n t u) : Stops n s u := by
  obtain ⟨hphase, y, hy, hheld⟩ := k
  refine ⟨?_, y, h.trans hy, hheld⟩
  rwa [State.Stoppable, ← h.phase]

/-- A record stopped by a hold cause is HELD without a phase, or in SETTLE. -/
theorem State.holdCause_phase (h : s.Stoppable n) (c : HoldCause) :
    (s.holdCause n c).phase n = none ∨ (s.holdCause n c).phase n = some .settle := by
  have hsome : ∃ l, s.active n = some l := by
    rcases h with h | h
    · obtain ⟨p, hp⟩ := Option.isSome_iff_exists.mp (isSome_of_holdable h)
      obtain ⟨l, hl, -⟩ := State.phase_eq_some.mp hp
      exact ⟨l, hl⟩
    · obtain ⟨l, hl, -⟩ := State.phase_eq_some.mp h
      exact ⟨l, hl⟩
  obtain ⟨l, hl⟩ := hsome
  obtain ⟨l', hout⟩ := State.holdCause_heldOrCut hl h c
  rw [State.phase_eq hout.record]
  rcases h with h | h
  · exact Or.inl (Load.deliveringPhase_none (by rw [(hout.held h).1]; decide))
  · obtain ⟨hstate, hphase, -⟩ := hout.cut h
    exact Or.inr ((Load.deliveringPhase_delivering hstate).trans hphase)

theorem Stops.phase (h : Stops n s t) : t.phase n = none ∨ t.phase n = some .settle := by
  obtain ⟨hphase, y, hy, hheld⟩ := h
  rw [hheld.phase]
  exact State.holdCause_phase (by rwa [State.Stoppable, hy.phase]) _

theorem Stops.not_blending (h : Stops n s t) : blendingPhase (t.phase n) = false := by
  rcases h.phase with h | h <;> rw [h] <;> rfl

/-- A detection leaves the arm at rest, or, with class STOP, stops its record. -/
theorem State.detectIf_outcome (s : State) (b : Bool) (n : ArmId) (k : AlarmKind) :
    (Rests n s (s.detectIf b n k) ∧ (b = true → s.classOf k = .stop → ¬ s.Stoppable n)) ∨
      (b = true ∧ s.classOf k = .stop ∧ Stops n s (s.detectIf b n k)) := by
  have hlatch := (s.latch_onlyAlarms n k).rests n
  cases b with
  | false => exact Or.inl ⟨.refl n s, nofun⟩
  | true =>
    rw [State.detectIf, if_pos rfl]
    cases hclass : s.classOf k with
    | off =>
      rw [State.detect_off hclass]
      exact Or.inl ⟨.refl n s, nofun⟩
    | warn =>
      rw [State.detect_warn hclass]
      exact Or.inl ⟨hlatch, nofun⟩
    | stop =>
      rw [State.detect_stop hclass]
      by_cases hstop : s.Stoppable n
      · exact Or.inr ⟨rfl, rfl, hstop, _, hlatch, .refl n _⟩
      · refine Or.inl ⟨?_, fun _ _ => hstop⟩
        obtain ⟨hhold, hfinish⟩ := not_or.mp hstop
        rw [State.holdCause_none (s := s.latch n k) (by rw [hlatch.phase]; simpa using hhold)
          (by rw [hlatch.phase]; exact hfinish)]
        exact hlatch

theorem Rests.classOf (h : Rests n s t) (k : AlarmKind) : t.classOf k = s.classOf k := h.keeps.classOf k

/-- The stopped record and its arm, as they come of a hold cause (R15). -/
theorem Stops.heldOrCut (h : Stops n s t) (hl : s.active n = some l) : ∃ l', HeldOrCut .alarm s t n l l' := by
  obtain ⟨hphase, y, hy, hheld⟩ := h
  obtain ⟨k, hk, hkstill⟩ := hy.active_some hl
  obtain ⟨j, hout⟩ := State.holdCause_heldOrCut (s := y) hk (by rwa [hy.phase]) .alarm
  obtain ⟨l', hl', hstill⟩ := hheld.active_some hout.record
  have hdue : y.holdDue = s.holdDue := by rw [State.holdDue, State.holdDue, hy.keeps.settings, hy.keeps.now]
  have hjk := Load.eq_of_still hstill
  have hkl := Load.eq_of_still hkstill
  obtain ⟨hvalve, htarget, hset⟩ := hout.closed
  obtain ⟨hgas, hgasNet, heth, hethNet⟩ := hout.totals
  refine ⟨l', hl', ?_, ?_, ?_, ?_, fun hold => ?_, fun hfinish => ?_, ?_, ?_⟩
  · rw [hjk]
    exact hout.number.trans (by rw [hkl])
  · rw [hjk]
    exact hout.holdCount.trans (by rw [hkl])
  · rw [hjk]
    exact hout.lastCause
  · rw [hjk]
    exact ⟨hgas.trans (by rw [hkl]), hgasNet.trans (by rw [hkl]), heth.trans (by rw [hkl]), hethNet.trans (by rw [hkl])⟩
  · obtain ⟨hstate, hp, hpend, habort, hflags, htimer, hdrain, hgasRun, hethRun⟩ := hout.held (by rwa [hy.phase])
    rw [hheld.arm, hjk]
    exact ⟨hstate, hp, hpend, habort, hflags.trans (by rw [hkl]), htimer.trans hdue, hdrain, hgasRun, hethRun⟩
  · obtain ⟨hstate, hp, hcut, htimer, hsettle⟩ := hout.cut (by rwa [hy.phase])
    rw [hheld.arm, hheld.ratio, hjk]
    refine ⟨hstate, hp, hcut, htimer, hsettle.trans ?_⟩
    rw [hy.keeps.now, hy.keeps.armCfg]
  · rw [hheld.arm, hheld.ratio]
    exact ⟨hvalve, htarget, hset⟩
  · rw [hheld.resv]
    exact hout.released

/-! ## Stage 6 (R153, R154) -/

/-- The strokes due brought up, with the record falling behind (R154). -/
def State.ShortAfter (s : State) (n : ArmId) : Prop := (s.modActive n Load.updateDue).ShortDetected n

/-- Stage 6 leaves the arm at rest, or stops a blending record that fell behind. -/
theorem State.stage6_outcome (s : State) (n : ArmId) : Rests n s (s.stage6 n) ∨
    (s.ShortAfter n ∧ s.classOf .addShort = .stop ∧ Stops n s (s.stage6 n)) := by
  rw [State.stage6]
  split
  · exact Or.inl (.refl n s)
  · split
    · have hdue := s.updateDue_rests n
      have hissue := State.issueArm_rests ((s.modActive n Load.updateDue).checkAdditive n) n
      cases hl : (s.modActive n Load.updateDue).active n with
      | none =>
        have hcheck : (s.modActive n Load.updateDue).checkAdditive n = s.modActive n Load.updateDue := by
          rw [State.checkAdditive, hl]
        rw [hcheck] at hissue ⊢
        exact Or.inl (hdue.trans hissue)
      | some l =>
        have hcheck : (s.modActive n Load.updateDue).checkAdditive n = (s.modActive n Load.updateDue).detectIf
            (blendingPhase l.deliveringPhase && (s.modActive n Load.updateDue).fallsBehind l) n .addShort := by
          rw [State.checkAdditive, hl, ← blendingPhase_eq]
        rw [hcheck] at hissue ⊢
        rcases State.detectIf_outcome (s.modActive n Load.updateDue)
          (blendingPhase l.deliveringPhase && (s.modActive n Load.updateDue).fallsBehind l) n .addShort with
          ⟨hrest, -⟩ | ⟨hshort, hclass, hstop⟩
        · exact Or.inl ((hdue.trans hrest).trans hissue)
        · rw [Bool.and_eq_true] at hshort
          exact Or.inr ⟨⟨l, hl, hshort.1, hshort.2⟩, by rw [← hdue.classOf]; exact hclass,
            Stops.of_rests hdue (hstop.rests hissue)⟩
    · exact Or.inl (.refl n s)

/-! ## Stages 4 to 6 of a record in FINISH (R119, R154) -/

theorem State.stage5_finish (h : s.phase n = some .finish) : s.stage5 n =
    if s.closePasses n then s.enterSettle State.examine n else s.setSetpoint n := by
  rw [State.stage5, h]

theorem State.stage5_flowing (h : flowingPhase (s.phase n) = true) : s.stage5 n = (s.setSetpoint n).checkDeviation n := by
  rw [State.stage5]
  rcases flowingPhase_cases h with h | h | h <;> rw [h]

/-- A record in FINISH: its ethanol closes and it settles, or it stays with its setpoint set, or it is cut. -/
theorem State.finish_tail (h : s.phase n = some .finish) :
    (s.closePasses n = true ∧ Rests n (s.enterSettle State.examine n) (((s.stage4 n).stage5 n).stage6 n)) ∨
    (s.closePasses n = false ∧ Rests n (s.setSetpoint n) (((s.stage4 n).stage5 n).stage6 n)) ∨
    (s.closePasses n = false ∧ Stops n (s.setSetpoint n) (((s.stage4 n).stage5 n).stage6 n)) := by
  have hflow : flowingPhase (s.phase n) = false := by rw [h]; rfl
  rw [State.stage4_still hflow, State.stage5_finish h]
  cases hclose : s.closePasses n with
  | true =>
    rw [if_pos rfl]
    refine Or.inl ⟨rfl, State.stage6_rests ?_⟩
    obtain ⟨l, hl, hstate, -⟩ := State.phase_eq_some.mp h
    obtain ⟨l', hl', hstill⟩ := State.enterSettle_active hl
    rw [State.phase_eq hl', Load.eq_of_still hstill]
    exact congrArg blendingPhase (Load.deliveringPhase_delivering (l := { l.settled with entries := l'.entries }) hstate)
  | false =>
    rw [if_neg (by decide)]
    refine Or.inr ?_
    rcases State.stage6_outcome (s.setSetpoint n) n with hrest | ⟨-, -, hstop⟩
    · exact Or.inl ⟨rfl, hrest⟩
    · exact Or.inr ⟨rfl, hstop⟩

/-! ## Stage 5 of a flowing record (R113, R117, R118) -/

/-- The setpoint set and the deviation run judged, before a detection (R113, R117). -/
def State.deviationRun (s : State) (n : ArmId) : State :=
  match (s.setSetpoint n).active n with
  | none => s.setSetpoint n
  | some l =>
    if 1000 * (s.armCfg n).monitorStart < l.totalGross then
      (s.setSetpoint n).modRatio n fun q => { q with devRun := ((s.setSetpoint n).devJudged n l).1 }
    else s.setSetpoint n

theorem State.deviationRun_flows (s : State) (n : ArmId) : Flows (· = n) s (s.deviationRun n) := by
  have hset := s.setSetpoint_flows n
  rw [State.deviationRun]
  split
  · exact hset
  · exact .ite (hset.trans (State.modRatio_flows _ n _)) hset

theorem State.deviationRun_active (s : State) (n m : ArmId) : (s.deviationRun n).active m = s.active m := by
  rw [State.deviationRun]
  split
  · exact s.setSetpoint_active n m
  · split
    · exact s.setSetpoint_active n m
    · exact s.setSetpoint_active n m

theorem State.deviationRun_arm (s : State) (n m : ArmId) : (s.deviationRun n).arm m = s.arm m := by
  rw [State.deviationRun]
  split
  · exact s.setSetpoint_arm n m
  · split
    · exact s.setSetpoint_arm n m
    · exact s.setSetpoint_arm n m

theorem State.deviationRun_resv (s : State) (n m : ArmId) : (s.deviationRun n).resv m = s.resv m := by
  rw [State.deviationRun]
  split
  · exact s.setSetpoint_resv n m
  · split
    · exact s.setSetpoint_resv n m
    · exact s.setSetpoint_resv n m

theorem State.deviationRun_queue (s : State) (n : ArmId) : (s.deviationRun n).queue = s.queue := by
  rw [State.deviationRun]
  split
  · exact s.setSetpoint_queue n
  · split
    · exact s.setSetpoint_queue n
    · exact s.setSetpoint_queue n

theorem State.deviationRun_setpoint (s : State) (n : ArmId) :
    ((s.deviationRun n).ratio n).setpoint = ((s.setSetpoint n).ratio n).setpoint := by
  rw [State.deviationRun]
  split
  · rfl
  · split
    · rw [State.modRatio_ratio_self]
    · rfl

/-- The deviation check leaves the arm at rest, or stops a record whose deviation is as old as the alarm delay. -/
theorem State.checkDeviation_outcome (s : State) (n : ArmId) :
    (Rests n (s.deviationRun n) ((s.setSetpoint n).checkDeviation n) ∧
      ((s.setSetpoint n).DeviationDetected n → s.classOf .ratioDev = .stop → ¬ s.Stoppable n)) ∨
    ((s.setSetpoint n).DeviationDetected n ∧ s.classOf .ratioDev = .stop ∧
      Stops n (s.deviationRun n) ((s.setSetpoint n).checkDeviation n)) := by
  rw [State.deviationRun, State.DeviationDetected]
  cases hl : (s.setSetpoint n).active n with
  | none =>
    rw [State.checkDeviation_none hl]
    exact Or.inl ⟨.refl n _, by rintro ⟨l, h, -⟩; cases h⟩
  | some l =>
    have hcfg : (s.setSetpoint n).armCfg n = s.armCfg n := (s.setSetpoint_keeps n).armCfg n
    rw [State.checkDeviation_some hl, hcfg]
    dsimp only
    split
    · rename_i hmonitor
      have hphase (f : Ratio → Ratio) : ((s.setSetpoint n).modRatio n f).phase n = s.phase n := s.setSetpoint_phase n n
      have hclassOf (f : Ratio → Ratio) : ((s.setSetpoint n).modRatio n f).classOf .ratioDev = s.classOf .ratioDev :=
        (s.setSetpoint_keeps n).classOf .ratioDev
      rcases State.detectIf_outcome ((s.setSetpoint n).modRatio n fun q =>
        { q with devRun := ((s.setSetpoint n).devJudged n l).1 }) ((s.setSetpoint n).devJudged n l).2 n .ratioDev with
        ⟨hrest, hnot⟩ | ⟨hlate, hclass, hstop⟩
      · refine Or.inl ⟨hrest, ?_⟩
        rintro ⟨k, hk, -, hlate⟩ hclass
        cases hk
        have hno := hnot hlate (by rw [hclassOf]; exact hclass)
        rwa [State.Stoppable, hphase] at hno
      · rw [hclassOf] at hclass
        exact Or.inr ⟨⟨l, rfl, hmonitor, hlate⟩, hclass, hstop⟩
    · rename_i hmonitor
      refine Or.inl ⟨.refl n _, ?_⟩
      rintro ⟨k, hk, hk2, -⟩
      cases hk
      exact absurd hk2 hmonitor

/-- Stages 4 to 6 of a flowing record: the valve decided, the setpoint set and the deviation run judged, and the arm at
rest then, or its record stopped. -/
theorem State.flowing_tail (h : flowingPhase (s.phase n) = true) :
    Rests n ((s.decideValve n).deviationRun n) (((s.stage4 n).stage5 n).stage6 n) ∨
      Stops n ((s.decideValve n).deviationRun n) (((s.stage4 n).stage5 n).stage6 n) := by
  have hvalve : (s.decideValve n).phase n = s.phase n := rfl
  have h4 : s.stage4 n = s.decideValve n := by
    rw [State.stage4]
    exact if_pos h
  rw [h4, State.stage5_flowing (by rwa [hvalve])]
  rcases State.checkDeviation_outcome (s.decideValve n) n with ⟨hrest, -⟩ | ⟨-, -, hstop⟩
  · rcases State.stage6_outcome (((s.decideValve n).setSetpoint n).checkDeviation n) n with hrest' | ⟨-, -, hstop⟩
    · exact Or.inl (hrest.trans hrest')
    · exact Or.inr (Stops.of_rests hrest hstop)
  · exact Or.inr (hstop.rests (State.stage6_rests hstop.not_blending))

/-! ## Stages 1 and 2 of a DELIVERING record -/

/-- Stage 1 leaves the arm at rest, or stops the record on a stale channel. -/
theorem State.stage1_outcome (hl : s.active n = some l) (h : l.state = .delivering) :
    (Rests n (s.volumed n) (s.stage1 n) ∧
      (s.staleAt n s.now → s.classOf .tempFault = .stop → ¬ s.Stoppable n)) ∨
    (s.staleAt n s.now ∧ s.classOf .tempFault = .stop ∧ Stops n (s.volumed n) (s.stage1 n)) := by
  rw [State.stage1_delivering hl h, State.detectStale_eq, ← s.volumed_stale n, ← State.stale_iff,
    ← (s.volumed_keeps n).classOf]
  rcases State.detectIf_outcome (s.volumed n)
    ((s.volumed n).tempStale (gasMeter n) || (s.volumed n).tempStale (ethMeter n)) n .tempFault with
    ⟨hrest, hnot⟩ | hstop
  · refine Or.inl ⟨hrest, fun hstale hclass => ?_⟩
    have hno := hnot hstale hclass
    rwa [State.Stoppable, s.volumed_phase n] at hno
  · exact Or.inr hstop

/-- Stage 2 of a flowing record leaves the arm at rest with its runs judged, or stops the record. -/
theorem State.stage2_outcome (hflow : flowingPhase (s.phase n) = true) (v : Valve) (sp : Nat) :
    (Rests n (s.runsJudged n v sp) (s.stage2 n v sp) ∧ (s.NoFlowDetected n v sp → s.classOf .noFlow ≠ .stop)) ∨
    (s.NoFlowDetected n v sp ∧ s.classOf .noFlow = .stop ∧ Stops n (s.runsJudged n v sp) (s.stage2 n v sp)) := by
  have hphase : (s.runsJudged n v sp).phase n = s.phase n := rfl
  have hclassOf : (s.runsJudged n v sp).classOf .noFlow = s.classOf .noFlow := rfl
  rw [State.stage2_eq, if_pos hflow, State.NoFlowDetected, ← Bool.or_eq_true]
  rcases State.detectIf_outcome (s.runsJudged n v sp)
    ((s.gasRunJudged n v).2 || (s.ethRunJudged n sp).2) n .noFlow with ⟨hrest, hnot⟩ | ⟨hlate, hclass, hstop⟩
  · refine Or.inl ⟨hrest, fun hlate hclass => hnot hlate.2 (by rw [hclassOf]; exact hclass) (Or.inl ?_)⟩
    rw [hphase]
    rcases flowingPhase_cases hflow with h | h | h <;> rw [h] <;> rfl
  · exact Or.inr ⟨⟨hflow, hlate⟩, hclass, hstop⟩

end

end Sys2Proof.Machine
end

section
/-! SUPPORT. A sample of a flowing record up to its compare tests: what detects, what the tests make of it, and the
no-flow runs it leaves (R84, R86, R104). -/

namespace Sys2Proof.Machine

section
variable {s t u : State} {n : ArmId} {l l' : Load} {v : Valve} {sp : Nat}

/-! ## A judged run (R104, R117) -/

theorem judgeRun_late {b : Bool} {run : Option Nat} {now limit : Nat} :
    (judgeRun b run now limit).2 = true ↔ b = true ∧ ∃ t, run = some t ∧ limit ≤ now - t := by
  cases b with
  | false => simp [judgeRun]
  | true =>
    cases run with
    | none => simp [judgeRun]
    | some t =>
      rw [judgeRun]
      split <;> simp_all

theorem judgeRun_ends {b : Bool} {run : Option Nat} {now limit : Nat} (h : b = false ∨ (judgeRun b run now limit).2 = true) :
    (judgeRun b run now limit).1 = none := by
  cases b with
  | false => rfl
  | true =>
    cases run with
    | none => simp [judgeRun] at h
    | some t =>
      rw [judgeRun] at h ⊢
      split at h <;> simp_all

theorem judgeRun_goes_on {b : Bool} {run : Option Nat} {now limit : Nat} (hb : b = true)
    (h : ¬ (judgeRun b run now limit).2 = true) : (judgeRun b run now limit).1 = some (run.getD now) := by
  subst hb
  cases run with
  | none => rfl
  | some t =>
    rw [judgeRun] at h ⊢
    by_cases hlimit : limit ≤ now - t
    · rw [if_pos hlimit] at h
      exact absurd rfl h
    · exact congrArg Prod.fst (if_neg hlimit)

/-! ## The first two stages -/

theorem State.runsJudged_arm (s : State) (n : ArmId) (v : Valve) (sp : Nat) : (s.runsJudged n v sp).arm n = { s.arm n with
    gasRun := (s.gasRunJudged n v).1, ethRun := (s.ethRunJudged n sp).1
    stalled := if (s.gasRunJudged n v).2 || (s.ethRunJudged n sp).2
      then stalledMeter (s.gasRunJudged n v).2 (s.ethRunJudged n sp).2 else (s.arm n).stalled } := State.modArm_arm_self _ n _

theorem Rests.gasRunJudged (h : Rests n s t) (v : Valve) : t.gasRunJudged n v = s.gasRunJudged n v := by
  rw [State.gasRunJudged, State.gasRunJudged, h.arm, h.keeps.now, h.keeps.armCfg]

theorem Rests.ethRunJudged (h : Rests n s t) (sp : Nat) : t.ethRunJudged n sp = s.ethRunJudged n sp := by
  rw [State.ethRunJudged, State.ethRunJudged, h.arm, h.keeps.now, h.keeps.armCfg]

theorem Rests.runsJudged (h : Rests n s t) (v : Valve) (sp : Nat) : Rests n (s.runsJudged n v sp) (t.runsJudged n v sp) where
  keeps := { h.keeps with }
  arm := by rw [State.runsJudged_arm, State.runsJudged_arm, h.gasRunJudged, h.ethRunJudged, h.arm]
  ratio := h.ratio
  resv := h.resv
  queue := h.queue
  record := h.record

theorem Rests.noFlowDetected (h : Rests n s t) : t.NoFlowDetected n v sp ↔ s.NoFlowDetected n v sp := by
  rw [State.NoFlowDetected, State.NoFlowDetected, h.gasRunJudged, h.ethRunJudged, h.phase]

theorem Stops.isSome (h : Stops n s t) : ∃ l, s.active n = some l := by
  rcases h.1 with h | h
  · obtain ⟨p, hp⟩ := Option.isSome_iff_exists.mp (isSome_of_holdable h)
    obtain ⟨l, hl, -⟩ := State.phase_eq_some.mp hp
    exact ⟨l, hl⟩
  · obtain ⟨l, hl, -⟩ := State.phase_eq_some.mp h
    exact ⟨l, hl⟩

/-- The no-flow runs a sample judges, on the flow rates it computed (R104). -/
def State.sampleJudged (s : State) (n : ArmId) : State :=
  (s.volumed n).runsJudged n (s.arm n).valve (s.ratio n).setpoint

/-- The no-flow supervision of a sample detects. -/
def State.SampleStalls (s : State) (n : ArmId) : Prop :=
  (s.volumed n).NoFlowDetected n (s.arm n).valve (s.ratio n).setpoint

/-- The state after the first two stages. -/
def State.supervised (s : State) (n : ArmId) : State := (s.stage1 n).stage2 n (s.arm n).valve (s.ratio n).setpoint

theorem State.sample_supervised (s : State) (n : ArmId) :
    s.sample n = ((((s.supervised n).stage3 n).stage4 n).stage5 n).stage6 n := rfl

/-- The first two stages of a flowing record: stopped on a stale channel, stopped on a stalled meter, or at rest with its
runs judged. -/
theorem State.supervised_outcome (hl : s.active n = some l) (h : l.state = .delivering)
    (hflow : flowingPhase (s.phase n) = true) :
    (s.staleAt n s.now ∧ s.classOf .tempFault = .stop ∧ Stops n (s.volumed n) (s.supervised n)) ∨
    (s.SampleStalls n ∧ s.classOf .noFlow = .stop ∧ Stops n (s.sampleJudged n) (s.supervised n)) ∨
    ((s.SampleStalls n → s.classOf .noFlow ≠ .stop) ∧ Rests n (s.sampleJudged n) (s.supervised n)) := by
  rw [State.supervised, State.SampleStalls, State.sampleJudged]
  rcases State.stage1_outcome hl h with ⟨hrest, -⟩ | ⟨hstale, hclass, hstop⟩
  · have hclassOf : (s.stage1 n).classOf .noFlow = s.classOf .noFlow := ((s.volumed_keeps n).trans hrest.keeps).classOf _
    rcases State.stage2_outcome (s := s.stage1 n) (n := n) (by rwa [hrest.phase, s.volumed_phase n]) (s.arm n).valve
      (s.ratio n).setpoint with ⟨hrest2, hnot⟩ | ⟨hstall, hclass, hstop⟩
    · rw [hclassOf, hrest.noFlowDetected] at hnot
      exact Or.inr (Or.inr ⟨hnot, (hrest.runsJudged _ _).trans hrest2⟩)
    · rw [hclassOf] at hclass
      exact Or.inr (Or.inl ⟨hrest.noFlowDetected.mp hstall, hclass, Stops.of_rests (hrest.runsJudged _ _) hstop⟩)
  · refine Or.inl ⟨hstale, hclass, hstop.rests ?_⟩
    rw [State.stage2_still (flowing_of_not_blending hstop.not_blending)]
    exact .refl n _

/-- The stages after the first two leave a stopped record at rest. -/
theorem Stops.sample (h : Stops n u (s.supervised n)) : Stops n u (s.sample n) := by
  refine h.rests ?_
  have hflow := flowing_of_not_blending h.not_blending
  rw [State.sample_supervised, State.stage3_still hflow, State.stage4_still hflow, State.stage5_still h.not_blending]
  exact State.stage6_rests h.not_blending

/-! ## The compare tests (R86) -/

/-- The compare tests of a sample: an entry to FINISH, an entry to TAPER, or the low-start test alone. -/
theorem State.stage3_outcome (hl : s.active n = some l) (hflow : flowingPhase l.deliveringPhase = true)
    (hnone : l.deliveringPhase = some .high → ∀ r ∈ s.queue, r.arm ≠ n) :
    (s.finishReached n l ∧ ∃ l', s.FinishOutcome (s.stage3 n) n l l' true) ∨
    (¬ s.finishReached n l ∧ s.taperReached n l ∧ l.deliveringPhase ≠ some .taper ∧
      s.stage3 n = s.enterTaper State.examine false n) ∨
    (¬ s.finishReached n l ∧ (l.deliveringPhase = some .taper ∨ ¬ s.taperReached n l) ∧ s.stage3 n = s.lowStartTest n) := by
  have hstage : s.stage3 n = s.compareTests State.examine true n := by
    rw [State.stage3, if_pos (by rwa [State.phase_eq hl])]
  rw [hstage]
  by_cases hfinish : s.finishReached n l
  · exact Or.inl ⟨hfinish, State.finishOutcome_of_enters hl (State.compareTests_finish hl hflow hnone true hfinish)⟩
  · by_cases htaper : l.deliveringPhase = some .taper ∨ ¬ s.taperReached n l
    · exact Or.inr (Or.inr ⟨hfinish, htaper, State.compareTests_short hl true hfinish htaper⟩)
    · obtain ⟨hphase, hdue⟩ := not_or.mp htaper
      exact Or.inr (Or.inl ⟨hfinish, not_not.mp hdue, hphase,
        State.compareTests_taper hl hflow hnone true hfinish (not_not.mp hdue) hphase⟩)

/-- A record that reached its finish point is in FINISH or SETTLE. -/
theorem State.FinishOutcome.phase {b : Bool} (h : s.FinishOutcome t n l l' b) (hstate : l.state = .delivering) :
    t.phase n = some .finish ∨ t.phase n = some .settle := by
  have hstate' : l'.state = .delivering := (Load.core_state h.core).trans hstate
  rw [State.phase_eq h.record, Load.deliveringPhase_delivering hstate']
  by_cases hcloses : s.closesAtOnce n l b
  · exact Or.inr (h.closes hcloses).1
  · exact Or.inl (h.stays hcloses).1

/-! ## The runs a sample leaves (R104) -/

/-- The arm's meters that stalled stay, and its runs go on while its record flows and end when it does not. -/
structure RunsKept (n : ArmId) (s t : State) : Prop where
  stalled : (t.arm n).stalled = (s.arm n).stalled
  flowing : flowingPhase (t.phase n) = true → (t.arm n).gasRun = (s.arm n).gasRun ∧ (t.arm n).ethRun = (s.arm n).ethRun
  still : flowingPhase (t.phase n) = false → (t.arm n).gasRun = none ∧ (t.arm n).ethRun = none

theorem Flows.stalled {A : ArmId → Prop} (h : Flows A s t) (n : ArmId) : (t.arm n).stalled = (s.arm n).stalled :=
  show (t.arm n).core.stalled = (s.arm n).core.stalled from congrArg ArmSeq.stalled (h.arms n)

/-- The runs of a stopped record have ended. -/
theorem Stops.runs (h : Stops n s t) :
    (t.arm n).stalled = (s.arm n).stalled ∧ (t.arm n).gasRun = none ∧ (t.arm n).ethRun = none := by
  obtain ⟨hphase, y, hy, hheld⟩ := h
  rw [hheld.arm, ← hy.arm]
  rw [State.Stoppable, ← hy.phase] at hphase
  by_cases hold : holdablePhase (y.phase n) = true
  · rw [State.holdCause_holdable hold, State.hold_arm]
    exact ⟨rfl, rfl, rfl⟩
  · rw [State.holdCause_finish (hphase.resolve_left hold), State.cutFinish_arm]
    exact ⟨rfl, rfl, rfl⟩

theorem Stops.runsKept (h : Stops n s t) : RunsKept n s t := by
  obtain ⟨hstalled, hruns⟩ := h.runs
  refine ⟨hstalled, fun hflow => ?_, fun _ => hruns⟩
  rw [flowing_of_not_blending h.not_blending] at hflow
  cases hflow

theorem State.lowStartTest_runs (s : State) (n : ArmId) : ((s.lowStartTest n).arm n).gasRun = (s.arm n).gasRun ∧
    ((s.lowStartTest n).arm n).ethRun = (s.arm n).ethRun ∧ (s.lowStartTest n).ratio n = s.ratio n := by
  cases hl : s.active n with
  | none =>
    rw [State.lowStartTest_none hl]
    exact ⟨rfl, rfl, rfl⟩
  | some l =>
    by_cases hdue : s.lowStartDue n l
    · by_cases hgrant : s.grantsAtOnce (s.upgradeAsked n (s.fraction l)) = true
      · rw [State.lowStartTest_granted hl hdue hgrant, State.enterHigh_arm]
        exact ⟨rfl, rfl, rfl⟩
      · rw [State.lowStartTest_queued hl hdue (by simpa using hgrant)]
        exact ⟨rfl, rfl, rfl⟩
    · rw [State.lowStartTest_idle hl hdue]
      exact ⟨rfl, rfl, rfl⟩

section
variable (hl : s.active n = some l) (hflow : flowingPhase l.deliveringPhase = true)
    (hnone : l.deliveringPhase = some .high → ∀ r ∈ s.queue, r.arm ≠ n)
include hl hflow hnone

/-- A record the compare tests leave flowing keeps the runs of its arm. -/
theorem State.stage3_runsKept : RunsKept n s (s.stage3 n) ∧
    (flowingPhase ((s.stage3 n).phase n) = true → ((s.stage3 n).ratio n).devRun = (s.ratio n).devRun) := by
  have hstalled := (s.stage3_flows n).stalled n
  have hphase := State.phase_eq hl
  have hstate : l.state = .delivering := by
    obtain ⟨k, hk, hstate⟩ := State.delivers_of_flowing (s := s) (n := n) (by rwa [hphase])
    rw [hl, Option.some.injEq] at hk
    rwa [hk]
  rcases State.stage3_outcome hl hflow hnone with ⟨-, l', hout⟩ | ⟨-, -, hnot, heq⟩ | ⟨-, -, heq⟩
  · have hends : flowingPhase ((s.stage3 n).phase n) = false := by
      rcases hout.phase hstate with h | h <;> rw [h] <;> rfl
    refine ⟨⟨hstalled, fun h => ?_, fun _ => ?_⟩, fun h => ?_⟩
    · rw [hends] at h
      cases h
    · by_cases hcloses : s.closesAtOnce n l true
      · exact (hout.closes hcloses).2.runs
      · exact ⟨(hout.stays hcloses).2.runs.1, (hout.stays hcloses).2.runs.2.1⟩
    · rw [hends] at h
      cases h
  · have hhigh : s.phase n = some .high → ∀ r ∈ s.queue, r.arm ≠ n := fun h => hnone (hphase ▸ h)
    have htaper := State.enterTaper_taper hhigh false (State.delivers_of_flowing (by rwa [hphase]))
    rw [heq] at hstalled ⊢
    refine ⟨⟨hstalled, fun _ => ?_, fun h => ?_⟩, fun _ => ?_⟩
    · rw [State.enterTaper_arm hhigh, s.toTaper_arm n false]
      exact ⟨rfl, rfl⟩
    · rw [htaper] at h
      cases h
    · rw [State.enterTaper_ratio hhigh, s.toTaper_ratio n false]
      split <;> rfl
  · obtain ⟨hgas, heth, hratio⟩ := s.lowStartTest_runs n
    have hlow := State.lowStartTest_flowing (s := s) (n := n) (by rwa [hphase])
    rw [heq] at hstalled ⊢
    refine ⟨⟨hstalled, fun _ => ⟨hgas, heth⟩, fun h => ?_⟩, fun _ => by rw [hratio]⟩
    rw [hlow] at h
    cases h

end

theorem Rests.runsKept (h : Rests n t u) (k : RunsKept n s t) : RunsKept n s u := by
  refine ⟨?_, fun hflow => ?_, fun hstill => ?_⟩
  · rw [h.arm]
    exact k.stalled
  · rw [h.arm]
    exact k.flowing (by rwa [← h.phase])
  · rw [h.arm]
    exact k.still (by rwa [← h.phase])

/-- A state with the stalled meters of another and no runs, whose record does not flow. -/
theorem RunsKept.of_ended (hstalled : (t.arm n).stalled = (s.arm n).stalled)
    (hruns : (t.arm n).gasRun = none ∧ (t.arm n).ethRun = none) (hphase : flowingPhase (t.phase n) = false) :
    RunsKept n s t := by
  refine ⟨hstalled, fun hflow => ?_, fun _ => hruns⟩
  rw [hphase] at hflow
  cases hflow

/-- The last three stages keep the stalled meters and the runs of a record that flows or is in FINISH or SETTLE. -/
theorem RunsKept.tail (h : RunsKept n s t)
    (hphase : flowingPhase (t.phase n) = true ∨ t.phase n = some .finish ∨ t.phase n = some .settle) :
    RunsKept n s (((t.stage4 n).stage5 n).stage6 n) := by
  rcases hphase with hflow | hfinish | hsettle
  · have harm : ((t.decideValve n).deviationRun n).arm n = { t.arm n with
        valve := valveFor (t.arm n).qGas (t.arm n).gasTarget (t.armCfg n).deadband } := by
      rw [State.deviationRun_arm]
      exact State.modArm_arm_self _ n _
    have hactive : ((t.decideValve n).deviationRun n).active n = t.active n := State.deviationRun_active _ n n
    have hvalve : RunsKept n s ((t.decideValve n).deviationRun n) := by
      have hsame : ((t.decideValve n).deviationRun n).phase n = t.phase n := by
        rw [State.phase, State.phase, hactive]
      refine ⟨by rw [harm]; exact h.stalled, fun _ => by rw [harm]; exact h.flowing hflow, fun hstill => ?_⟩
      rw [hsame, hflow] at hstill
      cases hstill
    rcases State.flowing_tail hflow with hrest | hstop
    · exact hrest.runsKept hvalve
    · obtain ⟨hstalled, hruns⟩ := hstop.runs
      exact .of_ended (hstalled.trans hvalve.stalled) hruns (flowing_of_not_blending hstop.not_blending)
  · have hruns := h.still (by rw [hfinish]; rfl)
    have hset : (t.setSetpoint n).arm n = t.arm n := t.setSetpoint_arm n n
    rcases State.finish_tail hfinish with ⟨-, hrest⟩ | ⟨-, hrest⟩ | ⟨-, hstop⟩
    · refine hrest.runsKept ?_
      obtain ⟨l, hl, hstate, -⟩ := State.phase_eq_some.mp hfinish
      obtain ⟨l', hl', hstill⟩ := State.enterSettle_active hl
      refine .of_ended (by rw [t.enterSettle_arm n]; exact h.stalled) (by rw [t.enterSettle_arm n]; exact ⟨rfl, rfl⟩) ?_
      rw [State.phase_eq hl', Load.eq_of_still hstill]
      exact congrArg flowingPhase (Load.deliveringPhase_delivering (l := { l.settled with entries := l'.entries }) hstate)
    · refine hrest.runsKept (.of_ended (by rw [hset]; exact h.stalled) (by rw [hset]; exact hruns) ?_)
      rw [t.setSetpoint_phase n, hfinish]
      rfl
    · obtain ⟨hstalled, hends⟩ := hstop.runs
      exact .of_ended (hstalled.trans (by rw [hset]; exact h.stalled)) hends (flowing_of_not_blending hstop.not_blending)
  · have hblend : blendingPhase (t.phase n) = false := by rw [hsettle]; rfl
    have hflow := flowing_of_not_blending hblend
    rw [State.stage4_still hflow, State.stage5_still hblend]
    exact (State.stage6_rests hblend).runsKept h

end

end Sys2Proof.Machine
end

section
/-! O31: no-flow supervision at a sample (R104). -/

namespace Sys2Proof.Machine

section
variable {s t : State} {n : ArmId} {l l' : Load}

/-- The record after the first two stages of a sample that left the arm at rest. -/
theorem State.supervised_rests (hl : s.active n = some l) (h : l.state = .delivering)
    (hrest : Rests n (s.sampleJudged n) (s.supervised n)) :
    (∃ k, (s.supervised n).active n = some k ∧ k.still = (l.sampledBy (s.sampleArm n)).still) ∧
      (s.supervised n).phase n = s.phase n ∧ (s.supervised n).queue = s.queue := by
  have hactive : (s.sampleJudged n).active n = some (l.sampledBy (s.sampleArm n)) := State.volumed_active hl (Or.inl h)
  refine ⟨hrest.active_some hactive, ?_, ?_⟩
  · rw [hrest.phase]
    exact s.volumed_phase n
  · rw [hrest.queue]
    exact (s.volumed_unmoved n).queue

section
variable (hl : s.active n = some l) (h : l.state = .delivering) (hflow : flowingPhase (s.phase n) = true)
    (hnone : s.phase n = some .high → ∀ r ∈ s.queue, r.arm ≠ n)
include hl h hflow hnone

/-- What the compare tests of a sample start from, when the first two stages left the arm at rest. -/
theorem State.supervised_tested (hrest : Rests n (s.sampleJudged n) (s.supervised n)) : ∃ k,
    (s.supervised n).active n = some k ∧ k.still = (l.sampledBy (s.sampleArm n)).still ∧
      flowingPhase k.deliveringPhase = true ∧ (k.deliveringPhase = some .high → ∀ r ∈ (s.supervised n).queue, r.arm ≠ n) := by
  obtain ⟨⟨k, hk, hstill⟩, hphase, hqueue⟩ := State.supervised_rests hl h hrest
  rw [State.phase_eq hk] at hphase
  refine ⟨k, hk, hstill, by rwa [hphase], fun hhigh => ?_⟩
  rw [hqueue]
  exact hnone (hphase ▸ hhigh)

/-- A sample whose channels are not stale leaves the runs it judged (R104). -/
theorem State.sample_runsKept (hstale : ¬ s.staleAt n s.now) : RunsKept n (s.sampleJudged n) (s.sample n) := by
  rcases State.supervised_outcome hl h hflow with ⟨hyes, -⟩ | ⟨-, -, hstop⟩ | ⟨-, hrest⟩
  · exact absurd hyes hstale
  · exact hstop.sample.runsKept
  · obtain ⟨k, hk, hstill, hkflow, hknone⟩ := State.supervised_tested hl h hflow hnone hrest
    have hkept := (State.stage3_runsKept hk hkflow hknone).1
    have hrests : RunsKept n (s.sampleJudged n) ((s.supervised n).stage3 n) := by
      refine ⟨hkept.stalled.trans (by rw [hrest.arm]), fun hf => ?_, hkept.still⟩
      rw [← hrest.arm]
      exact hkept.flowing hf
    rw [State.sample_supervised]
    refine hrests.tail ?_
    rcases State.stage3_outcome hk hkflow hknone with ⟨-, l', hout⟩ | ⟨-, -, hnot, heq⟩ | ⟨-, -, heq⟩
    · refine Or.inr (hout.phase ?_)
      rw [Load.eq_of_still hstill]
      exact ((l.sampledBy_totals (s.sampleArm n)).2.2.1).trans h
    · refine Or.inl ?_
      rw [heq, State.enterTaper_taper (fun hhigh => hknone ((State.phase_eq hk).symm.trans hhigh)) _
        (State.delivers_of_flowing (by rwa [State.phase_eq hk]))]
      rfl
    · refine Or.inl ?_
      rw [heq]
      exact State.lowStartTest_flowing (by rwa [State.phase_eq hk])

end

/-- NO_FLOW at a sample of a DELIVERING record whose channels are not stale (R104). -/
theorem State.sample_noFlow (hl : s.active n = some l) (h : l.state = .delivering) (hstale : ¬ s.staleAt n s.now) :
    AlarmKind.noFlow ∈ ((s.sample n).alarm n).latched ↔
      AlarmKind.noFlow ∈ (s.alarm n).latched ∨ (s.classOf .noFlow ≠ .off ∧ s.SampleStalls n) := by
  have hfirst : Rests n (s.volumed n) (s.stage1 n) := by
    rcases State.stage1_outcome hl h with ⟨hrest, -⟩ | ⟨hyes, -⟩
    · exact hrest
    · exact absurd hyes hstale
  have hclass : (s.stage1 n).classOf .noFlow = s.classOf .noFlow := ((s.volumed_keeps n).trans hfirst.keeps).classOf _
  have hlatched : AlarmKind.noFlow ∈ ((s.stage1 n).alarm n).latched ↔ AlarmKind.noFlow ∈ (s.alarm n).latched := by
    rw [State.stage1_delivering hl h, State.detectStale_latched, s.volumed_alarm n]
    simp
  rw [State.sample_supervised, State.stage6_latched_of_ne _ n (by decide), State.stage5_latched,
    (State.stage4_flows _ n).latched, (State.stage3_flows _ n).latched, State.supervised, State.stage2_latched, hlatched,
    hclass, hfirst.noFlowDetected, State.SampleStalls]
  simp only [true_and, reduceCtorEq, false_and, or_false]
  rw [and_comm]

/-- With class STOP a stalled meter holds the record (R15). -/
theorem State.sample_stalled_held (hl : s.active n = some l) (h : l.state = .delivering)
    (hflow : flowingPhase (s.phase n) = true) (hstale : ¬ s.staleAt n s.now) (hstall : s.SampleStalls n)
    (hclass : s.classOf .noFlow = .stop) :
    ∃ l', (s.sample n).active n = some l' ∧ l'.state = .held ∧ l'.lastCause = some .alarm := by
  rcases State.supervised_outcome hl h hflow with ⟨hyes, -⟩ | ⟨-, -, hstop⟩ | ⟨hnot, -⟩
  · exact absurd hyes hstale
  · have hactive : (s.sampleJudged n).active n = some (l.sampledBy (s.sampleArm n)) := State.volumed_active hl (Or.inl h)
    obtain ⟨l', hout⟩ := hstop.sample.heldOrCut hactive
    have hphase : (s.sampleJudged n).phase n = s.phase n := s.volumed_phase n
    obtain ⟨hheld, -⟩ := hout.held (State.holdable_of_flowing (by rwa [hphase]))
    exact ⟨l', hout.record, hheld, hout.lastCause⟩
  · exact absurd hclass (hnot hstall)

/-- The runs judged, and the meters found stalled, from what is still and what is late (R104). -/
structure State.StallsJudged (s t : State) (n : ArmId) (now : Nat) (gasStill ethStill gasLate ethLate : Prop) : Prop where
  gasEnds : ¬ gasStill ∨ gasLate → (t.arm n).gasRun = none
  ethEnds : ¬ ethStill ∨ ethLate → (t.arm n).ethRun = none
  gasGoesOn : gasStill → ¬ gasLate → (t.arm n).gasRun = some ((s.arm n).gasRun.getD now)
  ethGoesOn : ethStill → ¬ ethLate → (t.arm n).ethRun = some ((s.arm n).ethRun.getD now)
  gas : gasLate → ¬ ethLate → (t.arm n).stalled = some .gas
  ethanol : ethLate → ¬ gasLate → (t.arm n).stalled = some .ethanol
  both : gasLate → ethLate → (t.arm n).stalled = some .both
  neither : ¬ gasLate → ¬ ethLate → (t.arm n).stalled = (s.arm n).stalled

theorem State.runsJudged_judged {v : Valve} {sp : Nat} {gasStill ethStill gasLate ethLate : Prop}
    (hgas : gasStill ↔ v ≠ .close ∧ (s.arm n).qGas = 0) (heth : ethStill ↔ 0 < sp ∧ (s.arm n).qEth = 0)
    (hgasLate : gasLate ↔ (s.gasRunJudged n v).2 = true) (hethLate : ethLate ↔ (s.ethRunJudged n sp).2 = true) :
    s.StallsJudged (s.runsJudged n v sp) n s.now gasStill ethStill gasLate ethLate := by
  have hgasBool : (v != .close && (s.arm n).qGas == 0) = true ↔ gasStill := by simp [hgas]
  have hethBool : (decide (0 < sp) && (s.arm n).qEth == 0) = true ↔ ethStill := by simp [heth]
  have harm := s.runsJudged_arm n v sp
  rw [State.gasRunJudged] at hgasLate
  rw [State.ethRunJudged] at hethLate
  rw [State.gasRunJudged, State.ethRunJudged] at harm
  refine ⟨fun h => ?_, fun h => ?_, fun h hnot => ?_, fun h hnot => ?_, fun hg he => ?_, fun he hg => ?_, fun hg he => ?_,
    fun hg he => ?_⟩
  · rw [harm]
    exact judgeRun_ends (h.imp (fun h => Bool.eq_false_iff.mpr fun hb => h (hgasBool.mp hb)) hgasLate.mp)
  · rw [harm]
    exact judgeRun_ends (h.imp (fun h => Bool.eq_false_iff.mpr fun hb => h (hethBool.mp hb)) hethLate.mp)
  · rw [harm]
    exact judgeRun_goes_on (hgasBool.mpr h) fun hl => hnot (hgasLate.mpr hl)
  · rw [harm]
    exact judgeRun_goes_on (hethBool.mpr h) fun hl => hnot (hethLate.mpr hl)
  all_goals
    rw [hgasLate] at hg
    rw [hethLate] at he
    rw [harm]
    simp [hg, he, stalledMeter]

end

/-- Settles O31. -/
theorem stalledGasIsDetected : Obligations.StalledGasIsDetected := by
  intro n due now v gasStill ethStill gasLate ethLate s hok hrun hmode hclock hflow hstale hnow hv hgas heth hgasLate hethLate
  obtain ⟨l, hl, hstate⟩ := State.delivers_of_flowing hflow
  obtain ⟨b, hb⟩ : ∃ b, b = s.toSample n due := ⟨_, rfl⟩
  have hbl : b.active n = some l := by rw [hb]; exact hl
  have hbflow : flowingPhase (b.phase n) = true := by rw [hb]; exact hflow
  have hbstale : ¬ b.staleAt n b.now := by
    rw [hb, State.toSample_staleAt, ← hnow]
    exact hstale
  have hnone : b.phase n = some .high → ∀ r ∈ b.queue, r.arm ≠ n := by
    rw [hb]
    exact fun hhigh => hok.inv.notQueued_of_phase (by rw [show s.phase n = _ from hhigh]; decide)
      (by rw [show s.phase n = _ from hhigh]; decide)
  have hkept := State.sample_runsKept hbl hstate hbflow hnone hbstale
  have hnoFlow := State.sample_noFlow hbl hstate hbstale
  have hheld := State.sample_stalled_held hbl hstate hbflow hbstale
  have harm := State.volumed_arm hbl (Or.inl hstate)
  have hvnow := (b.volumed_keeps n).now
  have hvcfg := (b.volumed_keeps n).armCfg n
  have hvflow := (b.volumed_phase n).trans rfl
  have hsample : b.sampleArm n = v := by rw [hb, hv, State.toSample_sampleArm]
  have hbarm := s.toSample_arm n due
  have hbnow : b.now = now := by rw [hb, hnow]; rfl
  have hbcfg : b.armCfg n = s.armCfg n := by rw [hb]; rfl
  have hvalve : (b.arm n).valve = (s.arm n).valve := by rw [hb, hbarm]
  have hset : (b.ratio n).setpoint = (s.ratio n).setpoint := by rw [hb]; rfl
  have hbGasRun : (b.arm n).gasRun = (s.arm n).gasRun := by rw [hb, hbarm]
  have hbEthRun : (b.arm n).ethRun = (s.arm n).ethRun := by rw [hb, hbarm]
  have hbStalled : (b.arm n).stalled = (s.arm n).stalled := by rw [hb, hbarm]
  have hbclass : b.classOf .noFlow = s.classOf .noFlow := by rw [hb]; rfl
  have hbalarm : b.alarm n = s.alarm n := by rw [hb]; rfl
  have hexec : exec (.sampleEvent n) s = .next (b.sample n) := by
    rw [hb]
    exact exec_sampleEvent hclock hrun hmode
  obtain ⟨w, hw⟩ : ∃ w, w = b.volumed n := ⟨_, rfl⟩
  rw [hsample] at harm
  rw [State.sampleJudged, hvalve, hset, ← hw] at hkept
  rw [State.SampleStalls, hvalve, hset, ← hw] at hnoFlow hheld
  rw [← hw] at harm hvnow hvcfg hvflow
  have hqGas : (w.arm n).qGas = v.gas.flow := by rw [harm]
  have hqEth : (w.arm n).qEth = v.eth.flow := by rw [harm]
  have hgasRun : (w.arm n).gasRun = (s.arm n).gasRun := by rw [harm]; exact hbGasRun
  have hethRun : (w.arm n).ethRun = (s.arm n).ethRun := by rw [harm]; exact hbEthRun
  have hstalled : (w.arm n).stalled = (s.arm n).stalled := by rw [harm]; exact hbStalled
  rw [← hqGas] at hgas
  rw [← hqEth] at heth
  have hlateGas : gasLate ↔ (w.gasRunJudged n (s.arm n).valve).2 = true := by
    rw [hgasLate, hgas, State.gasRunJudged, judgeRun_late, hgasRun, hvnow, hbnow, hvcfg, hbcfg]
    simp
  have hlateEth : ethLate ↔ (w.ethRunJudged n (s.ratio n).setpoint).2 = true := by
    rw [hethLate, heth, State.ethRunJudged, judgeRun_late, hethRun, hvnow, hbnow, hvcfg, hbcfg]
    simp
  have hstalls : w.NoFlowDetected n (s.arm n).valve (s.ratio n).setpoint ↔ gasLate ∨ ethLate := by
    rw [State.NoFlowDetected, ← hlateGas, ← hlateEth, hvflow]
    exact and_iff_right hbflow
  obtain ⟨hgasEnds, hethEnds, hgasOn, hethOn, honlyGas, honlyEth, hboth, hneither⟩ :=
    State.runsJudged_judged hgas heth hlateGas hlateEth
  rw [hvnow, hbnow, hgasRun] at hgasOn
  rw [hvnow, hbnow, hethRun] at hethOn
  rw [hstalled] at hneither
  rw [hstalls, hbclass] at hnoFlow hheld
  rw [hbalarm] at hnoFlow
  obtain ⟨hkeptStalled, hkeptFlow, hkeptStill⟩ := hkept
  rw [← hkeptStalled] at honlyGas honlyEth hboth hneither
  refine ⟨b.sample n, hexec, fun hf => ?_, hkeptStill, honlyGas, honlyEth, hboth, hneither, hnoFlow,
    fun hclass hlate => hheld hlate hclass⟩
  obtain ⟨hsameGas, hsameEth⟩ := hkeptFlow hf
  rw [hsameGas, hsameEth]
  exact ⟨hgasEnds, hethEnds, hgasOn, hethOn⟩

end Sys2Proof.Machine
end

section
/-! O30: the setpoint and the running deviation at a sample (R113, R117, R118). -/

namespace Sys2Proof.Machine

section
variable {s t u x y : State} {n : ArmId} {l l' k : Load}

/-! ## The setpoint -/

/-- What the last three stages leave of a record that blends after them: its setpoint set, and, while it flows, its valve
decided and its deviation run judged. -/
theorem State.tail_blending (h : blendingPhase ((((s.stage4 n).stage5 n).stage6 n).phase n) = true) :
    (flowingPhase (s.phase n) = true ∧ Rests n ((s.decideValve n).deviationRun n) (((s.stage4 n).stage5 n).stage6 n)) ∨
    (s.phase n = some .finish ∧ Rests n (s.setSetpoint n) (((s.stage4 n).stage5 n).stage6 n)) := by
  by_cases hflow : flowingPhase (s.phase n) = true
  · rcases State.flowing_tail hflow with hrest | hstop
    · exact Or.inl ⟨hflow, hrest⟩
    · rw [hstop.not_blending] at h
      cases h
  · by_cases hfinish : s.phase n = some .finish
    · rcases State.finish_tail hfinish with ⟨-, hrest⟩ | ⟨-, hrest⟩ | ⟨-, hstop⟩
      · obtain ⟨l, hl, hstate, -⟩ := State.phase_eq_some.mp hfinish
        obtain ⟨l', hl', hstill⟩ := State.enterSettle_active hl
        have hsettle : l'.deliveringPhase = some .settle := by
          rw [Load.eq_of_still hstill]
          exact Load.deliveringPhase_delivering (l := { l.settled with entries := l'.entries }) hstate
        rw [hrest.phase, State.phase_eq hl', hsettle] at h
        cases h
      · exact Or.inr ⟨hfinish, hrest⟩
      · rw [hstop.not_blending] at h
        cases h
    · have hblend : blendingPhase (s.phase n) = false := by
        rw [← blendingPhase_eq]
        simp [hfinish, hflow]
      rw [State.stage4_still (by simpa using hflow), State.stage5_still hblend, (State.stage6_rests hblend).phase, hblend] at h
      cases h

theorem setpointFor_cast (qGas f : Nat) (d : Int) (catchUp amount : Nat) : (setpointFor qGas f d catchUp amount : Int) =
    min (amount : Int) (max 0 ((qGas * f / (1000 - f) : Nat) + (d * 60).tdiv (1000 * catchUp))) := by
  rw [setpointFor, truncDiv, Nat.cast_min, Int.toNat_eq_max, max_comm]
  rfl

/-- A setpoint just set, read off the state after it (R113). -/
theorem State.setpoint_spec (hl : u.active n = some l) (hrest : Rests n x u)
    (hactive : x.active n = y.active n) (harm : x.arm n = y.arm n) (hresv : x.resv n = y.resv n) (hkeeps : Keeps y x)
    (hset : (x.ratio n).setpoint = ((y.setSetpoint n).ratio n).setpoint) :
    ((u.ratio n).setpoint : Int) = min ((u.resv n).amount : Int)
      (max 0 (((u.arm n).qGas * u.fraction l / (1000 - u.fraction l) : Nat) +
        (((l.gasNet * u.fraction l / (1000 - u.fraction l) : Nat) - (l.ethNet : Int)) * 60).tdiv
          (1000 * (u.armCfg n).catchUp))) := by
  obtain ⟨k, hk, hstill⟩ := hrest.active_back hl
  have hyu : Keeps y u := hkeeps.trans hrest.keeps
  have hfraction : u.fraction l = y.fraction k := by
    rw [hyu.fraction, State.fraction, State.fraction, Load.eq_of_still hstill]
  rw [hactive] at hk
  rw [hrest.ratio, hset, State.setSetpoint_ratio hk, hrest.resv, hresv, hrest.arm, harm, hfraction, hyu.armCfg]
  rw [Load.eq_of_still hstill]
  exact setpointFor_cast _ _ _ _ _

theorem State.sample_setpoint (hl : (s.sample n).active n = some l) (hblend : blendingPhase ((s.sample n).phase n) = true) :
    (((s.sample n).ratio n).setpoint : Int) = min (((s.sample n).resv n).amount : Int)
      (max 0 ((((s.sample n).arm n).qGas * (s.sample n).fraction l / (1000 - (s.sample n).fraction l) : Nat) +
        (((l.gasNet * (s.sample n).fraction l / (1000 - (s.sample n).fraction l) : Nat) - (l.ethNet : Int)) * 60).tdiv
          (1000 * ((s.sample n).armCfg n).catchUp))) := by
  rw [State.sample_supervised] at hl hblend ⊢
  rcases State.tail_blending hblend with ⟨-, hrest⟩ | ⟨-, hrest⟩
  · exact State.setpoint_spec (y := ((s.supervised n).stage3 n).decideValve n) hl hrest (State.deviationRun_active _ n n)
      (State.deviationRun_arm _ n n) (State.deviationRun_resv _ n n) (State.deviationRun_flows _ n).keeps
      (State.deviationRun_setpoint _ n)
  · exact State.setpoint_spec hl hrest (State.setSetpoint_active _ n n) (State.setSetpoint_arm _ n n)
      (State.setSetpoint_resv _ n n) (State.setSetpoint_keeps _ n) rfl

/-! ## The deviation run -/

theorem Load.sampledBy_recipe (l : Load) (v : ArmSample) : (l.sampledBy v).recipe = l.recipe := by
  rw [Load.sampledBy, Load.markTempHeld_eq]
  rfl

/-- The deviation judged on a record's totals and the run before it (R117). -/
def State.devRunJudged (s : State) (n : ArmId) (l l' : Load) : Option Nat × Bool :=
  judgeRun (decide (s.deviationBand n l' < (l'.deficitOn (s.fraction l)).natAbs)) (s.ratio n).devRun s.now
    (1000 * (s.armCfg n).ratioDelay)

theorem State.devJudged_eq (hk : Keeps s x) (hrun : (x.ratio n).devRun = (s.ratio n).devRun) (htally : k.tally = l'.tally)
    (hrecipe : l'.recipe = l.recipe) : x.devJudged n k = s.devRunJudged n l l' := by
  have hkrecipe : k.recipe = l'.recipe := Load.tally_recipe htally
  have hfraction : x.fraction k = s.fraction l := by
    rw [hk.fraction, State.fraction, State.fraction, hkrecipe, hrecipe]
  have htolerance : x.tolerance k = s.tolerance l' := by
    rw [State.tolerance, State.tolerance, State.recipe?, State.recipe?, hk.recipes, hkrecipe]
  have hband : x.band n k = s.deviationBand n l' := by
    rw [State.band, State.deviationBand, htolerance, hk.armCfg, Load.totalNet, Load.tally_gasNet htally,
      Load.tally_ethNet htally]
  have hdeficit : x.deficit k = l'.deficitOn (s.fraction l) := by
    rw [State.deficit, Load.deficitOn, requiredEthanol, hfraction, Load.tally_gasNet htally, Load.tally_ethNet htally]
  rw [State.devJudged, State.devRunJudged, hband, hdeficit, hrun, hk.now, hk.armCfg]

theorem State.deviationRun_devRun (hl : s.active n = some l) : ((s.deviationRun n).ratio n).devRun =
    if 1000 * (s.armCfg n).monitorStart < l.totalGross then ((s.setSetpoint n).devJudged n l).1 else (s.ratio n).devRun := by
  have hset : (s.setSetpoint n).active n = some l := (s.setSetpoint_active n n).trans hl
  rw [State.deviationRun, hset]
  dsimp only
  split
  · rw [State.modRatio_ratio_self]
  · rw [State.setSetpoint_ratio hl]

/-- The arm after the compare tests of a sample that leave its record flowing, before the valve is decided. -/
structure State.Tested (s : State) (n : ArmId) (l : Load) (x : State) (k : Load) : Prop where
  keeps : Keeps s x
  record : x.active n = some k
  tally : k.tally = (l.sampledBy (s.sampleArm n)).tally
  flowing : flowingPhase (x.phase n) = true
  devRun : (x.ratio n).devRun = (s.ratio n).devRun

theorem State.volumed_ratio (s : State) (n : ArmId) : (s.volumed n).ratio n = s.ratio n := by
  rw [State.volumed]
  cases s.volumeGoes n with
  | toRecord => rfl
  | toHeldRecord => rfl
  | toUnassigned => rfl

theorem State.supervised_keeps (s : State) (n : ArmId) : Keeps s (s.supervised n) :=
  (s.stage1_keeps n).trans ((State.stage2_carries (s.stage1 n) n _ _).keeps)

theorem State.supervised_stopped (hl : s.active n = some l) (h : l.state = .delivering)
    (hflow : flowingPhase (s.phase n) = true) :
    blendingPhase ((s.sample n).phase n) = false ∧ flowingPhase (((s.supervised n).stage3 n).phase n) = false ∨
      Rests n (s.sampleJudged n) (s.supervised n) := by
  have hends {y : State} (hstop : Stops n y (s.supervised n)) : blendingPhase ((s.sample n).phase n) = false ∧
      flowingPhase (((s.supervised n).stage3 n).phase n) = false := by
    have hstill := flowing_of_not_blending hstop.not_blending
    rw [State.stage3_still hstill]
    exact ⟨hstop.sample.not_blending, hstill⟩
  rcases State.supervised_outcome hl h hflow with ⟨-, -, hstop⟩ | ⟨-, -, hstop⟩ | ⟨-, hrest⟩
  · exact Or.inl (hends hstop)
  · exact Or.inl (hends hstop)
  · exact Or.inr hrest

section
variable (hl : s.active n = some l) (h : l.state = .delivering) (hflow : flowingPhase (s.phase n) = true)
    (hnone : s.phase n = some .high → ∀ r ∈ s.queue, r.arm ≠ n)
include hl h hflow hnone

/-- A record the compare tests leave flowing was at rest before them. -/
theorem State.tested (hstays : flowingPhase (((s.supervised n).stage3 n).phase n) = true) :
    ∃ k, s.Tested n l ((s.supervised n).stage3 n) k := by
  rcases State.supervised_stopped hl h hflow with ⟨-, hends⟩ | hrest
  · rw [hends] at hstays
    cases hstays
  · obtain ⟨j, hj, hstill, hjflow, hjnone⟩ := State.supervised_tested hl h hflow hnone hrest
    have hroams := (s.supervised n).stage3_flows n
    obtain ⟨k, hk, hcore⟩ := hroams.active_some hj
    refine ⟨k, (s.supervised_keeps n).trans hroams.keeps, hk, ?_, hstays, ?_⟩
    · exact (Load.tally_of_core hcore).trans (Load.tally_of_core (Load.core_of_still hstill))
    · rw [(State.stage3_runsKept hj hjflow hjnone).2 hstays, hrest.ratio]
      exact congrArg Ratio.devRun (s.volumed_ratio n)

/-- The stages after the compare tests, on a record that flows before and after the sample (R117). -/
theorem State.sample_devRun (hends : flowingPhase ((s.sample n).phase n) = true) (hl' : (s.sample n).active n = some l') :
    ((s.sample n).ratio n).devRun =
      if 1000 * (s.armCfg n).monitorStart < l'.gasGross + l'.ethGross then (s.devRunJudged n l l').1
      else (s.ratio n).devRun := by
  have htally := (State.sample_carries hl (Or.inl h)).active_eq (State.volumed_active hl (Or.inl h)) hl'
  have hblend : blendingPhase ((s.sample n).phase n) = true := by
    rcases flowingPhase_cases hends with h | h | h <;> rw [h] <;> rfl
  rw [State.sample_supervised] at hends hblend ⊢
  rcases State.tail_blending hblend with ⟨hstays, hrest⟩ | ⟨hfinish, hrest⟩
  · obtain ⟨k, hkeeps, hk, hktally, -, hrun⟩ := State.tested hl h hflow hnone hstays
    obtain ⟨z, hz⟩ : ∃ z, z = ((s.supervised n).stage3 n).decideValve n := ⟨_, rfl⟩
    have hzkeeps : Keeps s z := by
      rw [hz]
      exact hkeeps.trans (State.decideValve_flows (s := (s.supervised n).stage3 n) (n := n)).keeps
    have hzk : z.active n = some k := by rw [hz]; exact hk
    have hzrun : (z.ratio n).devRun = (s.ratio n).devRun := by rw [hz]; exact hrun
    rw [← hz] at hrest
    have hsame : k.tally = l'.tally := hktally.trans htally.symm
    have hsetRun : ((z.setSetpoint n).ratio n).devRun = (s.ratio n).devRun := by
      rw [State.setSetpoint_ratio hzk]
      exact hzrun
    have hrecipe : l'.recipe = l.recipe := (Load.tally_recipe htally).trans (l.sampledBy_recipe _)
    rw [hrest.ratio, State.deviationRun_devRun hzk, hzkeeps.armCfg, Load.totalGross, Load.tally_gasGross hsame,
      Load.tally_ethGross hsame, hzrun, State.devJudged_eq (hzkeeps.trans (State.setSetpoint_keeps z n)) hsetRun hsame hrecipe]
  · rw [hrest.phase, State.setSetpoint_phase, hfinish] at hends
    cases hends

end

/-! ## RATIO_DEV at a sample (R118) -/

/-- A detection makes no record flow. -/
theorem State.detectIf_still (hstill : flowingPhase (s.phase n) = false) (b : Bool) (j : AlarmKind) :
    flowingPhase ((s.detectIf b n j).phase n) = false := by
  rcases State.detectIf_outcome s b n j with ⟨hrest, -⟩ | ⟨-, -, hstop⟩
  · rwa [hrest.phase]
  · exact flowing_of_not_blending hstop.not_blending

/-- A record that does not flow before a sample does not flow in it. -/
theorem State.stage3_of_still (hstill : flowingPhase (s.phase n) = false) :
    flowingPhase (((s.supervised n).stage3 n).phase n) = false := by
  have hstale : flowingPhase (((s.volumed n).detectStale n).phase n) = false := by
    rw [State.detectStale_eq]
    exact State.detectIf_still (by rwa [s.volumed_phase n]) _ _
  have hfirst : flowingPhase ((s.stage1 n).phase n) = false := by
    rw [State.stage1_eq]
    cases s.volumeGoes n with
    | toRecord => exact hstale
    | toHeldRecord => exact State.detectIf_still hstale _ _
    | toUnassigned => exact State.detectIf_still (State.detectIf_still hstale _ _) _ _
  have hsecond : flowingPhase ((s.supervised n).phase n) = false := by
    rw [State.supervised, State.stage2_still hfirst]
    exact hfirst
  rw [State.stage3_still hsecond]
  exact hsecond

theorem State.stage1_latched_of_ne (s : State) (n : ArmId) {j : AlarmKind} (h1 : j ≠ .tempFault) (h2 : j ≠ .unauthFlow) :
    j ∈ ((s.stage1 n).alarm n).latched ↔ j ∈ (s.alarm n).latched := by
  rw [State.stage1_eq]
  cases s.volumeGoes n with
  | toRecord => simp [State.detectLeaks, State.detectStale_latched, s.volumed_alarm n, h1]
  | toHeldRecord => simp [State.detectLeaks, State.detectIf_latched, State.detectStale_latched, s.volumed_alarm n, h1, h2]
  | toUnassigned => simp [State.detectLeaks, State.detectIf_latched, State.detectStale_latched, s.volumed_alarm n, h1, h2]

/-- The deviation a sample checks, on the record its compare tests leave. -/
def State.SampleDeviates (s : State) (n : ArmId) : Prop :=
  flowingPhase (((s.supervised n).stage3 n).phase n) = true ∧
    ((((s.supervised n).stage3 n).decideValve n).setSetpoint n).DeviationDetected n

theorem State.sample_ratioDev (s : State) (n : ArmId) : AlarmKind.ratioDev ∈ ((s.sample n).alarm n).latched ↔
    AlarmKind.ratioDev ∈ (s.alarm n).latched ∨ (s.SampleDeviates n ∧ s.classOf .ratioDev ≠ .off) := by
  have hbefore : AlarmKind.ratioDev ∈ (((s.supervised n).stage3 n).alarm n).latched ↔
      AlarmKind.ratioDev ∈ (s.alarm n).latched := by
    rw [(State.stage3_flows _ n).latched, State.supervised, State.stage2_latched, s.stage1_latched_of_ne n (by decide) (by decide)]
    simp
  have hclass : ((s.supervised n).stage3 n).classOf .ratioDev = s.classOf .ratioDev :=
    ((s.supervised_keeps n).trans (State.stage3_flows _ n).keeps).classOf _
  rw [State.sample_supervised, State.stage6_latched_of_ne _ n (by decide), State.stage5_latched,
    (State.stage4_flows _ n).latched, hbefore, (State.stage4_flows _ n).keeps.classOf, hclass, State.SampleDeviates]
  by_cases hflow : flowingPhase (((s.supervised n).stage3 n).phase n) = true
  · rw [show ((s.supervised n).stage3 n).stage4 n = ((s.supervised n).stage3 n).decideValve n from if_pos hflow]
    simp only [true_and, and_assoc]
    rfl
  · rw [State.stage4_still (by simpa using hflow)]
    simp [hflow]

section
variable (hl : s.active n = some l) (h : l.state = .delivering) (hflow : flowingPhase (s.phase n) = true)
    (hnone : s.phase n = some .high → ∀ r ∈ s.queue, r.arm ≠ n) (hl' : (s.sample n).active n = some l')
include hl h hflow hnone hl'

/-- The deviation a sample detects, read off the record it leaves. -/
theorem State.sampleDeviates_iff (hstays : flowingPhase (((s.supervised n).stage3 n).phase n) = true) :
    s.SampleDeviates n ↔ 1000 * (s.armCfg n).monitorStart < l'.gasGross + l'.ethGross ∧ (s.devRunJudged n l l').2 = true := by
  have htally := (State.sample_carries hl (Or.inl h)).active_eq (State.volumed_active hl (Or.inl h)) hl'
  obtain ⟨k, hkeeps, hk, hktally, -, hrun⟩ := State.tested hl h hflow hnone hstays
  rw [State.SampleDeviates, and_iff_right hstays, State.DeviationDetected]
  obtain ⟨z, hz⟩ : ∃ z, z = ((s.supervised n).stage3 n).decideValve n := ⟨_, rfl⟩
  have hzkeeps : Keeps s z := by
    rw [hz]
    exact hkeeps.trans (State.decideValve_flows (s := (s.supervised n).stage3 n) (n := n)).keeps
  have hzk : z.active n = some k := by rw [hz]; exact hk
  have hzrun : (z.ratio n).devRun = (s.ratio n).devRun := by rw [hz]; exact hrun
  rw [← hz]
  have hsame : k.tally = l'.tally := hktally.trans htally.symm
  have hsetRun : ((z.setSetpoint n).ratio n).devRun = (s.ratio n).devRun := by
    rw [State.setSetpoint_ratio hzk]
    exact hzrun
  have hrecipe : l'.recipe = l.recipe := (Load.tally_recipe htally).trans (l.sampledBy_recipe _)
  have hset := hzkeeps.trans (State.setSetpoint_keeps z n)
  have hjudged := State.devJudged_eq hset hsetRun hsame hrecipe
  have hactive : (z.setSetpoint n).active n = some k := (z.setSetpoint_active n n).trans hzk
  simp only [hactive, Option.some.injEq, exists_eq_left', hjudged, hset.armCfg, Load.totalGross, Load.tally_gasGross hsame,
    Load.tally_ethGross hsame]

/-- A detected deviation of class STOP holds the record (R15). -/
theorem State.sample_deviates_held (hdev : s.SampleDeviates n) (hclass : s.classOf .ratioDev = .stop) :
    l'.state = .held ∧ l'.lastCause = some .alarm := by
  obtain ⟨hstays, hdetected⟩ := hdev
  obtain ⟨k, hkeeps, hk, -, -, -⟩ := State.tested hl h hflow hnone hstays
  obtain ⟨z, hz⟩ : ∃ z, z = ((s.supervised n).stage3 n).decideValve n := ⟨_, rfl⟩
  have hvalve : ((s.supervised n).stage3 n).stage4 n = z := by
    rw [hz]
    exact if_pos hstays
  have hzflow : flowingPhase (z.phase n) = true := by rw [hz]; exact hstays
  have hzclass : z.classOf .ratioDev = .stop := by
    rw [hz]
    exact (hkeeps.classOf _).trans hclass
  have hzk : z.active n = some k := by rw [hz]; exact hk
  rw [← hz] at hdetected
  rw [State.sample_supervised, hvalve, State.stage5_flowing hzflow] at hl'
  rcases State.checkDeviation_outcome z n with ⟨-, hnot⟩ | ⟨-, -, hstop⟩
  · exact absurd (Or.inl (State.holdable_of_flowing hzflow)) (hnot hdetected hzclass)
  · have hall := hstop.rests (State.stage6_rests hstop.not_blending)
    have hrun : (z.deviationRun n).active n = some k := (z.deviationRun_active n n).trans hzk
    obtain ⟨j, hout⟩ := hall.heldOrCut hrun
    have hphase : (z.deviationRun n).phase n = z.phase n := by
      rw [State.phase, State.phase, z.deviationRun_active n n]
    obtain ⟨hheld, -⟩ := hout.held (State.holdable_of_flowing (by rwa [hphase]))
    rw [hout.record, Option.some.injEq] at hl'
    rw [← hl']
    exact ⟨hheld, hout.lastCause⟩

end

theorem State.finishReached_of_tally (hk : Keeps s x) (hhistory : (x.arm n).history = (s.arm n).history)
    (htally : k.tally = l'.tally) : x.finishReached n k ↔ s.finishReached n l' := by
  have hdeficit (f : Nat) : k.deficitOn f = l'.deficitOn f := by
    rw [Load.deficitOn, Load.deficitOn, Load.tally_gasNet htally, Load.tally_ethNet htally]
  have hfraction : x.fraction k = s.fraction l' := by
    rw [hk.fraction, State.fraction, State.fraction, Load.tally_recipe htally]
  rw [State.finishReached, State.finishReached, hhistory, hdeficit, hfraction, Load.tally_preset htally,
    Load.tally_gasGross htally, Load.tally_ethGross htally]

theorem State.volumed_history (hl : s.active n = some l) (h : l.state = .delivering ∨ l.state = .held) :
    ((s.volumed n).arm n).history = (s.arm n).history := by
  rw [State.volumed_arm hl h]

/-- The finish test of a sample, read off the record it leaves (R85). -/
theorem State.supervised_finishReached (hl : s.active n = some l) (h : l.state = .delivering)
    (hl' : (s.sample n).active n = some l') (hstill : k.still = (l.sampledBy (s.sampleArm n)).still) :
    (s.supervised n).finishReached n k ↔ s.finishReached n l' := by
  have htally := (State.sample_carries hl (Or.inl h)).active_eq (State.volumed_active hl (Or.inl h)) hl'
  have hcarries : Carries n (s.volumed n) (s.supervised n) :=
    (State.stage1_carries hl (Or.inl h)).trans (State.stage2_carries _ n _ _)
  exact State.finishReached_of_tally (s.supervised_keeps n)
    (hcarries.history.trans (State.volumed_history hl (Or.inl h)))
    ((Load.tally_of_core (Load.core_of_still hstill)).trans htally.symm)

/-- A flowing record that nothing stopped and that is short of its finish point flows on. -/
theorem State.sample_flowsOn (hl : s.active n = some l) (h : l.state = .delivering)
    (hflow : flowingPhase (s.phase n) = true) (hnone : s.phase n = some .high → ∀ r ∈ s.queue, r.arm ≠ n)
    (hl' : (s.sample n).active n = some l') (hstale : ¬ s.staleAt n s.now) (hstall : ¬ s.SampleStalls n)
    (hshort : ¬ s.finishReached n l') : flowingPhase (((s.supervised n).stage3 n).phase n) = true := by
  rcases State.supervised_outcome hl h hflow with ⟨hyes, -⟩ | ⟨hyes, -⟩ | ⟨-, hrest⟩
  · exact absurd hyes hstale
  · exact absurd hyes hstall
  · obtain ⟨k, hk, hstill, hkflow, hknone⟩ := State.supervised_tested hl h hflow hnone hrest
    have hphase := State.phase_eq hk
    rw [← State.supervised_finishReached hl h hl' hstill] at hshort
    rcases State.stage3_outcome hk hkflow hknone with ⟨hyes, -⟩ | ⟨-, -, -, heq⟩ | ⟨-, -, heq⟩
    · exact absurd hyes hshort
    · rw [heq, State.enterTaper_taper (fun hhigh => hknone (hphase ▸ hhigh)) _ (State.delivers_of_flowing (by rwa [hphase]))]
      rfl
    · rw [heq]
      exact State.lowStartTest_flowing (by rwa [hphase])

/-- No meter stalls at a sample in which both flow. -/
theorem State.sampleStalls_not (hl : s.active n = some l) (h : l.state = .delivering) (hgas : 0 < (s.sampleArm n).gas.flow)
    (heth : 0 < (s.sampleArm n).eth.flow) : ¬ s.SampleStalls n := by
  have harm := State.volumed_arm hl (Or.inl h)
  rintro ⟨-, hlate | hlate⟩
  · rw [State.gasRunJudged, judgeRun_late, harm] at hlate
    simp [hgas.ne'] at hlate
  · rw [State.ethRunJudged, judgeRun_late, harm] at hlate
    simp [heth.ne'] at hlate

end

theorem State.toSample_finishReached (s : State) (n : ArmId) (due : Nat) (l : Load) :
    (s.toSample n due).finishReached n l ↔ s.finishReached n l := by
  rw [State.finishReached, State.finishReached, State.toSample_arm]
  rfl

/-- Settles O30. -/
theorem sampleSetsTheSetpoint : Obligations.SampleSetsTheSetpoint := by
  refine ⟨fun n due f d l s t hclock hrun hmode hexec hl hblend hf hd => ?_, ?_⟩
  · rw [exec_sampleEvent hclock hrun hmode, Host.Outcome.next.injEq] at hexec
    subst hexec
    have hset := State.sample_setpoint hl hblend
    rw [((s.toSample n due).sample_keeps n).armCfg, ← hf] at hset
    rw [hd]
    exact hset
  · intro n due now l l' checked outside late s t hok hclock hrun hmode hl hexec hl' hnow hchecked houtside hlate
    rw [exec_sampleEvent hclock hrun hmode, Host.Outcome.next.injEq] at hexec
    obtain ⟨b, hb⟩ : ∃ b, b = s.toSample n due := ⟨_, rfl⟩
    rw [← hb] at hexec
    subst hexec
    have hbl : b.active n = some l := by rw [hb]; exact hl
    have hphase : b.phase n = s.phase n := by rw [hb]; rfl
    have hnone : b.phase n = some .high → ∀ r ∈ b.queue, r.arm ≠ n := by
      rw [hb]
      exact fun hhigh => hok.inv.notQueued_of_phase (by rw [show s.phase n = _ from hhigh]; decide)
        (by rw [show s.phase n = _ from hhigh]; decide)
    have hdelivering (hflow : flowingPhase (s.phase n) = true) : l.state = .delivering := by
      obtain ⟨k, hk, hstate⟩ := State.delivers_of_flowing hflow
      rw [hl, Option.some.injEq] at hk
      rwa [hk]
    have hjudged : b.devRunJudged n l l' = judgeRun (decide (s.deviationBand n l' < (l'.deficitOn (s.fraction l)).natAbs))
        (s.ratio n).devRun now (1000 * (s.armCfg n).ratioDelay) := by
      rw [hb, hnow]
      rfl
    have hcfg : b.armCfg n = s.armCfg n := by rw [hb]; rfl
    have hratio : b.ratio n = s.ratio n := by rw [hb]; rfl
    have hlateOutside : (b.devRunJudged n l l').2 = true ↔ outside ∧ late := by
      rw [hjudged, judgeRun_late, decide_eq_true_iff, ← houtside, ← hlate]
    have hdeviates (hflow : flowingPhase (s.phase n) = true)
        (hstays : flowingPhase (((b.supervised n).stage3 n).phase n) = true) :
        b.SampleDeviates n ↔ checked ∧ outside ∧ late := by
      rw [State.sampleDeviates_iff hbl (hdelivering hflow) (by rwa [hphase]) hnone hl' hstays, hcfg, ← hchecked, hlateOutside]
    have hratioDev := b.sample_ratioDev n
    have halarm : b.alarm n = s.alarm n := by rw [hb]; rfl
    have hclass : b.classOf .ratioDev = s.classOf .ratioDev := by rw [hb]; rfl
    rw [halarm, hclass] at hratioDev
    refine ⟨fun hflow hends => ?_, fun hon hcheck hout hold => ?_, fun hin => ?_⟩
    · have hrun := State.sample_devRun hbl (hdelivering hflow) (by rwa [hphase]) hnone hends hl'
      rw [hcfg, hratio, hjudged] at hrun
      refine ⟨fun hno => ?_, fun hyes hin => ?_, fun hyes hout hstart => ?_, fun hyes hout hyoung hsome => ?_,
        fun hyes hout hold => ?_⟩
      · rw [hrun, if_neg fun hc => hno (hchecked.mpr hc)]
      · rw [hrun, if_pos (hchecked.mp hyes)]
        exact judgeRun_ends (Or.inl (decide_eq_false fun hc => hin (houtside.mpr hc)))
      · rw [hrun, if_pos (hchecked.mp hyes), judgeRun_goes_on (decide_eq_true (houtside.mp hout)) (by
          rw [judgeRun_late, hstart]
          nofun), hstart]
        rfl
      · rw [hrun, if_pos (hchecked.mp hyes), judgeRun_goes_on (decide_eq_true (houtside.mp hout)) fun hl =>
          hyoung (hlate.mpr (judgeRun_late.mp hl).2)]
        obtain ⟨r, hr⟩ := Option.ne_none_iff_exists'.mp hsome
        rw [hr]
        rfl
      · rw [hrun, if_pos (hchecked.mp hyes)]
        exact judgeRun_ends (Or.inr (judgeRun_late.mpr ⟨decide_eq_true (houtside.mp hout), hlate.mp hold⟩))
    · obtain ⟨hflow, hstale, hgas, heth, hshort⟩ := hon
      have hstate := hdelivering hflow
      have hbflow : flowingPhase (b.phase n) = true := by rwa [hphase]
      have hsample : b.sampleArm n = (s.reach due).sampleArm n := by rw [hb, State.toSample_sampleArm]
      rw [← hsample] at hgas heth
      have hstays := State.sample_flowsOn hbl hstate hbflow hnone hl'
        (by rw [hb, State.toSample_staleAt, ← hnow]; exact hstale) (State.sampleStalls_not hbl hstate hgas heth)
        (by rw [hb, State.toSample_finishReached]; exact hshort)
      have hdev := (hdeviates hflow hstays).mpr ⟨hcheck, hout, hold⟩
      exact ⟨fun hoff => hratioDev.mpr (Or.inr ⟨hdev, hoff⟩), fun hstop =>
        State.sample_deviates_held hbl hstate hbflow hnone hl' hdev (hclass.trans hstop)⟩
    · refine (hratioDev.mp hin).imp_right fun hboth => ?_
      have hdev := hboth.1
      have hflow : flowingPhase (s.phase n) = true := by
        by_contra hno
        have hstill := State.stage3_of_still (s := b) (n := n) (by rw [hphase]; simpa using hno)
        rw [hdev.1] at hstill
        cases hstill
      exact ⟨hflow, (hdeviates hflow hdev.1).mp hdev⟩

end Sys2Proof.Machine
end

section
/-! O29: the phase and the gas valve command after a sample (R85, R86, R94 to R96). -/

namespace Sys2Proof.Machine

section
variable {s t u x y : State} {n : ArmId} {l l' k : Load}

/-! ## A record a sample leaves DELIVERING -/

/-- A record stopped in a phase a hold moves is HELD. -/
theorem Stops.held (h : Stops n s t) (hl : s.active n = some l) (hphase : holdablePhase (s.phase n) = true)
    (hl' : t.active n = some l') : l'.state = .held := by
  obtain ⟨j, hout⟩ := h.heldOrCut hl
  obtain ⟨hheld, -⟩ := hout.held hphase
  rw [hout.record, Option.some.injEq] at hl'
  rwa [← hl']

theorem State.SettledAt.of_rests (h : s.SettledAt t n) (hrest : Rests n t u) : s.SettledAt u n where
  closed := by rw [hrest.arm]; exact h.closed
  ratio := hrest.ratio.trans h.ratio
  released := by rw [hrest.resv]; exact h.released
  timer := by rw [hrest.arm]; exact h.timer
  runs := by rw [hrest.arm]; exact h.runs

/-- A record cut from FINISH is in SETTLE (R15, R92). -/
theorem Stops.cut (h : Stops n s t) (hphase : s.phase n = some .finish) (hl' : t.active n = some l') :
    l'.phase = some .settle ∧ l'.flags.finishCut = true ∧ l'.lastCause = some .alarm ∧ s.SettledAt t n := by
  obtain ⟨l, hl⟩ := h.isSome
  obtain ⟨j, hout⟩ := h.heldOrCut hl
  obtain ⟨-, hsettle, hcut, -⟩ := hout.cut hphase
  rw [hout.record, Option.some.injEq] at hl'
  rw [← hl']
  refine ⟨hsettle, hcut, hout.lastCause, ?_⟩
  obtain ⟨-, y, hy, hheld⟩ := h
  have hsettled := ((y.toCut n .alarm).enterSettle_settledAt n).of_keeps (s := y) (y.toCut_aside n .alarm).keeps
  rw [← State.cutFinish_eq, ← State.holdCause_finish (by rw [hy.phase, hphase])] at hsettled
  exact (hsettled.of_keeps hy.keeps).of_rests hheld

/-- The ethanol is closed at once, or at the close test (R119). -/
theorem State.closesAtOnce_of_tally (hk : Keeps s x) (htally : k.tally = l'.tally) (b : Bool) :
    x.closesAtOnce n k b ↔ s.closesAtOnce n l' b := by
  have hfraction : x.fraction k = s.fraction l' := by
    rw [hk.fraction, State.fraction, State.fraction, Load.tally_recipe htally]
  rw [State.closesAtOnce, State.closesAtOnce, hfraction, hk.armCfg, Load.deficitOn, Load.deficitOn,
    Load.tally_gasNet htally, Load.tally_ethNet htally]

/-- With f = 0 there is no deficit, so the close test passes too. -/
theorem State.closesAtOnce_iff_passes : s.closesAtOnce n l false ↔ l.deficitOn (s.fraction l) ≤ (s.armCfg n).ethComp := by
  rw [State.closesAtOnce]
  refine ⟨fun h => ?_, fun h => Or.inr ⟨rfl, h⟩⟩
  rcases h with h | ⟨-, h⟩
  · rw [h, Load.deficitOn, Nat.mul_zero, Nat.zero_div]
    omega
  · exact h

/-- What stages 4 to 6 make of a record in FINISH (R119). -/
structure State.FinishGoesOn (s t : State) (n : ArmId) (k l' : Load) : Prop where
  closes : s.closesAtOnce n k false → l'.phase = some .settle
  stays : ¬ s.closesAtOnce n k false → l'.phase = some .finish ∨
    (l'.phase = some .settle ∧ l'.flags.finishCut = true ∧ l'.lastCause = some .alarm)
  settled : l'.phase = some .settle → s.SettledAt t n
  finished : l'.phase = some .finish → Rests n (s.setSetpoint n) t

theorem State.finish_goesOn (hk : s.active n = some k) (hphase : s.phase n = some .finish)
    (hl' : ((((s.stage4 n).stage5 n).stage6 n)).active n = some l') :
    s.FinishGoesOn (((s.stage4 n).stage5 n).stage6 n) n k l' := by
  have hpasses : s.closePasses n = true ↔ s.closesAtOnce n k false :=
    (State.closePasses_iff hk).trans State.closesAtOnce_iff_passes.symm
  have hset : (s.setSetpoint n).phase n = some .finish := (s.setSetpoint_phase n n).trans hphase
  rcases State.finish_tail hphase with ⟨hpass, hrest⟩ | ⟨hpass, hrest⟩ | ⟨hpass, hstop⟩
  · obtain ⟨j, hj, hstill⟩ := State.enterSettle_active hk
    obtain ⟨m, hm, hstill'⟩ := hrest.active_some hj
    rw [hl', Option.some.injEq] at hm
    subst hm
    have hsettle : l'.phase = some .settle := by
      rw [Load.eq_of_still hstill', Load.eq_of_still hstill]
      rfl
    exact ⟨fun _ => hsettle, fun hno => absurd (hpasses.mp hpass) hno, fun _ => (s.enterSettle_settledAt n).of_rests hrest,
      fun hno => by rw [hsettle] at hno; cases hno⟩
  · have hno : ¬ s.closesAtOnce n k false := fun h => by rw [hpasses.mpr h] at hpass; cases hpass
    have hp := hrest.phase.trans hset
    obtain ⟨m, hm, -, hfinish⟩ := State.phase_eq_some.mp hp
    rw [hl', Option.some.injEq] at hm
    subst hm
    exact ⟨fun h => absurd h hno, fun _ => Or.inl hfinish, fun hs => (by rw [hfinish] at hs; cases hs), fun _ => hrest⟩
  · have hno : ¬ s.closesAtOnce n k false := fun h => by rw [hpasses.mpr h] at hpass; cases hpass
    obtain ⟨hsettle, hcut, hcause, hsettled⟩ := hstop.cut hset hl'
    exact ⟨fun h => absurd h hno, fun _ => Or.inr ⟨hsettle, hcut, hcause⟩,
      fun _ => hsettled.of_keeps (s.setSetpoint_keeps n), fun hf => by rw [hsettle] at hf; cases hf⟩

theorem State.FinishedAt.of_set (h : s.FinishedAt x n) (hrest : Rests n (x.setSetpoint n) t) (hk : x.active n = some k) :
    s.FinishedAt t n where
  closed := by rw [hrest.arm, State.setSetpoint_arm]; exact h.closed
  runs := by rw [hrest.arm, hrest.ratio, State.setSetpoint_arm, State.setSetpoint_ratio hk]; exact h.runs
  timer := by rw [hrest.ratio, State.setSetpoint_ratio hk]; exact h.timer

/-! ## A sample of a flowing record -/

/-- The record that reached its finish point at a sample: closed at once, at the close test, cut, or in FINISH (R91, R119). -/
structure State.FinishAnswered (s t : State) (n : ArmId) (l' : Load) : Prop where
  closes : s.closesAtOnce n l' false → l'.phase = some .settle
  stays : ¬ s.closesAtOnce n l' false → l'.phase = some .finish ∨
    (l'.phase = some .settle ∧ l'.flags.finishCut = true ∧ l'.lastCause = some .alarm)
  settled : l'.phase = some .settle → s.SettledAt t n
  finished : l'.phase = some .finish → s.FinishedAt t n

/-- The record that entered TAPER at a sample (R90, R137). -/
structure State.TaperAnswered (s t : State) (n : ArmId) (l' : Load) : Prop where
  phase : l'.phase = some .taper
  resv : t.resv n = if s.phase n = some .high then { s.resv n with level := .low, amount := (s.resv n).lowAmount }
    else s.resv n
  notQueued : ∀ r ∈ t.queue, r.arm ≠ n

/-- The record that a sample's low-start test alone acted on (R86). -/
structure State.LowStartAnswered (s t : State) (n : ArmId) (l l' : Load) (x : State) (k : Load) : Prop where
  keeps : Keeps s x
  record : x.active n = some k
  tally : k.tally = l'.tally
  waiting : k.state = .delivering ∧ k.phase = l.phase ∧ k.upgradePending = l.upgradePending
  queued : x.queue = s.queue
  reserved : ∀ m, x.resv m = s.resv m
  left : (t.active n).map Load.still = ((x.lowStartTest n).active n).map Load.still
  resv : t.resv n = (x.lowStartTest n).resv n
  queue : t.queue = (x.lowStartTest n).queue

theorem State.taperReached_of_tally (hk : Keeps s x) (htally : k.tally = l'.tally) :
    x.taperReached n k ↔ s.taperReached n l' := by
  rw [State.taperReached, State.taperReached, hk.armCfg, Load.tally_preset htally, Load.tally_gasGross htally,
    Load.tally_ethGross htally]

theorem State.stages_flowing_delivers (hflow : flowingPhase (s.phase n) = true)
    (hl' : (((s.stage4 n).stage5 n).stage6 n).active n = some l') (hstate : l'.state = .delivering) :
    Rests n ((s.decideValve n).deviationRun n) (((s.stage4 n).stage5 n).stage6 n) := by
  rcases State.flowing_tail hflow with hrest | hstop
  · exact hrest
  · obtain ⟨k, hk⟩ := hstop.isSome
    have hphase : ((s.decideValve n).deviationRun n).phase n = s.phase n := by
      rw [State.phase, State.deviationRun_active]
      rfl
    have hheld := hstop.held hk (State.holdable_of_flowing (by rwa [hphase])) hl'
    rw [hstate] at hheld
    cases hheld

theorem Load.sampledBy_phase (l : Load) (v : ArmSample) :
    (l.sampledBy v).phase = l.phase ∧ (l.sampledBy v).upgradePending = l.upgradePending := by
  rw [Load.sampledBy, Load.markTempHeld_eq]
  exact ⟨rfl, rfl⟩

/-- What the compare tests and the stages after them start from. -/
structure State.BeforeTests (s : State) (n : ArmId) (l l' : Load) (x : State) (k : Load) : Prop where
  keeps : Keeps s x
  record : x.active n = some k
  tally : k.tally = l'.tally
  waiting : k.state = .delivering ∧ k.phase = l.phase ∧ k.upgradePending = l.upgradePending
  phase : x.phase n = s.phase n
  queued : x.queue = s.queue
  reserved : ∀ m, x.resv m = s.resv m
  reached : x.finishReached n k ↔ s.finishReached n l'

section
variable (h : s.BeforeTests n l l' x k) (hflow : flowingPhase (s.phase n) = true)
    (hl' : ((((x.stage3 n).stage4 n).stage5 n).stage6 n).active n = some l')
include h hl'

/-- An entry to FINISH at a sample, through the stages after it. -/
theorem State.BeforeTests.finish {j : Load} (hout : x.FinishOutcome (x.stage3 n) n k j true) :
    s.FinishAnswered ((((x.stage3 n).stage4 n).stage5 n).stage6 n) n l' := by
  have hdelivers : j.state = .delivering := (Load.core_state hout.core).trans h.waiting.1
  have hkeeps : Keeps s (x.stage3 n) := h.keeps.trans (x.stage3_flows n).keeps
  have hphase : (x.stage3 n).phase n = j.phase := by
    rw [State.phase_eq hout.record, Load.deliveringPhase_delivering hdelivers]
  by_cases hcloses : x.closesAtOnce n k true
  · obtain ⟨hsettle, hsettled⟩ := hout.closes hcloses
    have hblend : blendingPhase ((x.stage3 n).phase n) = false := by rw [hphase, hsettle]; rfl
    have hrest : Rests n (x.stage3 n) ((((x.stage3 n).stage4 n).stage5 n).stage6 n) := by
      rw [State.stage4_still (flowing_of_not_blending hblend), State.stage5_still hblend]
      exact State.stage6_rests hblend
    obtain ⟨m, hm, hstill⟩ := hrest.active_some hout.record
    rw [hl', Option.some.injEq] at hm
    have hl'settle : l'.phase = some .settle := by
      rw [hm, Load.eq_of_still hstill]
      exact hsettle
    have hzero : s.closesAtOnce n l' false := by
      rw [← State.closesAtOnce_of_tally h.keeps h.tally]
      exact Or.inl (hcloses.resolve_right fun hno => nomatch hno.1)
    exact ⟨fun _ => hl'settle, fun hno => absurd hzero hno,
      fun _ => (hsettled.of_keeps h.keeps).of_rests hrest, fun hf => by rw [hl'settle] at hf; cases hf⟩
  · obtain ⟨hfinish, hfinished⟩ := hout.stays hcloses
    have hgoes := State.finish_goesOn hout.record (hphase.trans hfinish) hl'
    have hiff := State.closesAtOnce_of_tally (n := n) hkeeps ((Load.tally_of_core hout.core).trans h.tally) false
    exact ⟨fun hc => hgoes.closes (hiff.mpr hc), fun hno => hgoes.stays fun hc => hno (hiff.mp hc),
      fun hs => (hgoes.settled hs).of_keeps hkeeps,
      fun hf => (hfinished.of_set (hgoes.finished hf) hout.record).of_keeps h.keeps⟩

variable (hstate : l'.state = .delivering)
include hflow hstate

/-- An entry to TAPER at a sample, through the stages after it. -/
theorem State.BeforeTests.taper (hnone : x.phase n = some .high → ∀ r ∈ x.queue, r.arm ≠ n)
    (heq : x.stage3 n = x.enterTaper State.examine false n) :
    s.TaperAnswered ((((x.stage3 n).stage4 n).stage5 n).stage6 n) n l' := by
  have htaper : (x.stage3 n).phase n = some .taper := by
    rw [heq]
    exact State.enterTaper_taper hnone _ (State.delivers_of_flowing (by rwa [h.phase]))
  have hrest := State.stages_flowing_delivers (by rw [htaper]; rfl) hl' hstate
  have hsame : (((x.stage3 n).decideValve n).deviationRun n).phase n = some .taper := by
    rw [State.phase, State.deviationRun_active]
    exact htaper
  refine ⟨?_, ?_, ?_⟩
  · obtain ⟨m, hm, -, hp⟩ := State.phase_eq_some.mp (hrest.phase.trans hsame)
    rw [hl', Option.some.injEq] at hm
    rwa [hm]
  · have hresv : ((x.stage3 n).decideValve n).resv n = (x.enterTaper State.examine false n).resv n := by rw [heq]; rfl
    rw [hrest.resv, State.deviationRun_resv, hresv, State.enterTaper_resv hnone, h.phase, h.reserved]
  · have hqueue : ((x.stage3 n).decideValve n).queue = (x.enterTaper State.examine false n).queue := by rw [heq]; rfl
    rw [hrest.queue, State.deviationRun_queue, hqueue]
    exact State.enterTaper_notQueued hnone _

/-- The low-start test at a sample, through the stages after it. -/
theorem State.BeforeTests.lowStart (heq : x.stage3 n = x.lowStartTest n) :
    s.LowStartAnswered ((((x.stage3 n).stage4 n).stage5 n).stage6 n) n l l' x k := by
  have hflows : flowingPhase ((x.stage3 n).phase n) = true := by
    rw [heq]
    exact State.lowStartTest_flowing (by rwa [h.phase])
  have hrest := State.stages_flowing_delivers hflows hl' hstate
  refine ⟨h.keeps, h.record, h.tally, h.waiting, h.queued, h.reserved, ?_, ?_, ?_⟩
  · rw [← heq, hrest.record, State.deviationRun_active]
    rfl
  · rw [← heq, hrest.resv, State.deviationRun_resv]
    rfl
  · rw [← heq, hrest.queue, State.deviationRun_queue]
    rfl

end

section
variable (hl : s.active n = some l) (h : l.state = .delivering) (hflow : flowingPhase (s.phase n) = true)
    (hnone : s.phase n = some .high → ∀ r ∈ s.queue, r.arm ≠ n) (hl' : (s.sample n).active n = some l')
    (hstate : l'.state = .delivering)
include hl h hflow hl' hstate

/-- A sample that leaves a flowing record DELIVERING stopped it in neither of its first two stages. -/
theorem State.supervised_delivers : Rests n (s.sampleJudged n) (s.supervised n) := by
  have hactive : (s.sampleJudged n).active n = some (l.sampledBy (s.sampleArm n)) := State.volumed_active hl (Or.inl h)
  have hvolumed : (s.volumed n).active n = some (l.sampledBy (s.sampleArm n)) := hactive
  have hphase : (s.sampleJudged n).phase n = s.phase n := s.volumed_phase n
  rcases State.supervised_outcome hl h hflow with ⟨-, -, hstop⟩ | ⟨-, -, hstop⟩ | ⟨-, hrest⟩
  · have hheld := hstop.sample.held hvolumed (State.holdable_of_flowing (by rwa [s.volumed_phase n])) hl'
    rw [hstate] at hheld
    cases hheld
  · have hheld := hstop.sample.held hactive (State.holdable_of_flowing (by rwa [hphase])) hl'
    rw [hstate] at hheld
    cases hheld
  · exact hrest

include hnone

/-- What a sample makes of a flowing record it leaves DELIVERING, by the points the record has reached (R86). -/
theorem State.sample_flowing : (s.finishReached n l' ∧ s.FinishAnswered (s.sample n) n l') ∨
    (¬ s.finishReached n l' ∧ s.taperReached n l' ∧ s.phase n ≠ some .taper ∧ s.TaperAnswered (s.sample n) n l') ∨
    (¬ s.finishReached n l' ∧ (s.phase n = some .taper ∨ ¬ s.taperReached n l') ∧
      ∃ x k, s.LowStartAnswered (s.sample n) n l l' x k) := by
  have htally := (State.sample_carries hl (Or.inl h)).active_eq (State.volumed_active hl (Or.inl h)) hl'
  have hrest := State.supervised_delivers hl h hflow hl' hstate
  obtain ⟨k, hk, hstill, hkflow, hknone⟩ := State.supervised_tested hl h hflow hnone hrest
  obtain ⟨-, hphase, hqueue⟩ := State.supervised_rests hl h hrest
  obtain ⟨hsphase, hspending⟩ := l.sampledBy_phase (s.sampleArm n)
  have hbefore : s.BeforeTests n l l' (s.supervised n) k := {
    keeps := s.supervised_keeps n
    record := hk
    tally := (Load.tally_of_core (Load.core_of_still hstill)).trans htally.symm
    waiting := by
      rw [Load.eq_of_still hstill]
      exact ⟨((l.sampledBy_totals (s.sampleArm n)).2.2.1).trans h, hsphase, hspending⟩
    phase := hphase
    queued := hqueue
    reserved := fun m => by
      rw [hrest.resv]
      exact congrArg (fun v : Vector Reservation 8 => v[m]) (s.volumed_unmoved n).reservations
    reached := State.supervised_finishReached hl h hl' hstill }
  have hkphase : k.deliveringPhase = s.phase n := by rw [← hphase, State.phase_eq hk]
  rw [State.sample_supervised] at hl' ⊢
  rw [← hbefore.reached, ← State.taperReached_of_tally hbefore.keeps hbefore.tally]
  rcases State.stage3_outcome hk hkflow hknone with ⟨hdue, j, hout⟩ | ⟨hdue, htaper, hnot, heq⟩ | ⟨hdue, hshort, heq⟩
  · exact Or.inl ⟨hdue, hbefore.finish hl' hout⟩
  · rw [hkphase] at hnot
    exact Or.inr (Or.inl ⟨hdue, htaper, hnot,
      hbefore.taper hflow hl' hstate (fun hhigh => hknone ((State.phase_eq hk).symm.trans hhigh)) heq⟩)
  · rw [hkphase] at hshort
    exact Or.inr (Or.inr ⟨hdue, hshort, _, k, hbefore.lowStart hflow hl' hstate heq⟩)

end

end

end Sys2Proof.Machine
end

section
/-! O29: the gas valve command, the gas target, and the phase a sample leaves its record in. -/

namespace Sys2Proof.Machine

section
variable {s t u x : State} {n : ArmId} {l l' k : Load}

/-! ## A sample of a record that does not flow -/

theorem State.supervised_of_still (h : flowingPhase ((s.stage1 n).phase n) = false) : s.supervised n = s.stage1 n := by
  rw [State.supervised, State.stage2_still h]

section
variable (hl : s.active n = some l) (h : l.state = .delivering)
include hl h

/-- A record in FINISH through a sample: closed at the close test, cut, or in FINISH on (R119). -/
theorem State.sample_finish (hphase : s.phase n = some .finish) (hl' : (s.sample n).active n = some l') :
    (s.closesAtOnce n l' false → l'.phase = some .settle) ∧
    (¬ s.closesAtOnce n l' false → l'.phase = some .finish ∨
      (l'.phase = some .settle ∧ l'.flags.finishCut = true ∧ l'.lastCause = some .alarm)) ∧
    (l'.phase = some .settle → s.SettledAt (s.sample n) n) := by
  have hvphase : (s.volumed n).phase n = some .finish := (s.volumed_phase n).trans hphase
  have hvolumed := State.volumed_active hl (Or.inl h)
  have htally := (State.sample_carries hl (Or.inl h)).active_eq hvolumed hl'
  rcases State.stage1_outcome hl h with ⟨hrest, -⟩ | ⟨-, -, hstop⟩
  · have hfinish : (s.stage1 n).phase n = some .finish := hrest.phase.trans hvphase
    have hflow : flowingPhase ((s.stage1 n).phase n) = false := by rw [hfinish]; rfl
    obtain ⟨k, hk, hstill⟩ := hrest.active_some hvolumed
    have hkeeps : Keeps s (s.stage1 n) := s.stage1_keeps n
    have hsame : k.tally = l'.tally := (Load.tally_of_core (Load.core_of_still hstill)).trans htally.symm
    rw [State.sample_supervised, State.supervised_of_still hflow, State.stage3_still hflow] at hl' ⊢
    have hgoes := State.finish_goesOn hk hfinish hl'
    have hiff := State.closesAtOnce_of_tally (n := n) hkeeps hsame false
    exact ⟨fun hc => hgoes.closes (hiff.mpr hc), fun hno => hgoes.stays fun hc => hno (hiff.mp hc),
      fun hs => (hgoes.settled hs).of_keeps hkeeps⟩
  · have hall : Stops n (s.volumed n) (s.supervised n) := by
      rwa [State.supervised_of_still (flowing_of_not_blending hstop.not_blending)]
    obtain ⟨hsettle, hcut, hcause, hsettled⟩ := hall.sample.cut hvphase hl'
    exact ⟨fun _ => hsettle, fun _ => Or.inr ⟨hsettle, hcut, hcause⟩, fun _ => hsettled.of_keeps (s.volumed_keeps n)⟩

/-- A record in HEADER_WAIT or SETTLE that a sample leaves DELIVERING keeps its phase. -/
theorem State.sample_waits (hphase : s.phase n = some .headerWait ∨ s.phase n = some .settle)
    (hl' : (s.sample n).active n = some l') (hstate : l'.state = .delivering) : l'.phase = s.phase n := by
  have hvphase := s.volumed_phase n
  have hvolumed := State.volumed_active hl (Or.inl h)
  rcases State.stage1_outcome hl h with ⟨hrest, -⟩ | ⟨-, -, hstop⟩
  · have hsame : (s.stage1 n).phase n = s.phase n := hrest.phase.trans hvphase
    have hblend : blendingPhase ((s.stage1 n).phase n) = false := by
      rw [hsame]
      rcases hphase with h | h <;> rw [h] <;> rfl
    have hafter : (s.sample n).phase n = s.phase n := by
      rw [State.sample_eq, (State.stages_rest hblend _ _).phase, hsame]
    rw [State.phase_eq hl', Load.deliveringPhase_delivering hstate] at hafter
    exact hafter
  · have hall : Stops n (s.volumed n) (s.supervised n) := by
      rwa [State.supervised_of_still (flowing_of_not_blending hstop.not_blending)]
    rcases hphase with hwait | hsettle
    · have hheld := hall.sample.held hvolumed (by rw [hvphase, hwait]; rfl) hl'
      rw [hstate] at hheld
      cases hheld
    · rcases hall.1 with hold | hfinish
      · rw [hvphase, hsettle] at hold
        cases hold
      · rw [hvphase, hsettle] at hfinish
        cases hfinish

end

/-! ## The valve -/

theorem State.sample_valve (hflow : flowingPhase ((s.sample n).phase n) = true) : ((s.sample n).arm n).valve =
    valveFor ((s.sample n).arm n).qGas ((s.sample n).arm n).gasTarget ((s.sample n).armCfg n).deadband := by
  have hblend : blendingPhase ((s.sample n).phase n) = true := by
    rcases flowingPhase_cases hflow with h | h | h <;> rw [h] <;> rfl
  rw [State.sample_supervised] at hflow hblend ⊢
  rcases State.tail_blending hblend with ⟨-, hrest⟩ | ⟨hfinish, hrest⟩
  · rw [hrest.arm, State.deviationRun_arm, hrest.keeps.armCfg, (State.deviationRun_flows _ n).keeps.armCfg,
      State.decideValve, State.modArm_arm_self]
    rfl
  · rw [hrest.phase, State.setSetpoint_phase, hfinish] at hflow
    cases hflow

theorem State.gasTargetFor_flowing (hl : s.active n = some l) (hflow : flowingPhase (s.phase n) = true) : s.gasTargetFor n =
    if s.fraction l = 0 then (if l.phase = some .high then (s.armCfg n).highRate else (s.armCfg n).lowRate)
    else min (if l.phase = some .high then (s.armCfg n).highRate else (s.armCfg n).lowRate)
      ((s.resv n).amount * 10 * (1000 - s.fraction l) / (11 * s.fraction l)) := by
  obtain ⟨k, hk, hstate⟩ := State.delivers_of_flowing hflow
  rw [hl, Option.some.injEq] at hk
  subst hk
  have hphase : l.deliveringPhase = l.phase := Load.deliveringPhase_delivering hstate
  rw [State.phase_eq hl, hphase] at hflow
  rw [State.gasTargetFor, hl]
  dsimp only
  rw [hphase]
  rcases flowingPhase_cases hflow with hp | hp | hp
  all_goals
    rw [hp]
    by_cases hzero : s.fraction l = 0
    · simp [hzero]
    · simp [hzero, Nat.pos_of_ne_zero hzero, throttleLimit]

/-! ## The low-start test of a sample -/

/-- The record and the queue a sample leaves, read off its low-start test when the test did nothing. -/
theorem State.LowStartAnswered.idle (h : s.LowStartAnswered t n l l' x k) (hl' : t.active n = some l')
    (hidle : x.lowStartTest n = x) : l'.phase = l.phase ∧ l'.upgradePending = l.upgradePending ∧ t.queue = s.queue ∧
      t.resv n = s.resv n := by
  have hleft := h.left
  rw [hidle, hl', h.record, Option.map_some, Option.map_some, Option.some.injEq] at hleft
  rw [h.resv, h.queue, hidle, Load.eq_of_still hleft]
  exact ⟨h.waiting.2.1, h.waiting.2.2, h.queued, h.reserved n⟩

/-- As `UpgradeAnswered`, after a sample: an upgrade granted at once or queued (R133). -/
theorem State.LowStartAnswered.due (h : s.LowStartAnswered t n l l' x k) (hl' : t.active n = some l')
    (hdue : x.lowStartDue n k) {a : Nat} (ha : x.upgradeAsked n (x.fraction k) = a) :
    (s.grantedAtOnce a → l'.phase = some .high ∧ t.queue = s.queue ∧
      t.resv n = { s.resv n with level := .high, amount := (s.resv n).amount + a }) ∧
    (¬ s.grantedAtOnce a → l'.phase = some .low ∧ l'.upgradePending = some true ∧
      t.resv n = s.resv n ∧ t.queue = s.queue ++ [⟨n, .upgrade, a⟩]) := by
  have hanswered := State.lowStartTest_answered h.record hdue
  have hgrants := State.grantedAtOnce_congr h.keeps.settings h.queued h.reserved a
  have hleft := h.left
  rw [ha] at hanswered
  rw [hl', Option.map_some] at hleft
  refine ⟨fun hg => ?_, fun hg => ?_⟩
  · obtain ⟨hactive, hqueue, hresv⟩ := hanswered.granted (hgrants.mpr hg)
    rw [hactive, Option.map_some, Option.some.injEq] at hleft
    rw [Load.eq_of_still hleft, h.queue, h.resv, hqueue, hresv, h.reserved n]
    exact ⟨rfl, h.queued, rfl⟩
  · obtain ⟨hactive, hresv, hqueue⟩ := hanswered.queued fun hx => hg (hgrants.mp hx)
    rw [hactive, Option.map_some, Option.some.injEq] at hleft
    rw [Load.eq_of_still hleft, h.queue, h.resv, hqueue, hresv, h.reserved n, h.queued]
    exact ⟨rfl, rfl, rfl, rfl⟩

theorem State.LowStartAnswered.phase (h : s.LowStartAnswered t n l l' x k) : x.phase n = l.phase := by
  rw [State.phase_eq h.record, Load.deliveringPhase_delivering h.waiting.1, h.waiting.2.1]

/-- The low-start point, read off the record a sample leaves. -/
theorem State.LowStartAnswered.due_iff (h : s.LowStartAnswered t n l l' x k) (hphase : l.phase = some .low) :
    x.lowStartDue n k ↔ l.upgradePending = some false ∧ 1000 * (s.armCfg n).lowStart ≤ l'.gasGross + l'.ethGross := by
  rw [State.lowStartDue, ← State.phase_eq h.record, h.phase, and_iff_right hphase, h.waiting.2.2, State.lowStartPoint,
    h.keeps.armCfg, Load.totalGross, Load.tally_gasGross h.tally, Load.tally_ethGross h.tally]

section
variable (hl : s.active n = some l) (h : l.state = .delivering)
    (hnone : s.phase n = some .high → ∀ r ∈ s.queue, r.arm ≠ n) (hl' : (s.sample n).active n = some l')
    (hstate : l'.state = .delivering)
include hl h hnone hl' hstate

/-- A record at its finish point, or in FINISH already, closes its ethanol at the close test (R91, R119). -/
theorem State.sample_finishes (hphase : (flowingPhase (s.phase n) = true ∧ s.finishReached n l') ∨ s.phase n = some .finish) :
    (s.closesAtOnce n l' false → l'.phase = some .settle) ∧ (¬ s.closesAtOnce n l' false → l'.phase = some .finish ∨
      (l'.phase = some .settle ∧ l'.flags.finishCut = true ∧ l'.lastCause = some .alarm)) := by
  rcases hphase with ⟨hflow, hdue⟩ | hfinish
  · rcases State.sample_flowing hl h hflow hnone hl' hstate with ⟨-, hout⟩ | ⟨hno, -⟩ | ⟨hno, -⟩
    · exact ⟨hout.closes, hout.stays⟩
    · exact absurd hdue hno
    · exact absurd hdue hno
  · obtain ⟨hcloses, hstays, -⟩ := State.sample_finish hl h hfinish hl'
    exact ⟨hcloses, hstays⟩

/-- The low-start test of a record that is not in LOW does nothing. -/
theorem State.sample_short (hflow : flowingPhase (s.phase n) = true) (hno : ¬ s.finishReached n l')
    (hshort : s.phase n = some .taper ∨ ¬ s.taperReached n l') (hlow : s.phase n ≠ some .low) :
    l'.phase = s.phase n ∧ (s.sample n).queue = s.queue ∧ (s.sample n).resv n = s.resv n := by
  rcases State.sample_flowing hl h hflow hnone hl' hstate with ⟨hdue, -⟩ | ⟨-, hdue, hnot, -⟩ | ⟨-, -, x, k, hout⟩
  · exact absurd hdue hno
  · exact absurd hdue (hshort.resolve_left hnot)
  · have hlphase : s.phase n = l.phase := by rw [State.phase_eq hl, Load.deliveringPhase_delivering h]
    obtain ⟨hp, -, hqueue, hresv⟩ := hout.idle hl' (State.lowStartTest_idle_of_phase (by rwa [hout.phase, ← hlphase]))
    exact ⟨hp.trans hlphase.symm, hqueue, hresv⟩

/-- A record short of its finish point at its taper point is in TAPER (R90). -/
theorem State.sample_tapers (hflow : flowingPhase (s.phase n) = true) (hno : ¬ s.finishReached n l')
    (hdue : s.taperReached n l') : l'.phase = some .taper ∧
      (s.phase n = some .high → (s.sample n).resv n = ⟨.low, (s.resv n).lowAmount, (s.resv n).lowAmount⟩) ∧
      (s.phase n = some .low → (s.sample n).resv n = s.resv n ∧ ∀ r ∈ (s.sample n).queue, r.arm ≠ n) := by
  rcases State.sample_flowing hl h hflow hnone hl' hstate with ⟨hdue, -⟩ | ⟨-, -, -, hout⟩ | ⟨-, hshort, -⟩
  · exact absurd hdue hno
  · refine ⟨hout.phase, fun hhigh => ?_, fun hlow => ⟨?_, hout.notQueued⟩⟩
    · rw [hout.resv, if_pos hhigh]
    · rw [hout.resv, if_neg (by rw [hlow]; decide)]
  · have htaper := hshort.resolve_right (not_not.mpr hdue)
    obtain ⟨hp, -⟩ := State.sample_short hl h hnone hl' hstate hflow hno hshort (by rw [htaper]; decide)
    exact ⟨hp.trans htaper, fun hhigh => (by rw [htaper] at hhigh; cases hhigh),
      fun hlow => (by rw [htaper] at hlow; cases hlow)⟩

/-- A record in LOW short of both points stays, or asks for its upgrade at its low-start point (R133). -/
theorem State.sample_lowStarts (hno : ¬ s.finishReached n l') (hshort : ¬ s.taperReached n l') (hlow : s.phase n = some .low) :
    (l.upgradePending = some true ∨ ¬ 1000 * (s.armCfg n).lowStart ≤ l'.gasGross + l'.ethGross →
      l'.phase = some .low ∧ l'.upgradePending = l.upgradePending ∧ (s.sample n).queue = s.queue) ∧
    (l.upgradePending = some false → 1000 * (s.armCfg n).lowStart ≤ l'.gasGross + l'.ethGross →
      ∀ a, a = s.upgradeAsked n (s.fraction l) →
      (s.grantedAtOnce a → l'.phase = some .high ∧ (s.sample n).queue = s.queue ∧
        (s.sample n).resv n = { s.resv n with level := .high, amount := (s.resv n).amount + a }) ∧
      (¬ s.grantedAtOnce a → l'.phase = some .low ∧ l'.upgradePending = some true ∧
        (s.sample n).resv n = s.resv n ∧ (s.sample n).queue = s.queue ++ [⟨n, .upgrade, a⟩])) := by
  rcases State.sample_flowing hl h (by rw [hlow]; rfl) hnone hl' hstate with ⟨hdue, -⟩ | ⟨-, hdue, -⟩ | ⟨-, -, x, k, hout⟩
  · exact absurd hdue hno
  · exact absurd hdue hshort
  · have hlphase : l.phase = some .low := by rw [← hlow, State.phase_eq hl, Load.deliveringPhase_delivering h]
    have hiff := hout.due_iff hlphase
    refine ⟨fun hstay => ?_, fun hpending hdue a ha => hout.due hl' (hiff.mpr ⟨hpending, hdue⟩) ?_⟩
    · obtain ⟨hp, hpending, hqueue, -⟩ := hout.idle hl' (State.lowStartTest_idle hout.record fun hd => by
        obtain ⟨hfalse, hreached⟩ := hiff.mp hd
        rcases hstay with htrue | hnot
        · rw [hfalse] at htrue
          cases htrue
        · exact hnot hreached)
      exact ⟨hp.trans hlphase, hpending, hqueue⟩
    · have htally := (State.sample_carries hl (Or.inl h)).active_eq (State.volumed_active hl (Or.inl h)) hl'
      have hfraction : x.fraction k = s.fraction l := by
        rw [hout.keeps.fraction, State.fraction, State.fraction, Load.tally_recipe hout.tally, Load.tally_recipe htally,
          Load.sampledBy_recipe]
      rw [ha, hfraction, State.upgradeAsked_eq, State.upgradeAsked_eq, hout.keeps.armCfg, hout.reserved,
        State.ruledAmount, State.ruledAmount, hout.keeps.settings, hout.keeps.armCfg]

/-- A record that flowed before and is in FINISH or SETTLE after a sample that reached its finish point. -/
theorem State.sample_ends (hflow : flowingPhase (s.phase n) = true)
    (hends : l'.phase = some .finish ∨ l'.phase = some .settle) : s.FinishAnswered (s.sample n) n l' := by
  rcases State.sample_flowing hl h hflow hnone hl' hstate with ⟨-, hout⟩ | ⟨-, -, -, hout⟩ | ⟨-, -, x, k, hout⟩
  · exact hout
  · rw [hout.phase] at hends
    rcases hends with h | h <;> cases h
  · have hlphase : s.phase n = l.phase := by rw [State.phase_eq hl, Load.deliveringPhase_delivering h]
    have hxflow : flowingPhase ((x.lowStartTest n).phase n) = true :=
      State.lowStartTest_flowing (by rwa [hout.phase, ← hlphase])
    obtain ⟨j, hj, hjstate⟩ := State.delivers_of_flowing hxflow
    have hleft := hout.left
    rw [hl', hj, Option.map_some, Option.map_some, Option.some.injEq] at hleft
    rw [State.phase_eq hj, Load.deliveringPhase_delivering hjstate] at hxflow
    rw [Load.eq_of_still hleft] at hends
    rcases hends with h | h <;> rw [show j.phase = _ from h] at hxflow <;> cases hxflow

/-- A record that blended before a sample and is in SETTLE after it (R92). -/
theorem State.sample_settles (hblend : blendingPhase (s.phase n) = true) (hsettle : l'.phase = some .settle) :
    s.SettledAt (s.sample n) n := by
  rw [← blendingPhase_eq, Bool.or_eq_true, decide_eq_true_iff] at hblend
  rcases hblend with hflow | hfinish
  · exact (State.sample_ends hl h hnone hl' hstate hflow (Or.inr hsettle)).settled hsettle
  · obtain ⟨-, -, hsettled⟩ := State.sample_finish hl h hfinish hl'
    exact hsettled hsettle

end

end

/-- The valve command after a sample (R95). -/
theorem sampleDecidesTheGasValve_valve {n : ArmId} {due : Nat} {s t : State} (hclock : (s.arm n).sampleClock = some due)
    (hrun : s.isRunning = true) (hmode : (s.arm n).mode = .available) (hexec : exec (.sampleEvent n) s = .next t)
    (hflow : flowingPhase (t.phase n) = true) :
    (t.arm n).valve = valveFor (t.arm n).qGas (t.arm n).gasTarget (s.armCfg n).deadband := by
  rw [exec_sampleEvent hclock hrun hmode, Host.Outcome.next.injEq] at hexec
  subst hexec
  have hvalve := State.sample_valve hflow
  rw [((s.toSample n due).sample_keeps n).armCfg] at hvalve
  exact hvalve

/-- The gas target after a sample (R94, R116). -/
theorem sampleDecidesTheGasValve_target {n : ArmId} {due : Nat} {l : Load} {s t : State} (hok : s.DeliveryOk)
    (hheader : s.HeaderOk) (hclock : (s.arm n).sampleClock = some due) (hrun : s.isRunning = true)
    (hmode : (s.arm n).mode = .available) (hexec : exec (.sampleEvent n) s = .next t) (hl : t.active n = some l)
    (hflow : flowingPhase (t.phase n) = true) : (t.arm n).gasTarget =
      if t.fraction l = 0 then (if l.phase = some .high then (s.armCfg n).highRate else (s.armCfg n).lowRate)
      else min (if l.phase = some .high then (s.armCfg n).highRate else (s.armCfg n).lowRate)
        ((t.resv n).amount * 10 * (1000 - t.fraction l) / (11 * t.fraction l)) := by
  have hcfg : t.armCfg n = s.armCfg n := by
    rw [exec_sampleEvent hclock hrun hmode, Host.Outcome.next.injEq] at hexec
    subst hexec
    exact ((s.toSample n due).sample_keeps n).armCfg n
  have hsound := ((hok.sound (H := True) fun _ => hheader).exec (.sampleEvent n)).next hexec
  rw [hsound.header.targets n, State.gasTargetFor_flowing hl hflow, hcfg]

/-- Settles O29. -/
theorem sampleDecidesTheGasValve : Obligations.SampleDecidesTheGasValve := by
  refine ⟨fun n due q db target s t hclock hrun hmode hexec hflow hq htarget hdb => ?_,
    fun n due rate f l s t hok hheader hclock hrun hmode hexec hl hflow hf hrate => ?_, ?_⟩
  · rw [sampleDecidesTheGasValve_valve hclock hrun hmode hexec hflow, ← hq, ← htarget]
    exact valveFor_spec hdb
  · rw [sampleDecidesTheGasValve_target hok hheader hclock hrun hmode hexec hl hflow, hf, hrate]
  · intro n due f asked now l l' finish taper lowStart closes cut s t hok hclock hrun hmode hl hexec hl' hstate hf hnow hasked
      hfinish htaper hlowStart hcloses hcut
    rw [exec_sampleEvent hclock hrun hmode, Host.Outcome.next.injEq] at hexec
    obtain ⟨b, hb⟩ : ∃ b, b = s.toSample n due := ⟨_, rfl⟩
    rw [← hb] at hexec
    subst hexec
    have hbl : b.active n = some l := by rw [hb]; exact hl
    have hphase : b.phase n = s.phase n := by rw [hb]; rfl
    have hnone : b.phase n = some .high → ∀ r ∈ b.queue, r.arm ≠ n := by
      rw [hb]
      exact fun hhigh => hok.inv.notQueued_of_phase (by rw [show s.phase n = _ from hhigh]; decide)
        (by rw [show s.phase n = _ from hhigh]; decide)
    by_cases hls : l.state = .delivering
    · have hrecipe : l'.recipe = l.recipe := by
        have htally := (State.sample_carries hbl (Or.inl hls)).active_eq (State.volumed_active hbl (Or.inl hls)) hl'
        exact (Load.tally_recipe htally).trans (l.sampledBy_recipe _)
      have hclosesIff : b.closesAtOnce n l' false ↔ closes := by
        have hfraction : b.fraction l' = f := by
          rw [hf, hb, State.fraction, State.fraction, hrecipe]
          rfl
        rw [hcloses, State.closesAtOnce, hfraction, hb]
        simp only [true_and]
        rfl
      have hfinishIff : b.finishReached n l' ↔ finish := by rw [hfinish, hb, State.toSample_finishReached]
      have htaperIff : b.taperReached n l' ↔ taper := by
        rw [htaper, hb]
        rfl
      have hask : asked = b.upgradeAsked n (b.fraction l) := by
        rw [hasked, State.upgradeAsked_eq, hf, hb]
        rfl
      have hgrants : b.grantedAtOnce asked ↔ s.grantedAtOnce asked := by
        rw [hb]
        rfl
      have hresv : b.resv n = s.resv n := by rw [hb]; rfl
      have hqueue : b.queue = s.queue := by rw [hb]; rfl
      have hcfg : b.armCfg n = s.armCfg n := by rw [hb]; rfl
      have hbnow : b.now = now := by rw [hb, hnow]; rfl
      have hfinishes := State.sample_finishes hbl hls hnone hl' hstate
      have htapers := State.sample_tapers hbl hls hnone hl' hstate
      have hshort := State.sample_short hbl hls hnone hl' hstate
      have hlowStarts := State.sample_lowStarts hbl hls hnone hl' hstate
      have hends := State.sample_ends hbl hls hnone hl' hstate
      have hsettles := State.sample_settles hbl hls hnone hl' hstate
      have hwaits := State.sample_waits hbl hls (hl' := hl') (hstate := hstate)
      rw [hclosesIff, hfinishIff, ← hcut, hphase] at hfinishes
      rw [hfinishIff, htaperIff, hphase, hresv] at htapers
      rw [hfinishIff, htaperIff, hphase] at hshort
      rw [hfinishIff, htaperIff, hphase, hqueue, hresv, hcfg, ← hlowStart] at hlowStarts
      rw [hphase] at hends hsettles hwaits
      refine ⟨hfinishes, fun hflow hno hdue => htapers hflow hno hdue, fun hno hdue hp => ?_, fun hno hdue hp => ?_,
        fun hflow hfin => ?_, fun hblend hsettle => ?_, hwaits⟩
      · refine (hshort ?_ hno (Or.inr hdue) ?_).1
        · rcases hp with hp | hp <;> rw [hp] <;> rfl
        · rcases hp with hp | hp <;> rw [hp] <;> decide
      · obtain ⟨hstay, hasks⟩ := hlowStarts hno hdue hp
        refine ⟨hstay, fun hpending hreached => ?_⟩
        have hanswer := hasks hpending hreached asked hask
        rwa [hgrants] at hanswer
      · have hat := (hends hflow (Or.inl hfin)).finished hfin
        have htimer := hat.timer
        rw [hbnow, hcfg] at htimer
        exact ⟨hat.closed.1, hat.closed.2, hat.runs.1, hat.runs.2.1, hat.runs.2.2, htimer⟩
      · have hat := hsettles hblend hsettle
        have htimer := hat.timer
        rw [hbnow, hcfg] at htimer
        exact ⟨hat.closed.1, hat.closed.2, hat.ratio, hat.released.1, hat.released.2, htimer⟩
    · have hstill : s.phase n = none := by rw [State.phase_eq hl, Load.deliveringPhase_none hls]
      rw [hstill]
      refine ⟨?_, nofun, ?_, nofun, nofun, nofun, ?_⟩
      · rintro (⟨h, -⟩ | h) <;> cases h
      · rintro - - (h | h) <;> cases h
      · rintro (h | h) <;> cases h

end Sys2Proof.Machine
end

section
/-! O23: the end of a temperature read (R60, R61, R81, R82). -/

namespace Sys2Proof.Machine

/-! ## One member of a fold -/

section
variable {α β : Type} {op : State → α → State} {P : State → Prop} {get : State → α → β}
    (hP : ∀ s a, P s → P (op s a)) (hother : ∀ s a b, P s → b ≠ a → get (op s a) b = get s b)
include hP hother

/-- An operation that leaves the parts of the other members alone keeps the part of one it does not come to. -/
theorem foldl_get_of_not_mem {s : State} (hs : P s) {l : List α} {a : α} (ha : a ∉ l) : get (l.foldl op s) a = get s a := by
  induction l generalizing s with
  | nil => rfl
  | cons b rest ih =>
    rw [List.mem_cons, not_or] at ha
    rw [List.foldl_cons, ih (hP s b hs) ha.2, hother s b a hs ha.1]

/-- Such an operation changes a member's part where it comes to it. -/
theorem foldl_get_at {s : State} (hs : P s) {l : List α} (hl : l.Nodup) {a : α} (ha : a ∈ l) :
    ∃ x, P x ∧ get x a = get s a ∧ get (l.foldl op s) a = get (op x a) a := by
  induction l generalizing s with
  | nil => cases ha
  | cons b rest ih =>
    obtain ⟨hb, hrest⟩ := List.nodup_cons.mp hl
    rw [List.foldl_cons]
    rcases List.mem_cons.mp ha with rfl | ha
    · exact ⟨s, hs, rfl, foldl_get_of_not_mem hP hother (hP s a hs) hb⟩
    · obtain ⟨x, hx, hsame, hget⟩ := ih (hP s b hs) hrest ha
      exact ⟨x, hx, hsame.trans (hother s b a hs fun hab => hb (hab ▸ ha)), hget⟩

end

/-! ## The channels of a bay -/

section
variable {s t : State} {n : ArmId} {l : Load} {bay : Bay}

theorem bayChannel_injective (bay : Bay) {j k : Fin 8} (h : bayChannel bay j = bayChannel bay k) : j = k := by
  cases bay with
  | a => exact Fin.ext (by simpa [bayChannel] using h)
  | b => exact Fin.ext (by simpa [bayChannel] using h)

theorem bayOf_bayChannel (bay : Bay) (k : Fin 8) : bayOf (meterArm (bayChannel bay k)) = bay := by
  cases bay <;> revert k <;> decide

theorem mem_bayArms : n ∈ bayArms bay ↔ bayOf n = bay := by
  cases bay <;> revert n <;> decide

theorem mem_allReports (k : Fin 8) : k ∈ allReports := by revert k; decide

theorem nodup_bayArms (bay : Bay) : (bayArms bay).Nodup := by cases bay <;> decide

/-- An operation on each channel of a bay, as `deliverBay` folds it. -/
def State.onBay (s : State) (bay : Bay) (f : Fin 8 → TempChannel → TempChannel) : State :=
  allReports.foldl (fun s k => s.modChannel (bayChannel bay k) (f k)) s

theorem State.onBay_channel (s : State) (bay : Bay) (f : Fin 8 → TempChannel → TempChannel) (k : Fin 8) :
    (s.onBay bay f).channel (bayChannel bay k) = f k (s.channel (bayChannel bay k)) := by
  have hget := foldl_get (op := fun (s : State) (k : Fin 8) => s.modChannel (bayChannel bay k) (f k)) (P := fun _ => True)
    (get := fun s k => s.channel (bayChannel bay k)) (f := f) (fun _ _ _ => trivial)
    (fun s k _ => by rw [State.modChannel_channel, if_pos rfl])
    (fun s k j _ hjk => by rw [State.modChannel_channel, if_neg fun h => hjk (bayChannel_injective bay h)])
    (s := s) trivial (l := allReports) (by decide) k
  rw [if_pos (mem_allReports k)] at hget
  exact hget

theorem State.onBay_channel_ne (s : State) (bay : Bay) (f : Fin 8 → TempChannel → TempChannel) {m : MeterId}
    (h : bayOf (meterArm m) ≠ bay) : (s.onBay bay f).channel m = s.channel m :=
  foldl_keeps (P := fun t => t.channel m = s.channel m) (fun t k ht => by
    rw [State.modChannel_channel, if_neg fun hm => h (by rw [hm, bayOf_bayChannel]), ht]) rfl _

theorem State.onBay_rest (s : State) (bay : Bay) (f : Fin 8 → TempChannel → TempChannel) :
    s.onBay bay f = { s with channels := (s.onBay bay f).channels } :=
  foldl_keeps (P := fun t => t = { s with channels := t.channels }) (fun t k ht => by
    have hstep := congrArg (fun u : State => u.modChannel (bayChannel bay k) (f k)) ht
    exact hstep) rfl _

/-- What a read does to each channel (R60, R61). -/
def reportOn (r : Option (Vector TempReport 8)) (now : Nat) (k : Fin 8) (c : TempChannel) : TempChannel :=
  match r with
  | some v => c.deliver v[k] now
  | none => c.failed

theorem State.deliverBay_eq (s : State) (bay : Bay) (r : Option (Vector TempReport 8)) :
    s.deliverBay bay r = s.onBay bay (reportOn r s.now) := by
  cases r with
  | none => rfl
  | some v =>
    have hfold (l : List (Fin 8)) (t : State) (ht : t.now = s.now) :
        l.foldl (fun s k => s.modChannel (bayChannel bay k) (·.deliver v[k] s.now)) t =
          l.foldl (fun u k => u.modChannel (bayChannel bay k) (reportOn (some v) s.now k)) t := by
      induction l generalizing t with
      | nil => rfl
      | cons k rest ih =>
        rw [List.foldl_cons, List.foldl_cons, ht]
        exact ih _ ht
    exact hfold _ s rfl

/-! ## An arm that leaves CHECKING -/

/-- The arm AVAILABLE with its sample clock started, before the promotion (R82, R83). -/
def State.opened (s : State) (n : ArmId) : State :=
  (s.modArm n fun a => { a with mode := .available, checkTimer := none }).restartClock n

theorem State.becomeAvailable_eq (s : State) (n : ArmId) : s.becomeAvailable n = (s.opened n).promote n := rfl

theorem State.opened_arm (s : State) (n : ArmId) : (s.opened n).arm n = { s.arm n with
    mode := .available, checkTimer := none, sampleClock := some (s.now + (s.armCfg n).period / 2) } := by
  rw [State.opened, State.restartClock, State.modArm_arm_self, State.modArm_arm_self]
  rfl

theorem State.becomeAvailable_aside (hn : (s.loads.map (·.number)).Nodup) (n : ArmId) : Aside n s (s.becomeAvailable n) := by
  have hopened : Aside n s (s.opened n) := (s.modArm_aside n _).trans (State.restartClock_aside _ n)
  exact hopened.trans (State.promote_aside (s := s.opened n) hn n)

theorem State.becomeAvailable_arm (s : State) (n : ArmId) : (s.becomeAvailable n).arm n = { s.arm n with
    mode := .available, checkTimer := none, sampleClock := some (s.now + (s.armCfg n).period / 2) } := by
  rw [State.becomeAvailable_eq, State.promote_arm, s.opened_arm n]

theorem State.becomeAvailable_active (hn : (s.loads.map (·.number)).Nodup) (hnone : s.active n = none)
    (hl : s.oldestStaged n = some l) : (s.becomeAvailable n).active n = some { l with state := .ready } := by
  rw [State.becomeAvailable_eq]
  exact State.promote_active (s := s.opened n) hn hnone (by rw [s.opened_arm n]) hl

theorem State.oldestStaged_of_armList (h : t.armList n = s.armList n) : t.oldestStaged n = s.oldestStaged n := by
  have hfind (u : State) : u.oldestStaged n = (u.armList n).find? fun k => k.state == .staged := by
    rw [State.armList, List.find?_filter, State.oldestStaged]
    congr 1
    funext k
    rw [Bool.decide_and, Bool.decide_eq_true, Bool.decide_eq_true]
  rw [hfind, hfind, h]

/-- Only arm sequencers and records differ, and the load numbers stay unlike. -/
def ArmsAndLoads (s t : State) : Prop := t = { s with arms := t.arms, loads := t.loads } ∧ (t.loads.map (·.number)).Nodup

theorem State.promote_numbers (s : State) (n : ArmId) : (s.promote n).loads.map (·.number) = s.loads.map (·.number) := by
  rcases s.promote_cases n with h | ⟨l, -, -, -, h⟩
  · rw [h]
  · rw [h, State.readied, State.modLoad, State.withLoads_loads, List.map_map]
    refine List.map_congr_left fun k _ => ?_
    rw [Function.comp_apply]
    split <;> rfl

theorem ArmsAndLoads.leaveChecking (h : ArmsAndLoads s t) (n : ArmId) : ArmsAndLoads s (t.leaveChecking n) := by
  rw [State.leaveChecking]
  split
  · obtain ⟨hrest, hn⟩ := h
    refine ⟨?_, by rw [State.becomeAvailable_eq, State.promote_numbers]; exact hn⟩
    have hwith := congrArg (fun u : State => { u with arms := (t.opened n).arms, loads := ((t.opened n).promote n).loads })
      hrest
    rw [State.becomeAvailable_eq, State.promote_rest]
    exact hwith
  · exact h

theorem State.leaveChecking_other (hn : (s.loads.map (·.number)).Nodup) {m : ArmId} (hm : m ≠ n) :
    ((s.leaveChecking n).arm m, (s.leaveChecking n).armList m) = (s.arm m, s.armList m) := by
  rw [State.leaveChecking]
  split
  · have hsame := (State.becomeAvailable_aside hn n).others m hm
    rw [hsame.arm, hsame.list]
  · rfl

/-- Each arm of the bay leaves CHECKING once, if it does. -/
theorem State.leaveBay_at (hn : (s.loads.map (·.number)).Nodup) (hbay : bayOf n = bay) :
    ∃ x, ArmsAndLoads s x ∧ x.arm n = s.arm n ∧ x.armList n = s.armList n ∧
      ((bayArms bay).foldl (fun s n => s.leaveChecking n) s).arm n = (x.leaveChecking n).arm n ∧
      ((bayArms bay).foldl (fun s n => s.leaveChecking n) s).armList n = (x.leaveChecking n).armList n := by
  obtain ⟨x, hx, hsame, hget⟩ := foldl_get_at (op := fun s n => s.leaveChecking n) (P := ArmsAndLoads s)
    (get := fun s n => (s.arm n, s.armList n)) (fun t m ht => ht.leaveChecking m)
    (fun t m k ht hk => State.leaveChecking_other ht.2 hk) ⟨rfl, hn⟩ (nodup_bayArms bay) (mem_bayArms.mpr hbay)
  rw [Prod.mk.injEq] at hsame hget
  exact ⟨x, hx, hsame.1, hsame.2, hget.1, hget.2⟩

theorem State.leaveBay_other (hn : (s.loads.map (·.number)).Nodup) (hbay : bayOf n ≠ bay) :
    ((bayArms bay).foldl (fun s n => s.leaveChecking n) s).arm n = s.arm n ∧
      ((bayArms bay).foldl (fun s n => s.leaveChecking n) s).armList n = s.armList n := by
  have hget := foldl_get_of_not_mem (op := fun s n => s.leaveChecking n) (P := ArmsAndLoads s)
    (get := fun s n => (s.arm n, s.armList n)) (fun t m ht => ht.leaveChecking m)
    (fun t m k ht hk => State.leaveChecking_other ht.2 hk) ⟨rfl, hn⟩ (fun h => hbay (mem_bayArms.mp h))
  rw [Prod.mk.injEq] at hget
  exact hget

theorem State.channelsReady_iff : s.channelsReady n = true ↔
    (s.channel (gasMeter n)).validCount = 3 ∧ (s.channel (ethMeter n)).validCount = 3 := by
  rw [State.channelsReady, Bool.and_eq_true, beq_iff_eq, beq_iff_eq]

theorem ArmsAndLoads.channelsReady (h : ArmsAndLoads s t) (n : ArmId) : t.channelsReady n = s.channelsReady n := by
  rw [h.1]
  rfl

end

/-- Settles O23. -/
theorem readsDeliverAndReleaseTheArms : Obligations.ReadsDeliverAndReleaseTheArms := by
  intro bay r s hop hreading htables
  obtain ⟨u, hu⟩ : ∃ u, u = (s.withPort (s.port.finish bay)).deliverBay bay r := ⟨_, rfl⟩
  obtain ⟨t, ht⟩ : ∃ t, t = (bayArms bay).foldl (fun s n => s.leaveChecking n) u := ⟨_, rfl⟩
  have hexec : exec (.tempReadEnd bay r) s = .next t := by
    show execTempReadEnd bay r s = _
    rw [execTempReadEnd, hop, hreading, ht, hu]
    rfl
  have hurest : u = { s with port := s.port.finish bay, channels := u.channels } := by
    rw [hu, State.deliverBay_eq, State.onBay_rest]
    rfl
  have hn : (u.loads.map (·.number)).Nodup := by
    rw [hurest]
    exact htables.loadNumbers
  have hleft : ArmsAndLoads u t := by
    rw [ht]
    exact foldl_keeps (P := ArmsAndLoads u) (fun x m hx => hx.leaveChecking m) ⟨rfl, hn⟩ _
  have htchannel (m : MeterId) : t.channel m = u.channel m := by
    rw [hleft.1]
    rfl
  have harm (n : ArmId) : u.arm n = s.arm n := by
    rw [hurest]
    rfl
  have hlist (n : ArmId) : u.armList n = s.armList n := by
    rw [hurest]
    rfl
  have hat (k : Fin 8) : t.channel (bayChannel bay k) = reportOn r s.now k (s.channel (bayChannel bay k)) := by
    rw [htchannel, hu, State.deliverBay_eq, State.onBay_channel]
    rfl
  refine ⟨t, hexec, fun k => ⟨fun v hr hvalid => ?_, fun v hr hvalid => ?_, fun hr => ?_⟩, fun m hm => ?_, ?_,
    fun n hbay hmode hgas heth => ?_, fun n hstays => ?_, ?_⟩
  · have htemp : tempValid v[k].good v[k].value = true := by simpa [tempValid] using hvalid
    rw [hat, hr, reportOn, TempChannel.deliver, if_pos htemp]
    rfl
  · have htemp : ¬ tempValid v[k].good v[k].value = true := by simpa [tempValid] using hvalid
    rw [hat, hr, reportOn, TempChannel.deliver, if_neg htemp]
  · rw [hat, hr]
    rfl
  · rw [htchannel, hu, State.deliverBay_eq, State.onBay_channel_ne _ _ _ hm]
    rfl
  · rw [hleft.1, hurest]
    cases bay <;> rfl
  · obtain ⟨x, hx, hxarm, hxlist, htarm, htlist⟩ := State.leaveBay_at hn hbay
    rw [← ht] at htarm htlist
    rw [htchannel] at hgas heth
    have hready : x.leaveChecking n = x.becomeAvailable n := by
      rw [State.leaveChecking]
      refine if_pos ?_
      rw [hx.channelsReady, State.channelsReady_iff.mpr ⟨hgas, heth⟩, hxarm, harm, hmode]
      rfl
    rw [hready] at htarm htlist
    refine ⟨?_, fun l hnone hl => ?_⟩
    · rw [htarm, State.becomeAvailable_arm, hxarm, harm, show x.now = s.now by rw [hx.1, hurest],
        show x.armCfg n = s.armCfg n by rw [hx.1, hurest]; rfl]
    · have hsame : x.armList n = s.armList n := hxlist.trans (hlist n)
      rw [State.active_of_armList htlist]
      exact State.becomeAvailable_active hx.2 ((State.active_of_armList hsame).trans hnone)
        ((State.oldestStaged_of_armList hsame).trans hl)
  · by_cases hbay : bayOf n = bay
    · obtain ⟨x, hx, hxarm, hxlist, htarm, htlist⟩ := State.leaveBay_at hn hbay
      rw [← ht] at htarm htlist
      have hstill : x.leaveChecking n = x := by
        rw [State.leaveChecking]
        refine if_neg fun hyes => ?_
        rw [Bool.and_eq_true, beq_iff_eq, hx.channelsReady, State.channelsReady_iff, hxarm, harm, ← htchannel,
          ← htchannel] at hyes
        rcases hstays with h | h | h | h
        · exact h hbay
        · exact h hyes.1
        · exact h hyes.2.1
        · exact h hyes.2.2
      rw [hstill] at htarm htlist
      exact ⟨by rw [htarm, hxarm, harm], by rw [htlist, hxlist, hlist]⟩
    · obtain ⟨hsameArm, hsameList⟩ := State.leaveBay_other hn hbay
      rw [← ht] at hsameArm hsameList
      exact ⟨hsameArm.trans (harm n), hsameList.trans (hlist n)⟩
  · have hport : t.port = s.port.finish bay := by rw [hleft.1, hurest]
    have hchannels : t.channels = u.channels := by rw [hleft.1]
    have heq := congrArg (fun x : State => { x with arms := t.arms, loads := t.loads }) hurest
    rw [hport, hchannels]
    exact hleft.1.trans heq

end Sys2Proof.Machine
end

section
/-! SUPPORT. The setting items: a slot's place in the table of R201, and what a value put into one slot leaves in it and
in every other (R197, R198). -/

namespace Sys2Proof.Machine

/-! ## The place of a slot (R201) -/

/-- The item number and the index that name a slot. -/
def Slot.place : Slot → Nat × Nat
  | .arm n item => (item, n.val + 1)
  | .meter m item => (item, m.val + 1)
  | .injector i item => (item, i.val + 1)
  | .station item => (item, 0)
  | .alarmClass k => (80, k.val + 1)

/-- The items a slot's scope holds. -/
def Slot.inTable : Slot → Prop
  | .arm _ item => 1 ≤ item ∧ item ≤ 19
  | .meter _ item => 30 ≤ item ∧ item ≤ 43
  | .injector _ item => 50 ≤ item ∧ item ≤ 57
  | .station item => 70 ≤ item ∧ item ≤ 76
  | .alarmClass _ => True

section
variable {item index v : Nat} {slot other : Slot}

theorem slotOf_arm (h : 1 ≤ item ∧ item ≤ 19) :
    slotOf item index = if h : 1 ≤ index ∧ index ≤ 8 then some (.arm ⟨index - 1, by omega⟩ item) else none := by
  rw [slotOf, itemScope, if_pos h]

theorem slotOf_meter (h : 30 ≤ item ∧ item ≤ 43) :
    slotOf item index = if h : 1 ≤ index ∧ index ≤ 16 then some (.meter ⟨index - 1, by omega⟩ item) else none := by
  rw [slotOf, itemScope, if_neg (by omega), if_pos h]

theorem slotOf_injector (h : 50 ≤ item ∧ item ≤ 57) :
    slotOf item index = if h : 1 ≤ index ∧ index ≤ 12 then some (.injector ⟨index - 1, by omega⟩ item) else none := by
  rw [slotOf, itemScope, if_neg (by omega), if_neg (by omega), if_pos h]

theorem slotOf_station (h : 70 ≤ item ∧ item ≤ 76) :
    slotOf item index = if index = 0 then some (.station item) else none := by
  rw [slotOf, itemScope, if_neg (by omega), if_neg (by omega), if_neg (by omega), if_pos h]

theorem slotOf_kind : slotOf 80 index =
    if h : 1 ≤ index ∧ index ≤ 11 then some (.alarmClass ⟨index - 1, by omega⟩) else none := rfl

theorem slotOf_none (harm : ¬ (1 ≤ item ∧ item ≤ 19)) (hmeter : ¬ (30 ≤ item ∧ item ≤ 43))
    (hinjector : ¬ (50 ≤ item ∧ item ≤ 57)) (hstation : ¬ (70 ≤ item ∧ item ≤ 76)) (hkind : item ≠ 80) :
    slotOf item index = none := by
  rw [slotOf, itemScope, if_neg harm, if_neg hmeter, if_neg hinjector, if_neg hstation, if_neg hkind]

/-- A slot is the one its place names, and lies in the table. -/
theorem slotOf_spec (h : slotOf item index = some slot) : slot.place = (item, index) ∧ slot.inTable := by
  by_cases harm : 1 ≤ item ∧ item ≤ 19
  · rw [slotOf_arm harm] at h
    split at h
    · rename_i hindex
      cases h
      exact ⟨Prod.ext rfl (Nat.sub_add_cancel hindex.1), harm⟩
    · cases h
  by_cases hmeter : 30 ≤ item ∧ item ≤ 43
  · rw [slotOf_meter hmeter] at h
    split at h
    · rename_i hindex
      cases h
      exact ⟨Prod.ext rfl (Nat.sub_add_cancel hindex.1), hmeter⟩
    · cases h
  by_cases hinjector : 50 ≤ item ∧ item ≤ 57
  · rw [slotOf_injector hinjector] at h
    split at h
    · rename_i hindex
      cases h
      exact ⟨Prod.ext rfl (Nat.sub_add_cancel hindex.1), hinjector⟩
    · cases h
  by_cases hstation : 70 ≤ item ∧ item ≤ 76
  · rw [slotOf_station hstation] at h
    split at h
    · rename_i hindex
      cases h
      exact ⟨Prod.ext rfl hindex.symm, hstation⟩
    · cases h
  by_cases hkind : item = 80
  · subst hkind
    rw [slotOf_kind] at h
    split at h
    · rename_i hindex
      cases h
      exact ⟨Prod.ext rfl (Nat.sub_add_cancel hindex.1), trivial⟩
    · cases h
  · rw [slotOf_none harm hmeter hinjector hstation hkind] at h
    cases h

theorem slotOf_place (h : slot.inTable) : slotOf slot.place.1 slot.place.2 = some slot := by
  cases slot with
  | arm n item =>
    rw [Slot.place, slotOf_arm h, dif_pos (by omega)]
    rfl
  | meter m item =>
    rw [Slot.place, slotOf_meter h, dif_pos (by omega)]
    rfl
  | injector i item =>
    rw [Slot.place, slotOf_injector h, dif_pos (by omega)]
    rfl
  | station item => rw [Slot.place, slotOf_station h, if_pos rfl]
  | alarmClass k =>
    rw [Slot.place, slotOf_kind, dif_pos (by omega)]
    rfl

/-! ## The items of an element -/

theorem within_iff {lo hi v : Nat} : within lo hi v = true ↔ lo ≤ v ∧ v ≤ hi := decide_eq_true_iff

/-- The items' working values in their order. -/
def ArmSettings.items (c : ArmSettings) : List Nat :=
  [boolCode c.inService, c.period, c.lowRate, c.highRate, c.lowStart, c.taper, c.settle, c.deadband, c.noFlow, c.gasComp,
    c.overrunLimit, c.leakLimit, c.eMax, c.catchUp, c.monitorStart, c.allowance, c.ratioDelay, c.ethComp, c.finishTimeout]

theorem ArmSettings.item_eq (c : ArmSettings) (h : 1 ≤ item ∧ item ≤ 19) : c.items[item - 1]? = some (c.item item) := by
  obtain ⟨hlo, hhi⟩ := h
  interval_cases item <;> rfl

/-- The code a value written to an item stands for. -/
def ArmSettings.stored (item v : Nat) : Nat := if item = 1 then boolCode (v == 1) else v

theorem ArmSettings.items_setItem (c : ArmSettings) (h : 1 ≤ item ∧ item ≤ 19) :
    (c.setItem v item).items = c.items.set (item - 1) (ArmSettings.stored item v) := by
  obtain ⟨hlo, hhi⟩ := h
  interval_cases item <;> rfl

theorem ArmSettings.item_setItem_self (c : ArmSettings) (h : 1 ≤ item ∧ item ≤ 19) : (c.setItem v item).item item = ArmSettings.stored item v := by
  have hget := (c.setItem v item).item_eq h
  rw [c.items_setItem h, List.getElem?_set_self (by rw [ArmSettings.items, List.length]; simp only [List.length]; omega)] at hget
  exact (Option.some.inj hget).symm

theorem ArmSettings.item_setItem_ne (c : ArmSettings) {j : Nat} (h : 1 ≤ item ∧ item ≤ 19) (hj : 1 ≤ j ∧ j ≤ 19) (hne : j ≠ item) :
    (c.setItem v item).item j = c.item j := by
  have hget := (c.setItem v item).item_eq hj
  rw [c.items_setItem h, List.getElem?_set_ne (by omega), c.item_eq hj] at hget
  exact (Option.some.inj hget).symm

/-- The items' working values in their order. -/
def MeterSettings.items (c : MeterSettings) : List Nat :=
  [boolCode c.security, c.reverseLimit, c.window, c.tolerance, c.kFactor, c.q1, c.q2, c.q3, c.q4, c.f1, c.f2, c.f3, c.f4, c.alpha]

theorem MeterSettings.item_eq (c : MeterSettings) (h : 30 ≤ item ∧ item ≤ 43) : c.items[item - 30]? = some (c.item item) := by
  obtain ⟨hlo, hhi⟩ := h
  interval_cases item <;> rfl

/-- The code a value written to an item stands for. -/
def MeterSettings.stored (item v : Nat) : Nat := if item = 30 then boolCode (v == 1) else v

theorem MeterSettings.items_setItem (c : MeterSettings) (h : 30 ≤ item ∧ item ≤ 43) :
    (c.setItem v item).items = c.items.set (item - 30) (MeterSettings.stored item v) := by
  obtain ⟨hlo, hhi⟩ := h
  interval_cases item <;> rfl

theorem MeterSettings.item_setItem_self (c : MeterSettings) (h : 30 ≤ item ∧ item ≤ 43) : (c.setItem v item).item item = MeterSettings.stored item v := by
  have hget := (c.setItem v item).item_eq h
  rw [c.items_setItem h, List.getElem?_set_self (by rw [MeterSettings.items, List.length]; simp only [List.length]; omega)] at hget
  exact (Option.some.inj hget).symm

theorem MeterSettings.item_setItem_ne (c : MeterSettings) {j : Nat} (h : 30 ≤ item ∧ item ≤ 43) (hj : 30 ≤ j ∧ j ≤ 43) (hne : j ≠ item) :
    (c.setItem v item).item j = c.item j := by
  have hget := (c.setItem v item).item_eq hj
  rw [c.items_setItem h, List.getElem?_set_ne (by omega), c.item_eq hj] at hget
  exact (Option.some.inj hget).symm

/-- The items' working values in their order. -/
def InjSettings.items (c : InjSettings) : List Nat :=
  [c.arm, c.code, c.stroke, c.strokeTime, c.tail, c.pulses, c.tolerance, c.catchUp]

theorem InjSettings.item_eq (c : InjSettings) (h : 50 ≤ item ∧ item ≤ 57) : c.items[item - 50]? = some (c.item item) := by
  obtain ⟨hlo, hhi⟩ := h
  interval_cases item <;> rfl

theorem InjSettings.items_setItem (c : InjSettings) (h : 50 ≤ item ∧ item ≤ 57) :
    (c.setItem v item).items = c.items.set (item - 50) (v) := by
  obtain ⟨hlo, hhi⟩ := h
  interval_cases item <;> rfl

theorem InjSettings.item_setItem_self (c : InjSettings) (h : 50 ≤ item ∧ item ≤ 57) : (c.setItem v item).item item = v := by
  have hget := (c.setItem v item).item_eq h
  rw [c.items_setItem h, List.getElem?_set_self (by rw [InjSettings.items, List.length]; simp only [List.length]; omega)] at hget
  exact (Option.some.inj hget).symm

theorem InjSettings.item_setItem_ne (c : InjSettings) {j : Nat} (h : 50 ≤ item ∧ item ≤ 57) (hj : 50 ≤ j ∧ j ≤ 57) (hne : j ≠ item) :
    (c.setItem v item).item j = c.item j := by
  have hget := (c.setItem v item).item_eq hj
  rw [c.items_setItem h, List.getElem?_set_ne (by omega), c.item_eq hj] at hget
  exact (Option.some.inj hget).symm

/-- The items' working values in their order. -/
def StationSettings.items (c : StationSettings) : List Nat :=
  [c.holdLimit, c.tempHold, c.capacity, c.lineSpeed, c.linkAddress, c.silenceTime, c.silenceAction.code]

theorem StationSettings.item_eq (c : StationSettings) (h : 70 ≤ item ∧ item ≤ 76) : c.items[item - 70]? = some (c.item item) := by
  obtain ⟨hlo, hhi⟩ := h
  interval_cases item <;> rfl

/-- The code a value written to an item stands for. -/
def StationSettings.stored (item v : Nat) : Nat := if item = 76 then (SilenceAction.ofCode v).code else v

theorem StationSettings.items_setItem (c : StationSettings) (h : 70 ≤ item ∧ item ≤ 76) :
    (c.setItem v item).items = c.items.set (item - 70) (StationSettings.stored item v) := by
  obtain ⟨hlo, hhi⟩ := h
  interval_cases item <;> rfl

theorem StationSettings.item_setItem_self (c : StationSettings) (h : 70 ≤ item ∧ item ≤ 76) : (c.setItem v item).item item = StationSettings.stored item v := by
  have hget := (c.setItem v item).item_eq h
  rw [c.items_setItem h, List.getElem?_set_self (by rw [StationSettings.items, List.length]; simp only [List.length]; omega)] at hget
  exact (Option.some.inj hget).symm

theorem StationSettings.item_setItem_ne (c : StationSettings) {j : Nat} (h : 70 ≤ item ∧ item ≤ 76) (hj : 70 ≤ j ∧ j ≤ 76) (hne : j ≠ item) :
    (c.setItem v item).item j = c.item j := by
  have hget := (c.setItem v item).item_eq hj
  rw [c.items_setItem h, List.getElem?_set_ne (by omega), c.item_eq hj] at hget
  exact (Option.some.inj hget).symm

/-! ## The value of a slot (R197, R198) -/

theorem boolCode_one (h : v ≤ 1) : boolCode (v == 1) = v := by interval_cases v <;> rfl

theorem silenceAction_code (h : 1 ≤ v ∧ v ≤ 2) : (SilenceAction.ofCode v).code = v := by
  obtain ⟨hlo, hhi⟩ := h
  interval_cases v <;> rfl

theorem alarmClass_code (h : 1 ≤ v ∧ v ≤ 3) : (AlarmClass.ofCode v).code = v := by
  obtain ⟨hlo, hhi⟩ := h
  interval_cases v <;> rfl

theorem StationSettings.classItem_setClass (c : StationSettings) (k j : Fin 11) (x : AlarmClass) :
    (c.setClass k x).classItem j = if j = k ∧ k.val < 10 then x else c.classItem j := by
  rw [StationSettings.setClass, StationSettings.classItem, StationSettings.classItem]
  by_cases hk : k.val < 10
  · rw [dif_pos hk]
    by_cases hjk : j = k
    · subst hjk
      rw [dif_pos hk, if_pos ⟨rfl, hk⟩, Vector.getElem_set_self]
    · rw [if_neg fun h => hjk h.1]
      by_cases hj : j.val < 10
      · rw [dif_pos hj, dif_pos hj, Vector.getElem_set_ne _ _ fun h => hjk (Fin.ext h.symm)]
      · rw [dif_neg hj, dif_neg hj]
  · rw [dif_neg hk, if_neg fun h => hk h.2]

/-- A value in range put into a slot is the slot's working value (R198). -/
theorem Settings.get_put_self (c : Settings) (hslot : slotOf item index = some slot)
    (hrange : itemInRange item index v = true) : (c.put v slot).get slot = v := by
  obtain ⟨hplace, htable⟩ := slotOf_spec hslot
  cases slot with
  | arm n k =>
    obtain ⟨rfl, rfl⟩ := Prod.mk.inj hplace
    have hself : (c.put v (.arm n k)).get (.arm n k) = ((c.arms[n]).setItem v k).item k :=
      congrArg (ArmSettings.item · k) (Vector.getElem_set_self ..)
    rw [hself, ArmSettings.item_setItem_self _ htable, ArmSettings.stored]
    split
    · rename_i hone
      subst hone
      exact boolCode_one (within_iff.mp hrange).2
    · rfl
  | meter m k =>
    obtain ⟨rfl, rfl⟩ := Prod.mk.inj hplace
    have hself : (c.put v (.meter m k)).get (.meter m k) = ((c.meters[m]).setItem v k).item k :=
      congrArg (MeterSettings.item · k) (Vector.getElem_set_self ..)
    rw [hself, MeterSettings.item_setItem_self _ htable, MeterSettings.stored]
    split
    · rename_i hone
      subst hone
      exact boolCode_one (within_iff.mp hrange).2
    · rfl
  | injector i k =>
    obtain ⟨rfl, rfl⟩ := Prod.mk.inj hplace
    have hself : (c.put v (.injector i k)).get (.injector i k) = ((c.injectors[i]).setItem v k).item k :=
      congrArg (InjSettings.item · k) (Vector.getElem_set_self ..)
    rw [hself, InjSettings.item_setItem_self _ htable]
  | station k =>
    obtain ⟨rfl, rfl⟩ := Prod.mk.inj hplace
    refine (StationSettings.item_setItem_self _ htable).trans ?_
    rw [StationSettings.stored]
    split
    · rename_i hlast
      subst hlast
      exact silenceAction_code (within_iff.mp hrange)
    · rfl
  | alarmClass k =>
    obtain ⟨rfl, rfl⟩ := Prod.mk.inj hplace
    have hself : (c.put v (.alarmClass k)).get (.alarmClass k) = ((c.station.setClass k (.ofCode v)).classItem k).code := rfl
    rw [hself, StationSettings.classItem_setClass]
    have hcases : itemInRange 80 (k.val + 1) v = if k.val + 1 = 11 then v == 1 else within 1 3 v := rfl
    rw [hcases] at hrange
    by_cases hk : k.val < 10
    · rw [if_neg (by omega)] at hrange
      rw [if_pos ⟨rfl, hk⟩, alarmClass_code (within_iff.mp hrange)]
    · rw [if_pos (by omega), beq_iff_eq] at hrange
      rw [if_neg fun h => hk h.2, StationSettings.classItem, dif_neg hk, hrange]
      rfl

/-- A value put into a slot leaves every other slot's (R198). -/
theorem Settings.get_put_ne (c : Settings) (h : slot.inTable) (hother : other.inTable) (hne : other ≠ slot) :
    (c.put v slot).get other = c.get other := by
  cases slot with
  | arm n k =>
    cases other with
    | arm m j =>
      by_cases hm : m = n
      · subst hm
        have hself : (c.put v (.arm m k)).get (.arm m j) = ((c.arms[m]).setItem v k).item j :=
          congrArg (ArmSettings.item · j) (Vector.getElem_set_self ..)
        rw [hself, ArmSettings.item_setItem_ne _ h hother fun hjk => hne (by rw [hjk])]
        rfl
      · exact congrArg (ArmSettings.item · j) (Vector.getElem_set_ne n.isLt m.isLt fun hv => hm (Fin.ext hv.symm))
    | meter | injector | station | alarmClass => rfl
  | meter n k =>
    cases other with
    | meter m j =>
      by_cases hm : m = n
      · subst hm
        have hself : (c.put v (.meter m k)).get (.meter m j) = ((c.meters[m]).setItem v k).item j :=
          congrArg (MeterSettings.item · j) (Vector.getElem_set_self ..)
        rw [hself, MeterSettings.item_setItem_ne _ h hother fun hjk => hne (by rw [hjk])]
        rfl
      · exact congrArg (MeterSettings.item · j) (Vector.getElem_set_ne n.isLt m.isLt fun hv => hm (Fin.ext hv.symm))
    | arm | injector | station | alarmClass => rfl
  | injector n k =>
    cases other with
    | injector m j =>
      by_cases hm : m = n
      · subst hm
        have hself : (c.put v (.injector m k)).get (.injector m j) = ((c.injectors[m]).setItem v k).item j :=
          congrArg (InjSettings.item · j) (Vector.getElem_set_self ..)
        rw [hself, InjSettings.item_setItem_ne _ h hother fun hjk => hne (by rw [hjk])]
        rfl
      · exact congrArg (InjSettings.item · j) (Vector.getElem_set_ne n.isLt m.isLt fun hv => hm (Fin.ext hv.symm))
    | arm | meter | station | alarmClass => rfl
  | station k =>
    cases other with
    | station j => exact StationSettings.item_setItem_ne _ h hother fun hjk => hne (by rw [hjk])
    | alarmClass j =>
      have hclasses : (c.station.setItem v k).classes = c.station.classes := by
        obtain ⟨hlo, hhi⟩ : 70 ≤ k ∧ k ≤ 76 := h
        interval_cases k <;> rfl
      exact congrArg AlarmClass.code (by
        rw [StationSettings.classItem, StationSettings.classItem]
        exact congrArg (fun x : Vector AlarmClass 10 => if h : j.val < 10 then x[j.val] else .stop) hclasses)
    | arm | meter | injector => rfl
  | alarmClass k =>
    cases other with
    | station j =>
      have hitem : (c.station.setClass k (.ofCode v)).item j = c.station.item j := by
        rw [StationSettings.setClass]
        split <;> rfl
      exact hitem
    | alarmClass j =>
      have hget : ((c.station.setClass k (.ofCode v)).classItem j).code = (c.station.classItem j).code := by
        rw [StationSettings.classItem_setClass, if_neg fun hjk => hne (by rw [hjk.1])]
      exact hget
    | arm | meter | injector => rfl

end

end Sys2Proof.Machine
end

section
/-! O8: when an area of the settings memory is read valid, and the settings it gives (R196). -/

namespace Sys2Proof.Machine

/-! ## The places of the items (log entry 5) -/

section
variable {a k x : Nat} {p : Nat × Nat}

theorem mem_upFrom : x ∈ upFrom a k ↔ a ≤ x ∧ x < a + k := by
  induction k generalizing a with
  | zero => simp [upFrom]
  | succ k ih =>
    rw [upFrom, List.mem_cons, ih]
    omega

theorem nodup_upFrom (a k : Nat) : (upFrom a k).Nodup := by
  induction k generalizing a with
  | zero => exact List.nodup_nil
  | succ k ih => exact List.nodup_cons.mpr ⟨fun h => absurd (mem_upFrom.mp h).1 (by omega), ih (a + 1)⟩

theorem length_upFrom (a k : Nat) : (upFrom a k).length = k := by
  induction k generalizing a with
  | zero => rfl
  | succ k ih => rw [upFrom, List.length_cons, ih]

theorem slotsOf_eq (first items fromIndex indices : Nat) :
    slotsOf first items fromIndex indices = upFrom first items ×ˢ upFrom fromIndex indices := rfl

theorem mem_slotsOf {first items fromIndex indices : Nat} : p ∈ slotsOf first items fromIndex indices ↔
    (first ≤ p.1 ∧ p.1 < first + items) ∧ (fromIndex ≤ p.2 ∧ p.2 < fromIndex + indices) := by
  rw [slotsOf_eq, List.mem_product, mem_upFrom, mem_upFrom]

theorem nodup_slotsOf (first items fromIndex indices : Nat) : (slotsOf first items fromIndex indices).Nodup :=
  (nodup_upFrom _ _).product (nodup_upFrom _ _)

theorem length_slotsOf (first items fromIndex indices : Nat) :
    (slotsOf first items fromIndex indices).length = items * indices := by
  rw [slotsOf_eq, List.length_product, length_upFrom, length_upFrom]

theorem mem_slots_m : p ∈ Area.m.slots ↔ ((1 ≤ p.1 ∧ p.1 ≤ 19) ∧ (1 ≤ p.2 ∧ p.2 ≤ 8)) ∨
    ((30 ≤ p.1 ∧ p.1 ≤ 43) ∧ (1 ≤ p.2 ∧ p.2 ≤ 16)) ∨ ((50 ≤ p.1 ∧ p.1 ≤ 57) ∧ (1 ≤ p.2 ∧ p.2 ≤ 12)) := by
  rw [Area.slots, List.mem_append, List.mem_append, mem_slotsOf, mem_slotsOf, mem_slotsOf]
  omega

theorem mem_slots_l : p ∈ Area.l.slots ↔ ((70 ≤ p.1 ∧ p.1 ≤ 76) ∧ p.2 = 0) ∨ (p.1 = 80 ∧ (1 ≤ p.2 ∧ p.2 ≤ 11)) := by
  rw [Area.slots, List.mem_append, mem_slotsOf, mem_slotsOf]
  omega

theorem nodup_slots (a : Area) : a.slots.Nodup := by
  cases a with
  | m =>
    refine ((nodup_slotsOf ..).append (nodup_slotsOf ..) fun p h h' => ?_).append (nodup_slotsOf ..) fun p h h' => ?_
    · rw [mem_slotsOf] at h h'
      omega
    · rw [List.mem_append, mem_slotsOf, mem_slotsOf] at h
      rw [mem_slotsOf] at h'
      omega
  | l =>
    refine (nodup_slotsOf ..).append (nodup_slotsOf ..) fun p h h' => ?_
    rw [mem_slotsOf] at h h'
    omega

/-- The items of an area fit its data bytes. -/
theorem length_slots (a : Area) : 3 * a.slots.length ≤ a.dataSize := by
  cases a with
  | m =>
    rw [Area.slots, List.length_append, List.length_append, length_slotsOf, length_slotsOf, length_slotsOf]
    decide
  | l =>
    rw [Area.slots, List.length_append, length_slotsOf, length_slotsOf]
    decide

/-- A slot of area M is one of an arm, a meter or an injector, and of area L one of the station. -/
def Slot.area : Slot → Area
  | .arm .. | .meter .. | .injector .. => .m
  | .station _ | .alarmClass _ => .l

theorem slotOf_area {a : Area} (h : p ∈ a.slots) : ∃ slot, slotOf p.1 p.2 = some slot ∧ slot.area = a := by
  cases a with
  | m =>
    rcases mem_slots_m.mp h with ⟨hitem, hindex⟩ | ⟨hitem, hindex⟩ | ⟨hitem, hindex⟩
    · exact ⟨_, by rw [slotOf_arm hitem, dif_pos hindex], rfl⟩
    · exact ⟨_, by rw [slotOf_meter hitem, dif_pos hindex], rfl⟩
    · exact ⟨_, by rw [slotOf_injector hitem, dif_pos hindex], rfl⟩
  | l =>
    rcases mem_slots_l.mp h with ⟨hitem, hindex⟩ | ⟨hitem, hindex⟩
    · exact ⟨_, by rw [slotOf_station hitem, if_pos hindex], rfl⟩
    · exact ⟨_, by rw [hitem, slotOf_kind, dif_pos hindex], rfl⟩

end

/-! ## The items read (R196) -/

/-- The settings with the values of some items put in, one after the other. -/
def Settings.putAll (c : Settings) (val : Nat → Nat → Nat) (slots : List (Nat × Nat)) : Settings :=
  slots.foldl (fun c p => match slotOf p.1 p.2 with
    | some slot => c.put (val p.1 p.2) slot
    | none => c) c

section
variable {c : Settings} {val : Nat → Nat → Nat} {slots rest : List (Nat × Nat)} {p : Nat × Nat} {slot : Slot}

theorem Settings.putAll_cons (h : slotOf p.1 p.2 = some slot) :
    c.putAll val (p :: rest) = (c.put (val p.1 p.2) slot).putAll val rest := by
  rw [Settings.putAll, List.foldl_cons, h]
  rfl

/-- A slot none of the items names keeps its value. -/
theorem Settings.putAll_get_of_not_mem (hall : ∀ p ∈ slots, ∃ slot, slotOf p.1 p.2 = some slot) (htable : slot.inTable)
    (hnot : slot.place ∉ slots) : (c.putAll val slots).get slot = c.get slot := by
  induction slots generalizing c with
  | nil => rfl
  | cons p rest ih =>
    obtain ⟨other, hother⟩ := hall p List.mem_cons_self
    rw [List.mem_cons, not_or] at hnot
    obtain ⟨hplace, hotherTable⟩ := slotOf_spec hother
    rw [Settings.putAll_cons hother, ih (fun q hq => hall q (List.mem_cons_of_mem _ hq)) hnot.2,
      Settings.get_put_ne _ hotherTable htable fun h => hnot.1 (by rw [h, hplace])]

/-- An item read has the value put in. -/
theorem Settings.putAll_get (hall : ∀ p ∈ slots, ∃ slot, slotOf p.1 p.2 = some slot) (hn : slots.Nodup)
    (hrange : ∀ p ∈ slots, itemInRange p.1 p.2 (val p.1 p.2) = true) (hp : p ∈ slots)
    (hslot : slotOf p.1 p.2 = some slot) : (c.putAll val slots).get slot = val p.1 p.2 := by
  induction slots generalizing c with
  | nil => cases hp
  | cons q rest ih =>
    obtain ⟨hq, hrest⟩ := List.nodup_cons.mp hn
    obtain ⟨other, hother⟩ := hall q List.mem_cons_self
    have htail := fun r (hr : r ∈ rest) => hall r (List.mem_cons_of_mem _ hr)
    rw [Settings.putAll_cons hother]
    rcases List.mem_cons.mp hp with rfl | hp
    · obtain ⟨hplace, htable⟩ := slotOf_spec hslot
      rw [hslot, Option.some.injEq] at hother
      rw [← hother, Settings.putAll_get_of_not_mem htail htable (by rw [hplace]; exact hq)]
      exact Settings.get_put_self c hslot (hrange p List.mem_cons_self)
    · exact ih htail hrest (fun r hr => hrange r (List.mem_cons_of_mem _ hr)) hp

/-- Items of area M leave the station's settings, and items of area L the others. -/
theorem Settings.putAll_kept (a : Area) (hall : ∀ p ∈ slots, ∃ slot, slotOf p.1 p.2 = some slot ∧ slot.area = a) :
    (a = .m → (c.putAll val slots).station = c.station) ∧ (a = .l → (c.putAll val slots).arms = c.arms ∧
      (c.putAll val slots).meters = c.meters ∧ (c.putAll val slots).injectors = c.injectors) := by
  induction slots generalizing c with
  | nil => exact ⟨fun _ => rfl, fun _ => ⟨rfl, rfl, rfl⟩⟩
  | cons p rest ih =>
    obtain ⟨slot, hslot, harea⟩ := hall p List.mem_cons_self
    obtain ⟨hm, hl⟩ := ih (c := c.put (val p.1 p.2) slot) fun q hq => hall q (List.mem_cons_of_mem _ hq)
    rw [Settings.putAll_cons hslot]
    subst harea
    refine ⟨fun h => (hm h).trans ?_, fun h => ?_⟩
    · cases slot with
      | arm | meter | injector => rfl
      | station | alarmClass => cases h
    · obtain ⟨harms, hmeters, hinjectors⟩ := hl h
      rw [harms, hmeters, hinjectors]
      cases slot with
      | arm | meter | injector => cases h
      | station | alarmClass => exact ⟨rfl, rfl, rfl⟩

theorem Memory.readRun_three (m : Memory) (a k : Nat) :
    m.readRun a (k + 3) = m.read a :: m.read (a + 1) :: m.read (a + 2) :: m.readRun (a + 3) k := rfl

/-- The items read from a run of bytes: all in range, or none taken. -/
theorem Settings.takeItems_run (m : Memory) {a k : Nat} (hk : 3 * slots.length ≤ k)
    (hval : ∀ j (hj : j < slots.length), val slots[j].1 slots[j].2 = fromBytes (m.readRun (a + 3 * j) 3))
    (hall : ∀ p ∈ slots, ∃ slot, slotOf p.1 p.2 = some slot) : c.takeItems slots (m.readRun a k) =
      if ∀ p ∈ slots, itemInRange p.1 p.2 (val p.1 p.2) = true then some (c.putAll val slots) else none := by
  induction slots generalizing c a k with
  | nil => simp [Settings.takeItems, Settings.putAll]
  | cons p rest ih =>
    obtain ⟨slot, hslot⟩ := hall p List.mem_cons_self
    obtain ⟨j, rfl⟩ : ∃ j, k = j + 3 := ⟨k - 3, by rw [List.length_cons] at hk; omega⟩
    have hfirst : fromBytes [m.read a, m.read (a + 1), m.read (a + 2)] = val p.1 p.2 :=
      (hval 0 (by rw [List.length_cons]; omega)).symm
    have hrest := ih (c := c.put (val p.1 p.2) slot) (a := a + 3) (k := j) (by rw [List.length_cons] at hk; omega)
      (fun i hi => by
        have h := hval (i + 1) (by rw [List.length_cons]; omega)
        rw [List.getElem_cons_succ] at h
        rw [h, show a + 3 * (i + 1) = a + 3 + 3 * i by omega])
      fun q hq => hall q (List.mem_cons_of_mem _ hq)
    rw [Memory.readRun_three, Settings.takeItems, hfirst, Settings.putAll_cons hslot]
    simp only [List.forall_mem_cons]
    by_cases hin : itemInRange p.1 p.2 (val p.1 p.2) = true
    · rw [if_pos hin, hslot]
      simp only [hin, true_and]
      exact hrest
    · rw [if_neg hin, if_neg fun h => hin h.1]

end

/-- The stored value of an item is read at the item's place in its area. -/
theorem Memory.storedValue_getElem (m : Memory) (a : Area) (j : Nat) (hj : j < a.slots.length) :
    m.storedValue a (a.slots[j]).1 (a.slots[j]).2 = fromBytes (m.readRun (a.start + 3 * j) 3) := by
  have hplace : a.slots.idxOf a.slots[j] = j := (nodup_slots a).idxOf_getElem j hj
  rw [Memory.storedValue]
  exact congrArg (fun k => fromBytes (m.readRun (a.start + 3 * k) 3)) hplace

/-- The values of an area, all in range. -/
def Memory.inRange (m : Memory) (a : Area) : Prop :=
  ∀ p ∈ a.slots, itemInRange p.1 p.2 (m.storedValue a p.1 p.2) = true

/-- The settings with an area's stored values taken. -/
def Settings.withArea (c : Settings) (m : Memory) (a : Area) : Settings := c.putAll (m.storedValue a) a.slots

section
variable {c : Settings} {m : Memory} {a : Area} {mixed : Bool} {spoiled : Nat} {s : State}

theorem Settings.takeItems_area : (m.inRange a → c.takeItems a.slots (m.areaData a) = some (c.withArea m a)) ∧
    (¬ m.inRange a → c.takeItems a.slots (m.areaData a) = none) := by
  have hrun := Settings.takeItems_run (c := c) m (length_slots a) (m.storedValue_getElem a) fun p hp =>
    (slotOf_area hp).imp fun _ h => h.1
  exact ⟨fun h => hrun.trans (if_pos h), fun h => hrun.trans (if_neg h)⟩

/-- An area is read valid, and gives its stored values, or fails (R196). -/
theorem State.readArea_spec : (∃ c', s.readArea c a mixed spoiled = some c') ↔ spoiled < 3 ∧ mixed = false ∧
    s.memory.inRange a ∧ (c.withArea s.memory a).rulesHold = true ∧ s.memory.areaCrc a = crcBytes (s.memory.areaData a) := by
  rw [State.readArea, Settings.loadArea]
  by_cases hspoiled : spoiled < 3
  · by_cases hrange : s.memory.inRange a
    · rw [Settings.takeItems_area.1 hrange]
      cases mixed with
      | true => simp
      | false => simp [hspoiled, hrange]
    · rw [Settings.takeItems_area.2 hrange]
      cases mixed with
      | true => simp
      | false => simp [hrange]
  · simp [hspoiled]

theorem State.readArea_some {c' : Settings} (h : s.readArea c a mixed spoiled = some c') : c' = c.withArea s.memory a := by
  obtain ⟨hspoiled, hmixed, hrange, hrules, hcrc⟩ := State.readArea_spec.mp ⟨c', h⟩
  rw [State.readArea, if_pos hspoiled, Settings.loadArea, hmixed, if_neg (by decide), Settings.takeItems_area.1 hrange] at h
  simp only [hrules, hcrc] at h
  simpa using h.symm

end

/-! ## The rules between items (R68, R108, R145) -/

theorem noRepeat_iff (l : List Nat) : noRepeat l = true ↔ l.Nodup := by
  induction l with
  | nil => simp [noRepeat]
  | cons a l ih => simp [noRepeat, ih]

theorem mem_allMeters (m : MeterId) : m ∈ allMeters := by revert m; decide

theorem Settings.rulesHold_iff (c : Settings) : c.rulesHold = true ↔
    (∀ n : ArmId, c.arms[n].lowRate ≤ c.arms[n].highRate) ∧
    (∀ k : MeterId, c.meters[k].q1 < c.meters[k].q2 ∧ c.meters[k].q2 < c.meters[k].q3 ∧ c.meters[k].q3 < c.meters[k].q4) ∧
    (∀ (n : ArmId) (set : List InjId), set = allInjectors.filter (fun i => c.injectors[i].arm = armNumber n) →
      set.length ≤ 3 ∧ (set.map fun i => c.injectors[i].code).Nodup) := by
  have hset (n : ArmId) : c.injectorSetOk (armNumber n) = true ↔
      (allInjectors.filter fun i => c.injectors[i].arm = armNumber n).length ≤ 3 ∧
        ((allInjectors.filter fun i => c.injectors[i].arm = armNumber n).map fun i => c.injectors[i].code).Nodup := by
    have hzero : (armNumber n == 0) = false := by simp [armNumber]
    rw [Settings.injectorSetOk, hzero, Bool.false_or, Bool.and_eq_true, decide_eq_true_iff, noRepeat_iff, Settings.setCodes,
      List.length_map]
    rfl
  rw [Settings.rulesHold, Bool.and_eq_true, List.all_eq_true, List.all_eq_true]
  simp only [Bool.and_eq_true, hset, ArmSettings.ratesOrdered, MeterSettings.ascending, decide_eq_true_iff, mem_allArms,
    mem_allMeters, forall_true_left, forall_eq]
  exact ⟨fun ⟨harms, hmeters⟩ => ⟨fun n => (harms n).1, hmeters, fun n => (harms n).2⟩,
    fun ⟨hrates, hmeters, hsets⟩ => ⟨fun n => ⟨hrates n, hsets n⟩, hmeters⟩⟩

theorem Settings.rulesHold_congr {c c' : Settings} (harms : c'.arms = c.arms) (hmeters : c'.meters = c.meters)
    (hinjectors : c'.injectors = c.injectors) : c'.rulesHold = c.rulesHold := by
  rw [Bool.eq_iff_iff, Settings.rulesHold_iff, Settings.rulesHold_iff, harms, hmeters, hinjectors]

/-! ## O8 -/

section
variable {c : Settings} {m : Memory} {s : State}

/-- A slot's value after its area was taken (R196). -/
theorem Settings.withArea_get {a : Area} (h : m.inRange a) {p : Nat × Nat} (hp : p ∈ a.slots) {slot : Slot}
    (hslot : slotOf p.1 p.2 = some slot) : (c.withArea m a).get slot = m.storedValue a p.1 p.2 :=
  Settings.putAll_get (fun _ hq => (slotOf_area hq).imp fun _ hs => hs.1) (nodup_slots a) h hp hslot

/-- The rules between items, read off the stored values of area M. -/
theorem Settings.withArea_rulesHold (h : m.inRange .m) : (c.withArea m .m).rulesHold = true ↔
    (∀ n : ArmId, m.storedValue .m 3 (armNumber n) ≤ m.storedValue .m 4 (armNumber n)) ∧
    (∀ k : MeterId, m.storedValue .m 35 (k.val + 1) < m.storedValue .m 36 (k.val + 1) ∧
      m.storedValue .m 36 (k.val + 1) < m.storedValue .m 37 (k.val + 1) ∧
      m.storedValue .m 37 (k.val + 1) < m.storedValue .m 38 (k.val + 1)) ∧
    (∀ (n : ArmId) (set : List InjId),
      set = allInjectors.filter (fun i => m.storedValue .m 50 (i.val + 1) = armNumber n) →
      set.length ≤ 3 ∧ (set.map fun i => m.storedValue .m 51 (i.val + 1)).Nodup) := by
  have harm (n : ArmId) (item : Nat) (hitem : 1 ≤ item ∧ item ≤ 19) :
      (c.withArea m .m).arms[n].item item = m.storedValue .m item (armNumber n) :=
    Settings.withArea_get (slot := .arm n item) h (p := (item, armNumber n))
      (mem_slots_m.mpr (Or.inl ⟨hitem, by rw [armNumber]; omega⟩)) (slotOf_place (slot := .arm n item) hitem)
  have hmeter (k : MeterId) (item : Nat) (hitem : 30 ≤ item ∧ item ≤ 43) :
      (c.withArea m .m).meters[k].item item = m.storedValue .m item (k.val + 1) :=
    Settings.withArea_get (slot := .meter k item) h (p := (item, k.val + 1))
      (mem_slots_m.mpr (Or.inr (Or.inl ⟨hitem, by omega⟩))) (slotOf_place (slot := .meter k item) hitem)
  have hinjector (i : InjId) (item : Nat) (hitem : 50 ≤ item ∧ item ≤ 57) :
      (c.withArea m .m).injectors[i].item item = m.storedValue .m item (i.val + 1) :=
    Settings.withArea_get (slot := .injector i item) h (p := (item, i.val + 1))
      (mem_slots_m.mpr (Or.inr (Or.inr ⟨hitem, by omega⟩))) (slotOf_place (slot := .injector i item) hitem)
  have hlow (n : ArmId) : (c.withArea m .m).arms[n].lowRate = _ := harm n 3 (by omega)
  have hhigh (n : ArmId) : (c.withArea m .m).arms[n].highRate = _ := harm n 4 (by omega)
  have hq1 (k : MeterId) : (c.withArea m .m).meters[k].q1 = _ := hmeter k 35 (by omega)
  have hq2 (k : MeterId) : (c.withArea m .m).meters[k].q2 = _ := hmeter k 36 (by omega)
  have hq3 (k : MeterId) : (c.withArea m .m).meters[k].q3 = _ := hmeter k 37 (by omega)
  have hq4 (k : MeterId) : (c.withArea m .m).meters[k].q4 = _ := hmeter k 38 (by omega)
  have hon (i : InjId) : (c.withArea m .m).injectors[i].arm = _ := hinjector i 50 (by omega)
  have hcode (i : InjId) : (c.withArea m .m).injectors[i].code = _ := hinjector i 51 (by omega)
  rw [Settings.rulesHold_iff]
  simp only [hlow, hhigh, hq1, hq2, hq3, hq4, hon, hcode]

/-- Taking area L breaks no rule between items. -/
theorem Settings.withArea_l_rulesHold : (c.withArea m .l).rulesHold = c.rulesHold := by
  obtain ⟨-, hkept⟩ := Settings.putAll_kept (c := c) (val := m.storedValue .l) .l fun _ hp => slotOf_area hp
  obtain ⟨harms, hmeters, hinjectors⟩ := hkept rfl
  exact Settings.rulesHold_congr harms hmeters hinjectors

theorem Settings.default_rulesHold : Settings.default.rulesHold = true := by decide

/-- The settings in force once area M was read or failed keep the rules between items. -/
theorem State.readArea_m_rulesHold {mixed : Bool} {spoiled : Nat} :
    ((s.readArea Settings.default .m mixed spoiled).getD Settings.default).rulesHold = true := by
  cases hread : s.readArea Settings.default .m mixed spoiled with
  | none => exact Settings.default_rulesHold
  | some c' =>
    obtain ⟨-, -, -, hrules, -⟩ := State.readArea_spec.mp ⟨c', hread⟩
    rw [Option.getD_some, State.readArea_some hread]
    exact hrules

/-- An area taken, or the settings before it, leave what the area does not hold. -/
theorem State.readArea_kept {a : Area} {mixed : Bool} {spoiled : Nat} :
    (a = .m → ((s.readArea c a mixed spoiled).getD c).station = c.station) ∧
    (a = .l → ((s.readArea c a mixed spoiled).getD c).arms = c.arms ∧
      ((s.readArea c a mixed spoiled).getD c).meters = c.meters ∧
      ((s.readArea c a mixed spoiled).getD c).injectors = c.injectors) := by
  cases hread : s.readArea c a mixed spoiled with
  | none => exact ⟨fun _ => rfl, fun _ => ⟨rfl, rfl, rfl⟩⟩
  | some c' =>
    rw [Option.getD_some, State.readArea_some hread]
    exact Settings.putAll_kept a fun _ hp => slotOf_area hp

theorem Settings.get_congr {c c' : Settings} {slot : Slot} (harea : slot.area = .m) (harms : c'.arms = c.arms)
    (hmeters : c'.meters = c.meters) (hinjectors : c'.injectors = c.injectors) : c'.get slot = c.get slot := by
  cases slot with
  | arm n item => rw [Settings.get, Settings.get, harms]
  | meter m item => rw [Settings.get, Settings.get, hmeters]
  | injector i item => rw [Settings.get, Settings.get, hinjectors]
  | station | alarmClass => cases harea

end

/-- Settles O8. -/
theorem failedAreasFallBackToDefaults : Obligations.FailedAreasFallBackToDefaults := by
  intro a b s m l hm hl
  subst hm hl
  obtain ⟨first, hfirst⟩ : ∃ r, r = s.readArea Settings.default .m s.store.mixedM a := ⟨_, rfl⟩
  obtain ⟨c, hc⟩ : ∃ c, c = first.getD Settings.default := ⟨_, rfl⟩
  obtain ⟨second, hsecond⟩ : ∃ r, r = s.readArea c .l s.store.mixedL b := ⟨_, rfl⟩
  have hload : s.loadSettings a b = (second.getD c, first.isSome, second.isSome) := by
    rw [hsecond, hc, hfirst]
    rfl
  have hrules : c.rulesHold = true := by
    rw [hc, hfirst]
    exact State.readArea_m_rulesHold
  have hkeptL : (second.getD c).arms = c.arms ∧ (second.getD c).meters = c.meters ∧ (second.getD c).injectors = c.injectors := by
    rw [hsecond]
    exact State.readArea_kept.2 rfl
  have hkeptM : c.station = Settings.default.station := by
    rw [hc, hfirst]
    exact State.readArea_kept.1 rfl
  have hspecM := State.readArea_spec (s := s) (c := Settings.default) (a := .m) (mixed := s.store.mixedM) (spoiled := a)
  have hspecL := State.readArea_spec (s := s) (c := c) (a := .l) (mixed := s.store.mixedL) (spoiled := b)
  rw [← hfirst, ← Option.isSome_iff_exists] at hspecM
  rw [← hsecond, ← Option.isSome_iff_exists, Settings.withArea_l_rulesHold] at hspecL
  rw [hload]
  dsimp only
  refine ⟨?_, ?_, fun h p hp slot hslot => ?_, fun h p hp slot hslot => ?_, fun h => ?_, fun h => ?_⟩
  · rw [hspecM]
    constructor
    · rintro ⟨hspoiled, hmixed, hrange, hrule, hcrc⟩
      obtain ⟨hrates, hcurves, hsets⟩ := (Settings.withArea_rulesHold hrange).mp hrule
      exact ⟨hspoiled, hmixed, hcrc, hrange, hrates, hcurves, hsets⟩
    · rintro ⟨hspoiled, hmixed, hcrc, hrange, hrates, hcurves, hsets⟩
      exact ⟨hspoiled, hmixed, hrange, (Settings.withArea_rulesHold hrange).mpr ⟨hrates, hcurves, hsets⟩, hcrc⟩
  · rw [hspecL]
    exact ⟨fun ⟨hspoiled, hmixed, hrange, _, hcrc⟩ => ⟨hspoiled, hmixed, hcrc, hrange⟩,
      fun ⟨hspoiled, hmixed, hcrc, hrange⟩ => ⟨hspoiled, hmixed, hrange, hrules, hcrc⟩⟩
  · obtain ⟨c', hc'⟩ := Option.isSome_iff_exists.mp h
    obtain ⟨-, -, hrange, -⟩ := hspecM.mp h
    obtain ⟨other, hother, harea⟩ := slotOf_area hp
    rw [hslot, Option.some.injEq] at hother
    subst hother
    obtain ⟨harms, hmeters, hinjectors⟩ := hkeptL
    rw [Settings.get_congr harea harms hmeters hinjectors, hc, hc', Option.getD_some,
      State.readArea_some (hfirst.symm.trans hc')]
    exact Settings.withArea_get hrange hp hslot
  · obtain ⟨c', hc'⟩ := Option.isSome_iff_exists.mp h
    obtain ⟨-, -, hrange, -⟩ := hspecL.mp h
    rw [hc', Option.getD_some, State.readArea_some (hsecond.symm.trans hc')]
    exact Settings.withArea_get hrange hp hslot
  · have hnone : c = Settings.default := by
      rw [hc, Option.isSome_eq_false_iff.mp h |> Option.isNone_iff_eq_none.mp]
      rfl
    rwa [← hnone]
  · rw [Option.isSome_eq_false_iff.mp h |> Option.isNone_iff_eq_none.mp]
    exact hkeptM

end Sys2Proof.Machine
end

section
/-! O48: the effect of a write on its own block (R53, R64, R80, R81, R106, R108). -/

namespace Sys2Proof.Machine

section
variable {s x : State} {p : List Byte} {item index v : Nat} {slot : Slot} {n : ArmId} {m : MeterId}

/-! ## The command -/

/-- A write taken: the slot written, and the reply pending. -/
def State.written (s : State) (v : Nat) (slot : Slot) : State :=
  (Answer.ok ((s.withLink (s.linkReceived false)).writeSlot v slot) []).pend 0x41

/-- The state the effect of a write starts from. -/
def State.toWrite (s : State) (v : Nat) (slot : Slot) : State :=
  (s.withLink (s.linkReceived false)).withSettings (s.settings.put v slot)

theorem State.toWrite_armCfg (s : State) (v : Nat) (n : ArmId) (k : Nat) :
    (s.toWrite v (.arm n k)).armCfg n = (s.armCfg n).setItem v k := Vector.getElem_set_self ..

theorem State.written_fields (s : State) (v : Nat) (slot : Slot) :
    (s.written v slot).loads = ((s.toWrite v slot).writeEffect v slot).loads ∧
    (s.written v slot).arms = ((s.toWrite v slot).writeEffect v slot).arms ∧
    (s.written v slot).meters = ((s.toWrite v slot).writeEffect v slot).meters := ⟨rfl, rfl, rfl⟩

theorem exec_writeSetting (hs : s.Accepts) (hp : p.length = 7) : exec (.writeSetting p) s =
    .next (((s.withLink (s.linkReceived false)).answerWriteSetting p).pend 0x41) := by
  show execWriteSetting p s = _
  rw [execWriteSetting, fitsLength_of_length hp, State.takeRequest_accepted hs (frameExists_of_length hp (by decide)),
    State.receiveGood_eq]

theorem State.answerWriteSetting_taken (hslot : slotOf (fieldAt p 0 2) (fieldAt p 2 1) = some slot)
    (hrange : itemInRange (fieldAt p 0 2) (fieldAt p 2 1) (fieldAt p 3 4) = true)
    (hfixed : ¬ (fieldAt p 0 2 = 80 ∧ fieldAt p 2 1 = 11)) (hsave : s.store.save = none)
    (huse : s.slotInUse (fieldAt p 3 4) slot = false)
    (hrule : (s.settings.put (fieldAt p 3 4) slot).ruleHolds slot = true) :
    s.answerWriteSetting p = .ok (s.writeSlot (fieldAt p 3 4) slot) [] := by
  have hfixed' : (fieldAt p 0 2 == 80 && fieldAt p 2 1 == 11) = false := by
    rw [Bool.eq_false_iff, ne_eq, Bool.and_eq_true, beq_iff_eq, beq_iff_eq]
    exact hfixed
  simp [State.answerWriteSetting, hslot, hrange, hfixed', hsave, huse, hrule]

theorem exec_writeSetting_taken (hs : s.Accepts) (hp : p.length = 7) (hitem : item = fieldAt p 0 2)
    (hindex : index = fieldAt p 2 1) (hv : v = fieldAt p 3 4) (hslot : slotOf item index = some slot)
    (hrange : itemInRange item index v = true) (hfixed : ¬ (item = 80 ∧ index = 11)) (hsave : s.store.save = none)
    (huse : s.slotInUse v slot = false) (hrule : (s.settings.put v slot).ruleHolds slot = true) :
    exec (.writeSetting p) s = .next (s.written v slot) := by
  subst hitem hindex hv
  rw [exec_writeSetting hs hp, State.answerWriteSetting_taken (s := s.withLink (s.linkReceived false)) hslot hrange hfixed hsave
    huse hrule]
  rfl

/-! ## An arm or a meter without a live record -/

/-- An arm all of whose records are ENDED has none to promote. -/
theorem State.promote_of_quiet (h : s.armLive n = false) : s.promote n = s := by
  refine State.promote_none (Or.inr (List.find?_eq_none.mpr fun l hl hstaged => ?_))
  rw [State.armLive, List.any_eq_false] at h
  rw [Bool.and_eq_true, beq_iff_eq, beq_iff_eq] at hstaged
  exact h l hl (by simp [hstaged.1, hstaged.2])

theorem State.modArm_arms (s : State) (n : ArmId) (f : ArmSeq → ArmSeq) :
    (s.modArm n f).arms = s.arms.set n (f (s.arm n)) := rfl

theorem State.opened_arms (s : State) (n : ArmId) : (s.opened n).arms = s.arms.set n { s.arm n with
    mode := .available, checkTimer := none, sampleClock := some (s.now + (s.armCfg n).period / 2) } := by
  rw [State.opened, State.restartClock, State.modArm_arms, State.modArm_arms, State.modArm_arm_self]
  exact Vector.set_set ..

theorem State.enterChecking_quiet (h : s.armLive n = false) :
    (s.enterChecking n).loads = s.loads ∧ (s.enterChecking n).meters = s.meters ∧
    (s.channelsReady n = false → (s.enterChecking n).arms =
      s.arms.set n { s.arm n with mode := .checking, checkTimer := some (s.now + 30000) }) ∧
    (s.channelsReady n = true → (s.enterChecking n).arms = s.arms.set n { s.arm n with
      mode := .available, checkTimer := none, sampleClock := some (s.now + (s.armCfg n).period / 2) }) := by
  rw [State.enterChecking]
  split
  · rename_i hready
    rw [State.becomeAvailable_eq, State.promote_of_quiet (s := s.opened n) h]
    exact ⟨rfl, rfl, fun hno => (by rw [hready] at hno; cases hno), fun _ => s.opened_arms n⟩
  · rename_i hready
    exact ⟨rfl, rfl, fun _ => rfl, fun hyes => absurd hyes hready⟩

/-- The in-service setting written at an arm without a live record (R80, R81). -/
theorem State.wroteInService_quiet (h : s.armLive n = false) (hv : v ≤ 1) :
    (s.wroteInService n v).loads = s.loads ∧ (s.wroteInService n v).meters = s.meters ∧
    (v = 0 → (s.arm n).mode ≠ .outOfService → (s.wroteInService n v).arms = s.arms.set n { s.arm n with
      mode := .outOfService, checkTimer := none, sampleClock := none, valve := .close, qGas := 0, qEth := 0 }) ∧
    (v = 1 → (s.arm n).mode = .outOfService → s.isRunning = true → (s.wroteInService n v).arms = (s.enterChecking n).arms) ∧
    (v = 0 ∧ (s.arm n).mode = .outOfService ∨ v = 1 ∧ ((s.arm n).mode ≠ .outOfService ∨ s.isRunning = false) →
      (s.wroteInService n v).arms = s.arms) := by
  obtain ⟨hloads, hmeters, -⟩ := State.enterChecking_quiet h
  rw [State.wroteInService]
  obtain rfl | rfl : v = 0 ∨ v = 1 := by omega
  · rw [if_neg (by decide)]
    by_cases hmode : (s.arm n).mode = .outOfService
    · rw [if_pos hmode]
      exact ⟨rfl, rfl, fun _ hno => absurd hmode hno, nofun, fun _ => rfl⟩
    · rw [if_neg hmode]
      exact ⟨rfl, rfl, fun _ _ => rfl, nofun, by rintro (⟨-, hout⟩ | ⟨hone, -⟩); exacts [absurd hout hmode, nomatch hone]⟩
  · rw [if_pos rfl]
    by_cases hgo : (s.isRunning && (s.arm n).mode == .outOfService) = true
    · rw [if_pos hgo]
      rw [Bool.and_eq_true, beq_iff_eq] at hgo
      refine ⟨hloads, hmeters, nofun, fun _ _ _ => rfl, ?_⟩
      rintro (⟨hzero, -⟩ | ⟨-, hmode | hrun⟩)
      · cases hzero
      · exact absurd hgo.2 hmode
      · rw [hgo.1] at hrun
        cases hrun
    · rw [if_neg hgo]
      refine ⟨rfl, rfl, nofun, fun _ hmode hrun => absurd ?_ hgo, fun _ => rfl⟩
      rw [hrun, hmode]
      rfl

/-! ## A write taken at an arm or at a meter -/

section
variable (hs : s.Accepts) (hp : p.length = 7) (hitem : item = fieldAt p 0 2) (hv : v = fieldAt p 3 4)
    (hsave : s.store.save = none)
include hs hp hitem hv hsave

/-- A write that no rule between items binds is taken at an arm without a live record (R29, R198). -/
theorem exec_writeSetting_arm (hindex : fieldAt p 2 1 = armNumber n) (hlive : s.armLive n = false)
    (htable : 1 ≤ item ∧ item ≤ 19) (hrates : ¬ (item = 3 ∨ item = 4))
    (hrange : itemInRange item (armNumber n) v = true) : exec (.writeSetting p) s = .next (s.written v (.arm n item)) :=
  exec_writeSetting_taken hs hp hitem hindex.symm hv (slotOf_place (slot := .arm n item) htable) hrange (by omega) hsave hlive
    (if_neg hrates)

theorem exec_writeSetting_meter (hindex : fieldAt p 2 1 = m.val + 1) (hlive : s.armLive (meterArm m) = false)
    (htable : 30 ≤ item ∧ item ≤ 43) (hcurve : ¬ (35 ≤ item ∧ item ≤ 38))
    (hrange : itemInRange item (m.val + 1) v = true) : exec (.writeSetting p) s = .next (s.written v (.meter m item)) :=
  exec_writeSetting_taken hs hp hitem hindex.symm hv (slotOf_place (slot := .meter m item) htable) hrange (by omega) hsave hlive
    (if_neg hcurve)

end

theorem State.isRunning_iff (s : State) : s.isRunning = true ↔ s.store.mode = .running := by
  rw [State.isRunning]
  cases s.store.mode <;> simp

end

/-- Settles O48. -/
theorem writesActOnTheirBlock : Obligations.WritesActOnTheirBlock := by
  intro p n m item v s hs hp hitem hv hsave harm hmeter
  refine ⟨fun hindex => ⟨?_, ?_, ?_⟩, fun hindex => ⟨?_, ?_, ?_⟩⟩
  · rintro rfl hle
    have hexec := exec_writeSetting_arm hs hp hitem hv hsave hindex harm (by omega) (by omega) (within_iff.mpr ⟨by omega, hle⟩)
    obtain ⟨hloads, harms, hmeters⟩ := s.written_fields v (.arm n 1)
    obtain ⟨x, hx⟩ : ∃ x, x = s.toWrite v (.arm n 1) := ⟨_, rfl⟩
    have heffect : x.writeEffect v (.arm n 1) = x.wroteInService n v := rfl
    have hxarm : x.armLive n = false := by rw [hx]; exact harm
    have hxn : x.arm n = s.arm n := by rw [hx]; rfl
    have hxarms : x.arms = s.arms := by rw [hx]; rfl
    have hxrun : x.isRunning = s.isRunning := by rw [hx]; rfl
    obtain ⟨hkeptLoads, hkeptMeters, hleaves, henters, hstays⟩ := State.wroteInService_quiet hxarm hle
    obtain ⟨-, -, hchecking, havailable⟩ := State.enterChecking_quiet hxarm
    rw [← hx, heffect] at hloads harms hmeters
    rw [hxn, hxarms] at hleaves hstays
    rw [hxn] at henters
    rw [hxn, hxarms] at hchecking havailable
    rw [hxrun] at henters hstays
    refine ⟨_, hexec, ?_, ?_, fun hzero hmode => harms.trans (hleaves hzero hmode),
      fun hone hmode hrun => ⟨fun hready => ?_, fun hready => ?_⟩, fun hsame => harms.trans (hstays ?_)⟩
    · rw [hloads, hkeptLoads, hx]
      rfl
    · rw [hmeters, hkeptMeters, hx]
      rfl
    · rw [harms, henters hone hmode (s.isRunning_iff.mpr hrun), hchecking (by rw [hx]; exact hready), hx]
      rfl
    · rw [harms, henters hone hmode (s.isRunning_iff.mpr hrun), havailable (by rw [hx]; exact hready), hx,
        State.toWrite_armCfg]
      rfl
    · refine hsame.imp_right fun ⟨hone, hno⟩ => ⟨hone, hno.imp_right fun hunconf => ?_⟩
      rw [Bool.eq_false_iff, ne_eq, State.isRunning_iff, hunconf]
      decide
  · rintro rfl hvalue
    have hrange : itemInRange 2 (armNumber n) v = true := by
      rcases hvalue with rfl | rfl | rfl | rfl <;> rfl
    have hexec := exec_writeSetting_arm hs hp hitem hv hsave hindex harm (by omega) (by omega) hrange
    obtain ⟨hloads, harms, hmeters⟩ := s.written_fields v (.arm n 2)
    have heffect : (s.toWrite v (.arm n 2)).writeEffect v (.arm n 2) =
        if (s.arm n).mode = .available then (s.toWrite v (.arm n 2)).restartClock n else s.toWrite v (.arm n 2) := rfl
    have hclock : ((s.toWrite v (.arm n 2)).restartClock n).arms =
        s.arms.set n { s.arm n with sampleClock := some (s.now + v / 2) } := by
      rw [State.restartClock, State.toWrite_armCfg]
      rfl
    rw [heffect] at hloads harms hmeters
    refine ⟨_, hexec, ?_, ?_, ?_⟩
    · rw [hloads]
      split <;> rfl
    · rw [hmeters]
      split <;> rfl
    · rw [harms]
      split
      · exact hclock
      · rfl
  · rintro rfl hle
    have hexec := exec_writeSetting_arm hs hp hitem hv hsave hindex harm (by omega) (by omega) (within_iff.mpr ⟨by omega, hle⟩)
    exact ⟨_, hexec, rfl, rfl, rfl⟩
  · rintro rfl hle
    have hexec := exec_writeSetting_meter hs hp hitem hv hsave hindex hmeter (by omega) (by omega) (within_iff.mpr ⟨by omega, hle⟩)
    exact ⟨_, hexec, rfl, rfl, rfl⟩
  · rintro (⟨rfl, hlo, hhi⟩ | ⟨rfl, hlo, hhi⟩)
    · have hexec := exec_writeSetting_meter hs hp hitem hv hsave hindex hmeter (by omega) (by omega) (within_iff.mpr ⟨hlo, hhi⟩)
      exact ⟨_, hexec, rfl, rfl, rfl⟩
    · have hexec := exec_writeSetting_meter hs hp hitem hv hsave hindex hmeter (by omega) (by omega) (within_iff.mpr ⟨hlo, hhi⟩)
      exact ⟨_, hexec, rfl, rfl, rfl⟩
  · rintro rfl hlo hhi
    have hexec := exec_writeSetting_meter hs hp hitem hv hsave hindex hmeter (by omega) (by omega) (within_iff.mpr ⟨hlo, hhi⟩)
    exact ⟨_, hexec, rfl, rfl, rfl⟩

end Sys2Proof.Machine
end

section
/-! O47: WRITE SETTING, its checks item by item, and what a write leaves unchanged (R198, R201). -/

namespace Sys2Proof.Machine

section
variable {s : State} {p : List Byte} {item index v : Nat} {slot : Slot}

/-! ## The scope and the range of an item (R201) -/

theorem slotOf_isSome_iff : (∃ slot, slotOf item index = some slot) ↔
    (1 ≤ item ∧ item ≤ 19 ∧ 1 ≤ index ∧ index ≤ 8) ∨ (30 ≤ item ∧ item ≤ 43 ∧ 1 ≤ index ∧ index ≤ 16) ∨
      (50 ≤ item ∧ item ≤ 57 ∧ 1 ≤ index ∧ index ≤ 12) ∨ (70 ≤ item ∧ item ≤ 76 ∧ index = 0) ∨
      (item = 80 ∧ 1 ≤ index ∧ index ≤ 11) := by
  constructor
  · rintro ⟨slot, h⟩
    obtain ⟨hplace, htable⟩ := slotOf_spec h
    cases slot with
    | arm n k | meter n k | injector n k | alarmClass n =>
      obtain ⟨rfl, rfl⟩ := Prod.mk.inj hplace
      simp only [Slot.inTable] at htable
      omega
    | station k =>
      obtain ⟨rfl, rfl⟩ := Prod.mk.inj hplace
      simp only [Slot.inTable] at htable
      omega
  · rintro (⟨h1, h2, h3, h4⟩ | ⟨h1, h2, h3, h4⟩ | ⟨h1, h2, h3, h4⟩ | ⟨h1, h2, h3⟩ | ⟨rfl, h3, h4⟩)
    · exact ⟨_, by rw [slotOf_arm ⟨h1, h2⟩, dif_pos ⟨h3, h4⟩]⟩
    · exact ⟨_, by rw [slotOf_meter ⟨h1, h2⟩, dif_pos ⟨h3, h4⟩]⟩
    · exact ⟨_, by rw [slotOf_injector ⟨h1, h2⟩, dif_pos ⟨h3, h4⟩]⟩
    · exact ⟨_, by rw [slotOf_station ⟨h1, h2⟩, if_pos h3]⟩
    · exact ⟨_, by rw [slotOf_kind, dif_pos ⟨h3, h4⟩]⟩

/-- The items whose range is a list of values, or has a value apart. -/
def listedValues : List (Nat × Nat) :=
  [(2, 50), (2, 100), (2, 200), (2, 250), (70, 0), (73, 9600), (73, 19200), (73, 38400), (73, 57600), (73, 115200), (75, 0)]

/-- The ranges of R201 from a lowest to a highest value. -/
def rangeTable : List (Nat × Nat × Nat) :=
  [(1, 0, 1), (3, 50, 1000), (4, 200, 4000), (5, 10, 1000),
    (6, 20, 2000), (7, 1, 10), (8, 0, 10), (9, 2, 60), (10, 0, 50), (11, 0, 100), (12, 1, 50), (13, 20, 3000),
    (14, 2, 60), (15, 0, 1000), (16, 0, 20), (17, 1, 30), (18, 0, 5000), (19, 5, 60), (30, 0, 1), (31, 1, 10000),
    (32, 100, 10000), (33, 1, 50), (34, 1000, 9999999), (35, 0, 5000), (36, 0, 5000), (37, 0, 5000),
    (38, 0, 5000), (39, 9000, 11000), (40, 9000, 11000), (41, 9000, 11000), (42, 9000, 11000), (43, 500, 1500),
    (50, 0, 8), (51, 1, 8), (52, 10, 500), (53, 100, 2000), (54, 50, 1000), (55, 1, 10000), (56, 0, 50),
    (57, 1, 10), (70, 1, 60), (71, 2, 60), (72, 0, 6000), (74, 1, 31), (75, 5, 300), (76, 1, 2), (80, 1, 3)]

/-- Each range of the table admits its values; kind 11 is fixed at 1 (R167). -/
theorem itemInRange_of_table {lo hi : Nat} (h : (item, lo, hi) ∈ rangeTable) (hv : lo ≤ v ∧ v ≤ hi)
    (hfixed : ¬ (item = 80 ∧ index = 11 ∧ v ≠ 1)) : itemInRange item index v = true := by
  obtain ⟨row, hrow⟩ : ∃ row : Nat × Nat × Nat, row = (item, lo, hi) := ⟨_, rfl⟩
  rw [← hrow] at h
  simp only [Prod.ext_iff] at hrow
  obtain ⟨rfl, rfl, rfl⟩ := hrow
  fin_cases h
  any_goals exact within_iff.mpr ⟨le_trans (by decide) hv.1, hv.2⟩
  · exact (Bool.or_eq_true _ _).mpr (Or.inr (within_iff.mpr hv))
  · show (if index = 11 then v == 1 else within 1 3 v) = true
    split
    · rename_i hindex
      exact beq_iff_eq.mpr (by_contra fun hv => hfixed ⟨rfl, hindex, hv⟩)
    · exact within_iff.mpr hv

theorem itemInRange_of_listed (h : (item, v) ∈ listedValues) : itemInRange item index v = true := by
  simp only [listedValues, List.mem_cons, Prod.mk.injEq, List.not_mem_nil, or_false] at h
  rcases h with ⟨rfl, rfl⟩ | ⟨rfl, rfl⟩ | ⟨rfl, rfl⟩ | ⟨rfl, rfl⟩ | ⟨rfl, rfl⟩ | ⟨rfl, rfl⟩ | ⟨rfl, rfl⟩ | ⟨rfl, rfl⟩ |
    ⟨rfl, rfl⟩ | ⟨rfl, rfl⟩ | ⟨rfl, rfl⟩ <;> rfl

theorem table_of_itemInRange (h : itemInRange item index v = true) :
    (item, v) ∈ listedValues ∨ ∃ lo hi, lo ≤ v ∧ v ≤ hi ∧ (item, lo, hi) ∈ rangeTable := by
  have hrow {lo hi : Nat} (hin : within lo hi v = true) (hmem : (item, lo, hi) ∈ rangeTable) :
      (item, v) ∈ listedValues ∨ ∃ lo hi, lo ≤ v ∧ v ≤ hi ∧ (item, lo, hi) ∈ rangeTable :=
    Or.inr ⟨lo, hi, (within_iff.mp hin).1, (within_iff.mp hin).2, hmem⟩
  by_cases h70 : item = 70
  · subst h70
    obtain ⟨-, hhi⟩ := within_iff.mp h
    by_cases hzero : v = 0
    · exact Or.inl (by rw [hzero]; decide)
    · exact Or.inr ⟨1, 60, Nat.one_le_iff_ne_zero.mpr hzero, hhi, by decide⟩
  unfold itemInRange at h
  split at h
  any_goals contradiction
  any_goals exact hrow h (by decide)
  · simp only [Bool.or_eq_true, beq_iff_eq] at h
    rcases h with ((rfl | rfl) | rfl) | rfl <;> exact Or.inl (by decide)
  · simp only [Bool.or_eq_true, beq_iff_eq] at h
    rcases h with (((rfl | rfl) | rfl) | rfl) | rfl <;> exact Or.inl (by decide)
  · rw [Bool.or_eq_true, beq_iff_eq] at h
    rcases h with rfl | h
    · exact Or.inl (by decide)
    · exact hrow h (by decide)
  · split at h
    · rw [beq_iff_eq] at h
      exact Or.inr ⟨1, 3, h.ge, by omega, by decide⟩
    · exact hrow h (by decide)

/-- A value lies in its item's range by the table of R201. -/
theorem itemInRange_iff : itemInRange item index v = true ↔
    ((item, v) ∈ listedValues ∨ ∃ lo hi, lo ≤ v ∧ v ≤ hi ∧ (item, lo, hi) ∈ rangeTable) ∧
      ¬ (item = 80 ∧ index = 11 ∧ v ≠ 1) := by
  refine ⟨fun h => ⟨table_of_itemInRange h, ?_⟩, fun ⟨h, hfixed⟩ => ?_⟩
  · rintro ⟨rfl, rfl, hv⟩
    exact hv (beq_iff_eq.mp h)
  · rcases h with h | ⟨lo, hi, hlo, hhi, h⟩
    · exact itemInRange_of_listed h
    · exact itemInRange_of_table h ⟨hlo, hhi⟩ hfixed

/-! ## An item in use (R29, R141, R145, R167) -/

/-- An arm's number has a record that is not ENDED. -/
def State.Live (s : State) (k : Nat) : Prop := ∃ l ∈ s.loads, l.arm.val + 1 = k ∧ l.state ≠ .ended

theorem State.armLive_iff (s : State) (n : ArmId) : s.armLive n = true ↔ s.Live (armNumber n) := by
  simp only [State.armLive, State.Live, List.any_eq_true, Bool.and_eq_true, beq_iff_eq, bne_iff_ne, armNumber,
    Nat.add_right_cancel_iff, Fin.ext_iff]

theorem State.liveNumbered_iff (s : State) (k : Nat) : s.liveNumbered k = true ↔ s.Live k := by
  rw [State.liveNumbered]
  by_cases hk : 1 ≤ k ∧ k ≤ 8
  · rw [armNumbered, dif_pos hk, State.armLive_iff, armNumber, Nat.sub_add_cancel hk.1]
  · rw [armNumbered, dif_neg hk]
    refine ⟨nofun, fun ⟨l, _, hl, _⟩ => absurd ?_ hk⟩
    omega

theorem State.anyActive_iff (s : State) :
    s.anyActive = true ↔ ∃ l ∈ s.loads, l.state = .ready ∨ l.state = .delivering ∨ l.state = .held := by
  simp only [State.anyActive, List.any_eq_true, Load.isActive_iff]

theorem State.headerInUse_iff (s : State) :
    s.headerInUse = true ↔ (∃ n : ArmId, (s.resv n).level ≠ .none) ∨ s.queue ≠ [] := by
  simp [State.headerInUse, List.any_eq_true, mem_allArms]

/-- The check of an item in use, item by item. -/
def State.ItemInUse (s : State) (item index v : Nat) : Prop :=
  (item ≤ 19 ∧ s.Live index) ∨ (30 ≤ item ∧ item ≤ 43 ∧ s.Live ((index + 1) / 2)) ∨
    (∃ i : InjId, 50 ≤ item ∧ item ≤ 57 ∧ i.val + 1 = index ∧
      (s.Live (s.injCfg i).arm ∨ (item = 50 ∧ s.Live v) ∨ (s.injector i).stroke ≠ none)) ∨
    (item = 72 ∧ ((∃ n : ArmId, (s.resv n).level ≠ .none) ∨ s.queue ≠ [])) ∨
    (item = 80 ∧ ∃ l ∈ s.loads, l.state = .ready ∨ l.state = .delivering ∨ l.state = .held)

theorem State.slotInUse_iff (h : slotOf item index = some slot) : s.slotInUse v slot = true ↔ s.ItemInUse item index v := by
  obtain ⟨hplace, htable⟩ := slotOf_spec h
  rw [State.ItemInUse]
  cases slot with
  | arm n k =>
    obtain ⟨rfl, rfl⟩ := Prod.mk.inj hplace
    rw [State.slotInUse, State.armLive_iff]
    simp only [Slot.inTable] at htable
    refine ⟨fun hlive => Or.inl ⟨htable.2, hlive⟩, ?_⟩
    rintro (⟨-, hlive⟩ | ⟨hlo, -⟩ | ⟨i, hlo, -⟩ | ⟨hlo, -⟩ | ⟨hlo, -⟩)
    · exact hlive
    all_goals omega
  | meter m k =>
    obtain ⟨rfl, rfl⟩ := Prod.mk.inj hplace
    have hnumber : armNumber (meterArm m) = (m.val + 1 + 1) / 2 := by
      rw [armNumber, meterArm]
      simp only
      omega
    rw [State.slotInUse, State.armLive_iff, hnumber]
    simp only [Slot.inTable] at htable
    refine ⟨fun hlive => Or.inr (Or.inl ⟨htable.1, htable.2, hlive⟩), ?_⟩
    rintro (⟨hhi, -⟩ | ⟨-, -, hlive⟩ | ⟨i, hlo, -⟩ | ⟨hlo, -⟩ | ⟨hlo, -⟩)
    · omega
    · exact hlive
    all_goals omega
  | injector i k =>
    obtain ⟨rfl, rfl⟩ := Prod.mk.inj hplace
    rw [State.slotInUse, Bool.or_eq_true, Bool.or_eq_true, Bool.and_eq_true, beq_iff_eq, State.liveNumbered_iff,
      State.liveNumbered_iff, Option.isSome_iff_ne_none, or_assoc]
    simp only [Slot.inTable] at htable
    refine ⟨fun hlive => Or.inr (Or.inr (Or.inl ⟨i, htable.1, htable.2, rfl, hlive⟩)), ?_⟩
    rintro (⟨hhi, -⟩ | ⟨hlo, hhi, -⟩ | ⟨j, -, -, hj, hlive⟩ | ⟨hlo, -⟩ | ⟨hlo, -⟩)
    · omega
    · omega
    · rwa [Fin.ext (Nat.add_right_cancel hj)] at hlive
    all_goals omega
  | station k =>
    obtain ⟨rfl, rfl⟩ := Prod.mk.inj hplace
    rw [State.slotInUse, Bool.and_eq_true, beq_iff_eq, State.headerInUse_iff]
    simp only [Slot.inTable] at htable
    refine ⟨fun hlive => Or.inr (Or.inr (Or.inr (Or.inl hlive))), ?_⟩
    rintro (⟨hhi, -⟩ | ⟨hlo, hhi, -⟩ | ⟨i, hlo, hhi, -⟩ | hlive | ⟨hlo, -⟩)
    · omega
    · omega
    · omega
    · exact hlive
    · omega
  | alarmClass k =>
    obtain ⟨rfl, rfl⟩ := Prod.mk.inj hplace
    rw [State.slotInUse, State.anyActive_iff]
    refine ⟨fun hlive => Or.inr (Or.inr (Or.inr (Or.inr ⟨rfl, hlive⟩))), ?_⟩
    rintro (⟨hhi, -⟩ | ⟨hlo, hhi, -⟩ | ⟨i, hlo, hhi, -⟩ | ⟨hlo, -⟩ | ⟨-, hlive⟩)
    · omega
    · omega
    · omega
    · omega
    · exact hlive

/-! ## The rules between items (R68, R108, R145) -/

/-- The injectors that a map of arms puts on an arm, in injector order. -/
def injectorsOn (arm : InjId → Nat) (k : Nat) : List InjId := allInjectors.filter fun j => arm j = k

/-- The check of the rules between items, item by item. -/
def State.RuleKept (s : State) (item index v : Nat) : Prop :=
  (∀ n : ArmId, armNumber n = index → (item = 3 → v ≤ (s.armCfg n).highRate) ∧
    (item = 4 → (s.armCfg n).lowRate ≤ v)) ∧
  (∀ m : MeterId, m.val + 1 = index →
    (item = 35 → v < (s.meterCfg m).q2 ∧ (s.meterCfg m).q2 < (s.meterCfg m).q3 ∧ (s.meterCfg m).q3 < (s.meterCfg m).q4) ∧
    (item = 36 → (s.meterCfg m).q1 < v ∧ v < (s.meterCfg m).q3 ∧ (s.meterCfg m).q3 < (s.meterCfg m).q4) ∧
    (item = 37 → (s.meterCfg m).q1 < (s.meterCfg m).q2 ∧ (s.meterCfg m).q2 < v ∧ v < (s.meterCfg m).q4) ∧
    (item = 38 → (s.meterCfg m).q1 < (s.meterCfg m).q2 ∧ (s.meterCfg m).q2 < (s.meterCfg m).q3 ∧
      (s.meterCfg m).q3 < v)) ∧
  (∀ i : InjId, i.val + 1 = index →
    (item = 50 → v ≠ 0 → (injectorsOn (fun j => if j = i then v else (s.injCfg j).arm) v).length ≤ 3 ∧
      ((injectorsOn (fun j => if j = i then v else (s.injCfg j).arm) v).map fun j => (s.injCfg j).code).Nodup) ∧
    (item = 51 → (s.injCfg i).arm ≠ 0 → (injectorsOn (fun j => (s.injCfg j).arm) (s.injCfg i).arm).length ≤ 3 ∧
      ((injectorsOn (fun j => (s.injCfg j).arm) (s.injCfg i).arm).map fun j =>
        if j = i then v else (s.injCfg j).code).Nodup))

theorem Settings.injectorSetOk_iff (c : Settings) (k : Nat) : c.injectorSetOk k = true ↔ (k ≠ 0 →
    (injectorsOn (fun j => c.injectors[j].arm) k).length ≤ 3 ∧
      ((injectorsOn (fun j => c.injectors[j].arm) k).map fun j => c.injectors[j].code).Nodup) := by
  rw [Settings.injectorSetOk, Bool.or_eq_true, beq_iff_eq, Bool.and_eq_true, decide_eq_true_iff, noRepeat_iff,
    Settings.setCodes, List.length_map, or_iff_not_imp_left]
  rfl

theorem State.ruleHolds_arm (s : State) (n : ArmId) (k v : Nat) : (s.settings.put v (.arm n k)).ruleHolds (.arm n k) =
    if k = 3 ∨ k = 4 then ((s.armCfg n).setItem v k).ratesOrdered else true := by
  have hget : (s.settings.put v (.arm n k)).arms[n] = (s.armCfg n).setItem v k := Vector.getElem_set_self ..
  rw [Settings.ruleHolds, hget]

theorem State.ruleHolds_meter (s : State) (m : MeterId) (k v : Nat) :
    (s.settings.put v (.meter m k)).ruleHolds (.meter m k) =
      if 35 ≤ k ∧ k ≤ 38 then ((s.meterCfg m).setItem v k).ascending else true := by
  have hget : (s.settings.put v (.meter m k)).meters[m] = (s.meterCfg m).setItem v k := Vector.getElem_set_self ..
  rw [Settings.ruleHolds, hget]

theorem State.put_injector (s : State) (i j : InjId) (k v : Nat) : (s.settings.put v (.injector i k)).injectors[j] =
    if j = i then (s.injCfg i).setItem v k else s.injCfg j := by
  by_cases hj : j = i
  · rw [hj, if_pos rfl]
    exact Vector.getElem_set_self ..
  · rw [if_neg hj]
    exact Vector.getElem_set_ne i.isLt j.isLt fun hv => hj (Fin.ext hv.symm)

theorem State.ruleHolds_injector (s : State) (i : InjId) (k v : Nat) :
    (s.settings.put v (.injector i k)).ruleHolds (.injector i k) = true ↔ (k = 50 → v ≠ 0 →
      (injectorsOn (fun j => if j = i then v else (s.injCfg j).arm) v).length ≤ 3 ∧
        ((injectorsOn (fun j => if j = i then v else (s.injCfg j).arm) v).map fun j => (s.injCfg j).code).Nodup) ∧
      (k = 51 → (s.injCfg i).arm ≠ 0 → (injectorsOn (fun j => (s.injCfg j).arm) (s.injCfg i).arm).length ≤ 3 ∧
        ((injectorsOn (fun j => (s.injCfg j).arm) (s.injCfg i).arm).map fun j =>
          if j = i then v else (s.injCfg j).code).Nodup) := by
  have hput := s.put_injector i
  rw [Settings.ruleHolds]
  by_cases h50 : k = 50
  · subst h50
    have harm (j : InjId) : (s.settings.put v (.injector i 50)).injectors[j].arm = if j = i then v else (s.injCfg j).arm := by
      rw [hput]
      split <;> rfl
    have hcode (j : InjId) : (s.settings.put v (.injector i 50)).injectors[j].code = (s.injCfg j).code := by
      rw [hput]
      split
      · rename_i hj
        rw [hj]
        rfl
      · rfl
    rw [if_pos (Or.inl rfl), Settings.injectorSetOk_iff]
    simp only [harm, hcode, if_true, forall_true_left, Nat.reduceEqDiff, false_implies, and_true]
  · by_cases h51 : k = 51
    · subst h51
      have harm (j : InjId) : (s.settings.put v (.injector i 51)).injectors[j].arm = (s.injCfg j).arm := by
        rw [hput]
        split
        · rename_i hj
          rw [hj]
          rfl
        · rfl
      have hcode (j : InjId) :
          (s.settings.put v (.injector i 51)).injectors[j].code = if j = i then v else (s.injCfg j).code := by
        rw [hput]
        split <;> rfl
      rw [if_pos (Or.inr rfl), Settings.injectorSetOk_iff]
      simp only [harm, hcode, forall_true_left, Nat.reduceEqDiff, false_implies, true_and]
    · rw [if_neg (by omega)]
      simp [h50, h51]

theorem State.ruleHolds_iff (h : slotOf item index = some slot) :
    (s.settings.put v slot).ruleHolds slot = true ↔ s.RuleKept item index v := by
  obtain ⟨hplace, htable⟩ := slotOf_spec h
  rw [State.RuleKept]
  cases slot with
  | arm n k =>
    obtain ⟨rfl, rfl⟩ := Prod.mk.inj hplace
    simp only [Slot.inTable] at htable
    have hrates : (s.settings.put v (.arm n k)).ruleHolds (.arm n k) = true ↔
        (k = 3 → v ≤ (s.armCfg n).highRate) ∧ (k = 4 → (s.armCfg n).lowRate ≤ v) := by
      rw [State.ruleHolds_arm]
      by_cases h3 : k = 3
      · subst h3
        simp [ArmSettings.ratesOrdered, ArmSettings.setItem]
      · by_cases h4 : k = 4
        · subst h4
          simp [ArmSettings.ratesOrdered, ArmSettings.setItem]
        · simp [h3, h4]
    rw [hrates]
    refine ⟨fun hr => ⟨fun n' hn => ?_, fun m _ => ⟨fun hk => ?_, fun hk => ?_, fun hk => ?_, fun hk => ?_⟩,
      fun i _ => ⟨fun hk => absurd hk (by omega), fun hk => absurd hk (by omega)⟩⟩, fun ⟨hr, _⟩ => hr n rfl⟩
    · rwa [show n' = n from Fin.ext (Nat.add_right_cancel hn)]
    all_goals omega
  | meter m k =>
    obtain ⟨rfl, rfl⟩ := Prod.mk.inj hplace
    simp only [Slot.inTable] at htable
    have hcurve : (s.settings.put v (.meter m k)).ruleHolds (.meter m k) = true ↔
        (k = 35 → v < (s.meterCfg m).q2 ∧ (s.meterCfg m).q2 < (s.meterCfg m).q3 ∧ (s.meterCfg m).q3 < (s.meterCfg m).q4) ∧
        (k = 36 → (s.meterCfg m).q1 < v ∧ v < (s.meterCfg m).q3 ∧ (s.meterCfg m).q3 < (s.meterCfg m).q4) ∧
        (k = 37 → (s.meterCfg m).q1 < (s.meterCfg m).q2 ∧ (s.meterCfg m).q2 < v ∧ v < (s.meterCfg m).q4) ∧
        (k = 38 → (s.meterCfg m).q1 < (s.meterCfg m).q2 ∧ (s.meterCfg m).q2 < (s.meterCfg m).q3 ∧
          (s.meterCfg m).q3 < v) := by
      rw [State.ruleHolds_meter]
      by_cases hk : 35 ≤ k ∧ k ≤ 38
      · rw [if_pos hk]
        obtain ⟨hlo, hhi⟩ := hk
        interval_cases k <;> simp [MeterSettings.ascending, MeterSettings.setItem]
      · rw [if_neg hk]
        refine ⟨fun _ => ⟨fun h => ?_, fun h => ?_, fun h => ?_, fun h => ?_⟩, fun _ => rfl⟩
        all_goals omega
    rw [hcurve]
    refine ⟨fun hr => ⟨fun n _ => ⟨fun hk => ?_, fun hk => ?_⟩, fun m' hm => ?_,
      fun i _ => ⟨fun hk => absurd hk (by omega), fun hk => absurd hk (by omega)⟩⟩, fun ⟨_, hr, _⟩ => hr m rfl⟩
    · omega
    · omega
    · rwa [show m' = m from Fin.ext (Nat.add_right_cancel hm)]
  | injector i k =>
    obtain ⟨rfl, rfl⟩ := Prod.mk.inj hplace
    simp only [Slot.inTable] at htable
    rw [State.ruleHolds_injector]
    refine ⟨fun hr => ⟨fun n _ => ⟨fun hk => ?_, fun hk => ?_⟩,
      fun m _ => ⟨fun hk => ?_, fun hk => ?_, fun hk => ?_, fun hk => ?_⟩, fun i' hi => ?_⟩, fun ⟨_, _, hr⟩ => hr i rfl⟩
    case refine_7 => rwa [show i' = i from Fin.ext (Nat.add_right_cancel hi)]
    all_goals omega
  | station k =>
    obtain ⟨rfl, rfl⟩ := Prod.mk.inj hplace
    simp only [Slot.inTable] at htable
    exact ⟨fun _ => ⟨fun _ hn => (nomatch hn), fun _ hm => (nomatch hm), fun _ hi => (nomatch hi)⟩, fun _ => rfl⟩
  | alarmClass k =>
    obtain ⟨rfl, rfl⟩ := Prod.mk.inj hplace
    refine ⟨fun _ => ⟨fun n _ => ⟨nofun, nofun⟩, fun m _ => ⟨nofun, nofun, nofun, nofun⟩, fun i _ => ⟨nofun, nofun⟩⟩,
      fun _ => rfl⟩

end

end Sys2Proof.Machine
end

section
/-! O47: what a write taken leaves unchanged, and its answers in their order (R198). -/

namespace Sys2Proof.Machine

section
variable {s x : State} {p : List Byte} {item index v : Nat} {slot : Slot} {n k : ArmId} {m : MeterId}

/-! ## What the effect of a write leaves -/

theorem State.enterChecking_frame (s : State) (n : ArmId) : s.enterChecking n = { s with
    loads := (s.enterChecking n).loads, arms := (s.enterChecking n).arms } := by
  rw [State.enterChecking]
  split
  · rw [State.becomeAvailable_eq, State.promote_rest]
    rfl
  · rfl

theorem State.enterChecking_arm_ne (s : State) (h : k ≠ n) : (s.enterChecking n).arm k = s.arm k := by
  rw [State.enterChecking]
  split
  · rw [State.becomeAvailable_eq, State.promote_arm, State.opened, State.restartClock, State.modArm_arm, if_neg h,
      State.modArm_arm, if_neg h]
  · rw [State.modArm_arm, if_neg h]

theorem State.wroteInService_frame (s : State) (n : ArmId) (v : Nat) : s.wroteInService n v = { s with
    loads := (s.wroteInService n v).loads, arms := (s.wroteInService n v).arms } := by
  rw [State.wroteInService]
  split
  · split
    · exact s.enterChecking_frame n
    · rfl
  · split <;> rfl

theorem State.wroteInService_arm_ne (s : State) (h : k ≠ n) (v : Nat) : (s.wroteInService n v).arm k = s.arm k := by
  rw [State.wroteInService]
  split
  · split
    · exact s.enterChecking_arm_ne h
    · rfl
  · split
    · rfl
    · rw [State.modArm_arm, if_neg h]

theorem State.writeEffect_frame (x : State) (v : Nat) (slot : Slot) : x.writeEffect v slot = { x with
    link := (x.writeEffect v slot).link, loads := (x.writeEffect v slot).loads, arms := (x.writeEffect v slot).arms
    meters := (x.writeEffect v slot).meters } := by
  rw [State.writeEffect.eq_def]
  split
  · rw [State.wroteInService_frame]
  · split <;> rfl
  all_goals rfl

theorem State.writeEffect_loads (h : slot.place.1 ≠ 1) : (x.writeEffect v slot).loads = x.loads := by
  rw [State.writeEffect.eq_def]
  split
  · exact absurd rfl h
  · split <;> rfl
  all_goals rfl

theorem State.writeEffect_arms (h : slot.place.1 ∉ [1, 2, 10]) : (x.writeEffect v slot).arms = x.arms := by
  rw [State.writeEffect.eq_def]
  split
  · exact absurd (by decide : 1 ∈ [1, 2, 10]) h
  · exact absurd (by decide : 2 ∈ [1, 2, 10]) h
  · exact absurd (by decide : 10 ∈ [1, 2, 10]) h
  all_goals rfl

theorem State.writeEffect_meters (h : slot.place.1 ∉ [30, 32, 33, 34]) : (x.writeEffect v slot).meters = x.meters := by
  rw [State.writeEffect.eq_def]
  split
  · rw [State.wroteInService_frame]
  · split <;> rfl
  · rfl
  · exact absurd (by decide : 30 ∈ [30, 32, 33, 34]) h
  · exact absurd (by decide : 32 ∈ [30, 32, 33, 34]) h
  · exact absurd (by decide : 33 ∈ [30, 32, 33, 34]) h
  · exact absurd (by decide : 34 ∈ [30, 32, 33, 34]) h
  all_goals rfl

theorem State.writeEffect_arm (h : armNumber k ≠ slot.place.2) : (x.writeEffect v slot).arm k = x.arm k := by
  rw [State.writeEffect.eq_def]
  split
  · rename_i n
    exact x.wroteInService_arm_ne (fun hk => h (congrArg armNumber hk)) v
  · rename_i n
    split
    · rw [State.restartClock, State.modArm_arm, if_neg fun hk => h (congrArg armNumber hk)]
    · rfl
  · rename_i n
    rw [State.modArm_arm, if_neg fun hk => h (congrArg armNumber hk)]
  all_goals rfl

/-- The meters after a write: one of them cleared of what its item names. -/
theorem State.writeEffect_meter (x : State) (v : Nat) (slot : Slot) (m : MeterId) :
    (m.val + 1 ≠ slot.place.2 → (x.writeEffect v slot).meter m = x.meter m) ∧
      ((x.writeEffect v slot).meter m).pending = (x.meter m).pending ∧
      ((x.writeEffect v slot).meter m).unassigned = (x.meter m).unassigned := by
  have hmod (i : MeterId) (f : Meter → Meter) (hf : ∀ y, (f y).pending = y.pending ∧ (f y).unassigned = y.unassigned) :
      (m.val + 1 ≠ i.val + 1 → (x.modMeter i f).meter m = x.meter m) ∧
        ((x.modMeter i f).meter m).pending = (x.meter m).pending ∧
        ((x.modMeter i f).meter m).unassigned = (x.meter m).unassigned := by
    rw [State.modMeter_meter]
    split
    · rename_i hm
      subst hm
      exact ⟨fun h => absurd rfl h, hf _⟩
    · exact ⟨fun _ => rfl, rfl, rfl⟩
  have hsame {y : State} (hy : y.meters = x.meters) (j : Nat) : (m.val + 1 ≠ j → y.meter m = x.meter m) ∧
      (y.meter m).pending = (x.meter m).pending ∧ (y.meter m).unassigned = (x.meter m).unassigned := by
    rw [State.meter_of_meters hy]
    exact ⟨fun _ => rfl, rfl, rfl⟩
  rw [State.writeEffect.eq_def]
  split
  · exact hsame (by rw [State.wroteInService_frame]) _
  · exact hsame (by split <;> rfl) _
  · exact hsame rfl _
  · exact hmod _ _ fun y => ⟨rfl, rfl⟩
  · exact hmod _ _ fun y => ⟨rfl, rfl⟩
  · exact hmod _ _ fun y => ⟨rfl, rfl⟩
  · exact hmod _ _ fun y => ⟨rfl, rfl⟩
  · exact hsame rfl _
  · exact hsame rfl _

theorem State.writeEffect_link (h : slot ≠ .station 75) : (x.writeEffect v slot).link = x.link := by
  rw [State.writeEffect.eq_def]
  split
  · rw [State.wroteInService_frame]
  · split <;> rfl
  any_goals rfl
  exact absurd rfl h

/-! ## The answers in their order (R198) -/

theorem exec_writeSetting_refused {r : Result} (hs : s.Accepts) (hp : p.length = 7)
    (h : (s.withLink (s.linkReceived false)).answerWriteSetting p = .refuse (s.withLink (s.linkReceived false)) r) :
    exec (.writeSetting p) s = .next (s.refusedAs 0x41 r) := by
  rw [exec_writeSetting hs hp, h]
  rfl

section
variable (hitem : item = fieldAt p 0 2) (hindex : index = fieldAt p 2 1) (hv : v = fieldAt p 3 4)
include hitem hindex hv

theorem State.answerWriteSetting_badField (h : (∀ slot, slotOf item index ≠ some slot) ∨ itemInRange item index v ≠ true ∨
    (item = 80 ∧ index = 11)) : s.answerWriteSetting p = .refuse s .badField := by
  subst hitem hindex hv
  rw [State.answerWriteSetting]
  split
  · rfl
  · rename_i slot hslot
    refine if_pos ?_
    rcases h with h | h | h
    · exact absurd hslot (h slot)
    · simp [h]
    · simp [h]

variable (hslot : slotOf item index = some slot) (hrange : itemInRange item index v = true)
    (hfixed : ¬ (item = 80 ∧ index = 11))
include hslot hrange hfixed

theorem State.answerWriteSetting_eq : s.answerWriteSetting p =
    if s.store.save.isSome then .refuse s .busy
    else if s.slotInUse v slot then .refuse s .inUse
    else if !(s.settings.put v slot).ruleHolds slot then .refuse s .badField
    else .ok (s.writeSlot v slot) [] := by
  subst hitem hindex hv
  rw [State.answerWriteSetting]
  rw [hslot]
  refine if_neg ?_
  rw [hrange, Bool.or_eq_true, Bool.and_eq_true, beq_iff_eq, beq_iff_eq]
  exact fun h => hfixed (h.resolve_left (by decide))

end

/-! ## A write taken -/

theorem State.written_settings (s : State) (v : Nat) (slot : Slot) : (s.written v slot).settings = s.settings.put v slot :=
  congrArg State.settings ((s.toWrite v slot).writeEffect_frame v slot)

theorem State.written_frame (s : State) (v : Nat) (slot : Slot) : s.written v slot = { s with
    settings := (s.written v slot).settings, link := (s.written v slot).link, loads := (s.written v slot).loads
    arms := (s.written v slot).arms, meters := (s.written v slot).meters } := by
  have heq := congrArg (State.withLink · (s.written v slot).link) ((s.toWrite v slot).writeEffect_frame v slot)
  rw [s.written_settings v slot]
  exact heq

theorem State.written_link_ne (h : slot ≠ .station 75) : (s.written v slot).link = s.linkAnswered 0x41 .ok [] :=
  congrArg (fun k : Link => { k with reply := some ⟨0x41, .ok, []⟩ }) (State.writeEffect_link (x := s.toWrite v slot) h)

/-- The silence time written restarts the silence timer on the new value (R188). -/
theorem State.written_link_silence (s : State) (v : Nat) : (s.written v (.station 75)).link =
    { s.linkAnswered 0x41 .ok [] with silence := if v = 0 then none else some (s.now + 1000 * v) } := rfl

end

/-- Settles O47. -/
theorem writeReplacesOneSetting : Obligations.WriteReplacesOneSetting := by
  intro p item index v slot other inScope inRange inUse rule live set s hs hp hitem hindex hv hinScope hinRange hlive hinUse
    hset hrule
  have hscope : inScope ↔ ∃ slot, slotOf item index = some slot := hinScope.trans slotOf_isSome_iff.symm
  have hrange : inRange ↔ itemInRange item index v = true := hinRange.trans itemInRange_iff.symm
  have hliveFun : live = s.Live := funext fun k => propext (hlive k)
  have huse : inUse ↔ s.ItemInUse item index v := by
    rw [hliveFun] at hinUse
    exact hinUse
  have hsetFun : set = injectorsOn := funext fun arm => funext fun k => hset arm k
  have hkept : rule ↔ s.RuleKept item index v := by
    rw [hsetFun] at hrule
    exact hrule
  refine ⟨fun hbad => ?_, fun hin hval hfree => ⟨fun hsave => ?_, fun hsave => ⟨fun hused => ?_, fun hunused hbroken => ?_,
    fun hunused hkeeps hslot => ?_⟩⟩⟩
  · refine exec_writeSetting_refused hs hp (State.answerWriteSetting_badField hitem hindex hv ?_)
    rw [hscope, hrange] at hbad
    exact hbad.imp_left fun h x hx => h ⟨x, hx⟩
  · obtain ⟨x, hx⟩ := hscope.mp hin
    refine exec_writeSetting_refused hs hp ?_
    rw [State.answerWriteSetting_eq hitem hindex hv hx (hrange.mp hval) hfree]
    exact if_pos (Option.isSome_iff_ne_none.mpr hsave)
  · obtain ⟨x, hx⟩ := hscope.mp hin
    refine exec_writeSetting_refused hs hp ?_
    rw [State.answerWriteSetting_eq hitem hindex hv hx (hrange.mp hval) hfree]
    have hsaving : ¬ (s.withLink (s.linkReceived false)).store.save.isSome = true := by
      rw [show (s.withLink (s.linkReceived false)).store.save = none from hsave]
      decide
    have hslotUse : (s.withLink (s.linkReceived false)).slotInUse v x = true :=
      (State.slotInUse_iff (s := s) hx).mpr (huse.mp hused)
    rw [if_neg hsaving, if_pos hslotUse]
  · obtain ⟨x, hx⟩ := hscope.mp hin
    refine exec_writeSetting_refused hs hp ?_
    rw [State.answerWriteSetting_eq hitem hindex hv hx (hrange.mp hval) hfree]
    have hsaving : ¬ (s.withLink (s.linkReceived false)).store.save.isSome = true := by
      rw [show (s.withLink (s.linkReceived false)).store.save = none from hsave]
      decide
    have hslotUse : ¬ (s.withLink (s.linkReceived false)).slotInUse v x = true := fun h =>
      hunused (huse.mpr ((State.slotInUse_iff (s := s) hx).mp h))
    have hslotRule : (!((s.withLink (s.linkReceived false)).settings.put v x).ruleHolds x) = true := by
      rw [Bool.not_eq_true', Bool.eq_false_iff, ne_eq]
      exact fun h => hbroken (hkept.mpr ((State.ruleHolds_iff (s := s) hx).mp h))
    rw [if_neg hsaving, if_neg hslotUse, if_pos hslotRule]
  · have hfreeSlot : s.slotInUse v slot = false := by
      rw [Bool.eq_false_iff, ne_eq, State.slotInUse_iff hslot, ← huse]
      exact hunused
    have hexec := exec_writeSetting_taken hs hp hitem hindex hv hslot (hrange.mp hval) hfree hsave hfreeSlot
      ((State.ruleHolds_iff hslot).mpr (hkept.mp hkeeps))
    obtain ⟨hplace, htable⟩ := slotOf_spec hslot
    have hitemEq : slot.place.1 = item := by rw [hplace]
    have hindexEq : slot.place.2 = index := by rw [hplace]
    obtain ⟨hloads, harms, hmeters⟩ := s.written_fields v slot
    refine ⟨s.written v slot, hexec, ?_, fun i j hother hne => ?_, ?_, fun h => ?_, fun h => ?_, fun h => ?_, fun n h => ?_,
      fun m h => ?_, fun m => ?_, s.written_frame v slot⟩
    · rw [s.written_settings v slot]
      exact Settings.get_put_self _ hslot (hrange.mp hval)
    · rw [s.written_settings v slot]
      exact Settings.get_put_ne _ htable (slotOf_spec hother).2 hne
    · split
      · rename_i hsilence
        rw [hsilence]
        exact s.written_link_silence v
      · rename_i hsilence
        exact State.written_link_ne hsilence
    · rw [hloads, State.writeEffect_loads (by rwa [hitemEq])]
      rfl
    · rw [harms, State.writeEffect_arms (by rwa [hitemEq])]
      rfl
    · rw [hmeters, State.writeEffect_meters (by rwa [hitemEq])]
      rfl
    · have harm := State.writeEffect_arm (x := s.toWrite v slot) (v := v) (slot := slot) (k := n) (by rwa [hindexEq])
      exact harm
    · have hmeter := ((s.toWrite v slot).writeEffect_meter v slot m).1 (by rwa [hindexEq])
      exact hmeter
    · have hmeter := ((s.toWrite v slot).writeEffect_meter v slot m).2
      exact hmeter

end Sys2Proof.Machine
end

section
/-! O45: the reads answer with their report, byte for byte, and change nothing but the link (R22, R23, R191, R192, R197). -/

namespace Sys2Proof.Machine

/-! ## Bits (R192) -/

/-- A list of bits as the sum of the weights of those set. -/
theorem bits_map_eq_sum {α : Type} (f : α → Bool) (ks : List α) (j : Nat) :
    2 ^ j * bits (ks.map f) = ((ks.zipIdx j).map fun x => if f x.1 then 2 ^ x.2 else 0).sum := by
  induction ks generalizing j with
  | nil => rfl
  | cons k ks ih =>
    rw [List.map_cons, bits_cons, List.zipIdx_cons, List.map_cons, List.sum_cons, ← ih (j + 1), pow_succ, Nat.mul_add,
      Nat.mul_assoc]
    cases f k <;> simp

theorem bits_eq_sum (bs : List Bool) : bits bs = (bs.zipIdx.map fun x => if x.1 then 2 ^ x.2 else 0).sum := by
  have hsum := bits_map_eq_sum id bs 0
  rwa [List.map_id, Nat.pow_zero, Nat.one_mul] at hsum

/-- The bits of a report's short lists, weight by weight. -/
theorem bits_two (a b : Bool) : bits [a, b] = (if a then 2 ^ 0 else 0) + (if b then 2 ^ 1 else 0) := by
  rw [bits_eq_sum]
  simp only [List.zipIdx_cons, List.zipIdx_nil, List.map_cons, List.map_nil, List.sum_cons, List.sum_nil, Nat.add_zero,
    Nat.zero_add]

theorem bits_five (a b c d e : Bool) : bits [a, b, c, d, e] = (if a then 2 ^ 0 else 0) + (if b then 2 ^ 1 else 0) +
    (if c then 2 ^ 2 else 0) + (if d then 2 ^ 3 else 0) + (if e then 2 ^ 4 else 0) := by
  rw [bits_eq_sum]
  simp only [List.zipIdx_cons, List.zipIdx_nil, List.map_cons, List.map_nil, List.sum_cons, List.sum_nil, Nat.add_zero,
    Nat.zero_add, ← Nat.add_assoc, Nat.reduceAdd]

theorem bits_six (a b c d e f : Bool) : bits [a, b, c, d, e, f] = (if a then 2 ^ 0 else 0) + (if b then 2 ^ 1 else 0) +
    (if c then 2 ^ 2 else 0) + (if d then 2 ^ 3 else 0) + (if e then 2 ^ 4 else 0) + (if f then 2 ^ 5 else 0) := by
  rw [bits_eq_sum]
  simp only [List.zipIdx_cons, List.zipIdx_nil, List.map_cons, List.map_nil, List.sum_cons, List.sum_nil, Nat.add_zero,
    Nat.zero_add, ← Nat.add_assoc, Nat.reduceAdd]

theorem bits_eight (a b c d e f g h : Bool) : bits [a, b, c, d, e, f, g, h] = (if a then 2 ^ 0 else 0) +
    (if b then 2 ^ 1 else 0) + (if c then 2 ^ 2 else 0) + (if d then 2 ^ 3 else 0) + (if e then 2 ^ 4 else 0) +
    (if f then 2 ^ 5 else 0) + (if g then 2 ^ 6 else 0) + (if h then 2 ^ 7 else 0) := by
  rw [bits_eq_sum]
  simp only [List.zipIdx_cons, List.zipIdx_nil, List.map_cons, List.map_nil, List.sum_cons, List.sum_nil, Nat.add_zero,
    Nat.zero_add, ← Nat.add_assoc, Nat.reduceAdd]

/-- The same, each weight by the place of its member in the list. -/
theorem bits_map_idxOf {α : Type} [DecidableEq α] {ks : List α} (hn : ks.Nodup) (f : α → Bool) :
    bits (ks.map f) = (ks.map fun k => if f k then 2 ^ ks.idxOf k else 0).sum := by
  have hsum := bits_map_eq_sum f ks 0
  rw [Nat.pow_zero, Nat.one_mul] at hsum
  rw [hsum]
  congr 1
  refine List.ext_getElem (by simp) fun i h h' => ?_
  rw [List.length_map] at h'
  simp [hn.idxOf_getElem i h']

/-! ## Codes (R192) -/

theorem LoadState.code_eq (x : LoadState) :
    x.code = 1 + [LoadState.staged, .ready, .delivering, .held, .ended].idxOf x := by cases x <;> rfl

theorem phaseCode_eq (x : Option Phase) : phaseCode x =
    [none, some Phase.headerWait, some .low, some .high, some .taper, some .finish, some .settle].idxOf x := by
  cases x with
  | none => rfl
  | some p => cases p <;> rfl

theorem EndReason.codeOr0_eq (x : Option EndReason) : codeOr0 EndReason.code x =
    [none, some EndReason.complete, some .aborted, some .holdExpired].idxOf x := by
  cases x with
  | none => rfl
  | some r => cases r <;> rfl

theorem HoldCause.codeOr0_eq (x : Option HoldCause) : codeOr0 HoldCause.code x =
    [none, some HoldCause.host, some .stopButton, some .permissive, some .alarm, some .linkSilence,
      some .broadcast].idxOf x := by
  cases x with
  | none => rfl
  | some c => cases c <;> rfl

theorem Stalled.codeOr0_eq (x : Option Stalled) : codeOr0 Stalled.code x =
    [none, some Stalled.gas, some .ethanol, some .both].idxOf x := by
  cases x with
  | none => rfl
  | some m => cases m <;> rfl

theorem AlarmKind.codeOr0_eq (x : Option AlarmKind) : codeOr0 AlarmKind.code x = (none :: allKinds.map some).idxOf x := by
  cases x with
  | none => rfl
  | some k => cases k <;> rfl

theorem ArmMode.code_eq (x : ArmMode) : x.code = 1 + [ArmMode.outOfService, .checking, .available].idxOf x := by
  cases x <;> rfl

theorem ResLevel.code_eq (x : ResLevel) : x.code = [ResLevel.none, .low, .high].idxOf x := by cases x <;> rfl

theorem Valve.code_eq (x : Valve) : x.code = 1 + [Valve.close, .hold, .openFurther].idxOf x := by cases x <;> rfl

theorem listReport_eq (ls : List Load) : listReport ls = byte1 ls.length ++ ls.flatMap fun l =>
    be16 l.number ++ byte1 (l.arm.val + 1) ++
      byte1 (1 + [LoadState.staged, .ready, .delivering, .held, .ended].idxOf l.state) ++
      byte1 ([none, some Phase.headerWait, some .low, some .high, some .taper, some .finish, some .settle].idxOf
        l.deliveringPhase) ++
      byte1 ([none, some EndReason.complete, some .aborted, some .holdExpired].idxOf l.endReason) := by
  have hentry : Load.listEntry = fun l => be16 l.number ++ byte1 (l.arm.val + 1) ++
      byte1 (1 + [LoadState.staged, .ready, .delivering, .held, .ended].idxOf l.state) ++
      byte1 ([none, some Phase.headerWait, some .low, some .high, some .taper, some .finish, some .settle].idxOf
        l.deliveringPhase) ++
      byte1 ([none, some EndReason.complete, some .aborted, some .holdExpired].idxOf l.endReason) := by
    funext l
    rw [Load.listEntry, LoadState.code_eq, phaseCode_eq, EndReason.codeOr0_eq, armNumber]
  rw [listReport, hentry]

theorem getD_false_eq (x : Option Bool) : x.getD false = (x == some true) := by
  cases x with
  | none => rfl
  | some b => cases b <;> rfl

theorem codeOr0_number (x : Option Load) : codeOr0 Load.number x = (x.map (·.number)).getD 0 := by cases x <;> rfl

theorem State.tempHeldMark_eq (s : State) (m : MeterId) : s.tempHeldMark m = (s.tempAnswer m).any (·.2) := by
  rw [State.tempHeldMark]
  cases s.tempAnswer m <;> rfl

theorem latchedBits_eq (l : List AlarmKind) :
    latchedBits l = (allKinds.map fun k => if k ∈ l then 2 ^ allKinds.idxOf k else 0).sum := by
  rw [latchedBits, bits_map_idxOf (by decide)]
  simp only [decide_eq_true_iff]

theorem lossSourceBits_eq (l : List LossSource) : lossSourceBits l =
    (([LossSource.estop, .headerPress, .ground, .overfill, .armConnected].zipIdx.map fun x =>
      if x.1 ∈ l then 2 ^ x.2 else 0).sum) := by
  have hsum := bits_map_eq_sum (fun k : LossSource => decide (k ∈ l))
    [.estop, .headerPress, .ground, .overfill, .armConnected] 0
  rw [Nat.pow_zero, Nat.one_mul] at hsum
  rw [lossSourceBits, hsum]
  simp only [decide_eq_true_iff]

theorem State.levelBits_eq (s : State) (n : ArmId) : s.levelBits n =
    (([Permissive.estop, .headerPress, .ground (bayOf n), .overfill (bayOf n), .armConnected n].zipIdx.map fun x =>
      if levelOf s.levels x.1 then 2 ^ x.2 else 0).sum) := by
  have hsum := bits_map_eq_sum (levelOf s.levels)
    [.estop, .headerPress, .ground (bayOf n), .overfill (bayOf n), .armConnected n] 0
  rw [Nat.pow_zero, Nat.one_mul] at hsum
  exact hsum

/-! ## The requests -/

section
variable {s : State} {p : List Byte} {r : Result} {payload : List Byte} (hs : s.Accepts)
include hs

theorem exec_readLoad (hp : p.length = 2)
    (h : (s.withLink (s.linkReceived false)).answerReadLoad p = ⟨s.withLink (s.linkReceived false), r, payload⟩) :
    exec (.readLoad p) s = .next (s.withLink (s.linkAnswered 0x16 r payload)) := by
  show execReadLoad p s = _
  rw [execReadLoad, fitsLength_of_length hp,
    State.takeRequest_of_effect (owner := (·.answerReadLoad p)) hs (frameExists_of_length hp (by decide)) h rfl]
  rfl

theorem exec_readArm (hp : p.length = 1)
    (h : (s.withLink (s.linkReceived false)).answerReadArm p = ⟨s.withLink (s.linkReceived false), r, payload⟩) :
    exec (.readArm p) s = .next (s.withLink (s.linkAnswered 0x02 r payload)) := by
  show execReadArm p s = _
  rw [execReadArm, fitsLength_of_length hp,
    State.takeRequest_of_effect (owner := (·.answerReadArm p)) hs (frameExists_of_length hp (by decide)) h rfl]
  rfl

theorem exec_listLoads (hp : p.length = 1)
    (h : (s.withLink (s.linkReceived false)).answerListLoads p = ⟨s.withLink (s.linkReceived false), r, payload⟩) :
    exec (.listLoads p) s = .next (s.withLink (s.linkAnswered 0x18 r payload)) := by
  show execListLoads p s = _
  rw [execListLoads, fitsLength_of_length hp,
    State.takeRequest_of_effect (owner := (·.answerListLoads p)) hs (frameExists_of_length hp (by decide)) h rfl]
  rfl

theorem exec_readSetting (hp : p.length = 3)
    (h : (s.withLink (s.linkReceived false)).answerReadSetting p = ⟨s.withLink (s.linkReceived false), r, payload⟩) :
    exec (.readSetting p) s = .next (s.withLink (s.linkAnswered 0x40 r payload)) := by
  show execReadSetting p s = _
  rw [execReadSetting, fitsLength_of_length hp,
    State.takeRequest_of_effect (owner := (·.answerReadSetting p)) hs (frameExists_of_length hp (by decide)) h rfl]
  rfl

end

theorem armNumbered_eq (n : ArmId) : armNumbered (armNumber n) = some n := dif_pos (by rw [armNumber]; omega)

section
variable {s : State} {p : List Byte} {n : ArmId}

theorem State.answerReadArm_badField (h : fieldAt p 0 1 = 0 ∨ 8 < fieldAt p 0 1) :
    s.answerReadArm p = .refuse s .badField := by
  rw [State.answerReadArm, armNumbered, dif_neg (by omega)]

theorem State.answerReadArm_found (h : fieldAt p 0 1 = armNumber n) : s.answerReadArm p = .ok s (s.armReport n) := by
  rw [State.answerReadArm, h, armNumbered_eq]

theorem State.answerListLoads_badField (h : 8 < fieldAt p 0 1) : s.answerListLoads p = .refuse s .badField := by
  rw [State.answerListLoads, armNumbered_of_gt h]
  exact if_neg (by omega)

theorem State.answerListLoads_all (h : fieldAt p 0 1 = 0) :
    s.answerListLoads p = .ok s (listReport (allArms.flatMap s.armList)) := if_pos h

theorem State.answerListLoads_arm (h : fieldAt p 0 1 = armNumber n) :
    s.answerListLoads p = .ok s (listReport (s.armList n)) := by
  rw [State.answerListLoads, h, armNumbered_eq]
  exact if_neg (by rw [armNumber]; omega)

end

/-- Settles O45. -/
theorem readsChangeNothing : Obligations.ReadsChangeNothing := by
  intro p n l slot s hs
  dsimp only
  refine ⟨fun hp => ⟨fun hzero => ?_, fun hne hnone => ?_, fun hne hl => ?_⟩,
    fun hp => ⟨fun hbad => ?_, fun harm => ?_, fun hbad => ?_, fun hall => ?_, fun harm => ?_⟩,
    fun hp => ⟨fun hnone => ?_, fun hslot => ?_⟩⟩
  · exact exec_readLoad hs hp (State.forLoad_badField hzero)
  · exact exec_readLoad hs hp (State.forLoad_notFound hne hnone)
  · rw [exec_readLoad (r := .ok) (payload := l.report) hs hp (State.forLoad_found hne hl)]
    unfold Load.report
    rw [Load.presence, EndFlags.bits, bits_eight, bits_two,
      bits_five, LoadState.code_eq, phaseCode_eq, HoldCause.codeOr0_eq, EndReason.codeOr0_eq, getD_false_eq, getD_false_eq]
    rfl
  · exact exec_readArm hs hp (State.answerReadArm_badField hbad)
  · rw [exec_readArm (r := .ok) (payload := s.armReport n) hs hp (State.answerReadArm_found harm)]
    unfold State.armReport
    dsimp only
    rw [State.armPresence, bits_six, bits_two,
      ArmMode.code_eq, codeOr0_number, phaseCode_eq, ResLevel.code_eq, Valve.code_eq, Stalled.codeOr0_eq,
      State.tempHeldMark_eq, State.tempHeldMark_eq, latchedBits_eq, AlarmKind.codeOr0_eq, lossSourceBits_eq,
      State.levelBits_eq]
    rfl
  · exact exec_listLoads hs hp (State.answerListLoads_badField hbad)
  · rw [exec_listLoads hs hp (State.answerListLoads_all hall), listReport_eq]
    rfl
  · rw [exec_listLoads hs hp (State.answerListLoads_arm harm), listReport_eq]
    rfl
  · refine exec_readSetting hs hp ?_
    rw [State.answerReadSetting, hnone]
    rfl
  · refine exec_readSetting hs hp ?_
    rw [State.answerReadSetting, hslot]
    rfl

end Sys2Proof.Machine
end
